-- ==== Sys2Proof/Word.lean ====
section
/-! DEFINITION. The words the hub computes with, and the shapes of what crosses its balls: ring cells, Ethernet frames, CAN
frames, mate-line messages. Plain data only; what the hub does with them is in Machine/. -/

namespace Sys2Proof.Machine

/-- A byte of a payload; site-space payloads are byte-addressed (chapter "Scope, conventions and figures at a glance"). -/
abbrev Byte := BitVec 8

/-- A 32-bit register value: all registers are 32 bits wide. -/
abbrev Word := BitVec 32

/-- Finite tables of the state: pairs of an index and a value. -/
abbrev Tbl (α : Type) := List (Nat × α)

/-- A ring cell: the header fields of R88 and the payload; HEC and trailer are computed, not kept. `ring` is true on ring B. -/
structure Cell where
  type : BitVec 4
  cls : BitVec 3
  dp : BitVec 2
  poison : Bool
  ring : Bool
  wraps : BitVec 2
  mcast : Bool
  lt : Bool
  link : Bool
  op : BitVec 4
  hops : BitVec 12
  dring : BitVec 4
  dnode : BitVec 12
  sring : BitVec 4
  snode : BitVec 12
  seq : BitVec 16
  rsv2 : BitVec 4
  len : BitVec 12
  corr : BitVec 48
  flow : BitVec 16
  rsv5 : BitVec 16
  payload : List Byte
  deriving DecidableEq, Repr

/-- An Ethernet frame: addresses, an 802.1Q tag if it has one (PCP, DEI, VID), the EtherType and the data, without FCS. -/
structure Frame where
  dst : BitVec 48
  src : BitVec 48
  tag : Option (BitVec 3 × Bool × BitVec 12)
  etype : BitVec 16
  data : List Byte
  deriving DecidableEq, Repr

/-- A CAN frame as it stands on the bus: identifier, format bits, DLC and data bytes. -/
structure CanFrame where
  id : BitVec 29
  ide : Bool
  fdf : Bool
  brs : Bool
  esi : Bool
  rtr : Bool
  dlc : BitVec 4
  data : List Byte
  deriving DecidableEq, Repr

/-- Who writes or reads a register: a ring source (ring and node), the external master on the LXB, the management cores, or the
service port S (R52). -/
inductive Src where
  | ring (r : BitVec 4) (n : BitVec 12)
  | lxb | mc0 | mc1 | s
  deriving DecidableEq, Repr

/-- The answer to one access of a register unit (R7, R42, R52, R152). -/
inductive Status where
  | ok | addrErr | refused | locked | claimed | poison | badOp | lxbErr | lxbWait | noRoute | unreachable | timeout | restarted | busy
  deriving DecidableEq, Repr

/-- A tally entry (R438). -/
structure TEntry where
  seq : Nat
  sec : Nat
  ns : Nat
  source : Nat
  code : Nat
  result : Nat
  flags : Nat
  digest : Nat
  detail : Nat
  deriving DecidableEq, Repr

/-- A node's membership as the store or boot flash records it (R112, R114). -/
structure MemRec where
  ring : Nat
  node : Nat
  bound : Nat
  /-- node number to position + 1; 0 for none -/
  pos : Tbl Nat
  gen : Option Nat
  size : Nat
  deriving DecidableEq, Repr

/-- One part of a checkpoint slot (R412): a full checkpoint, or a differential. -/
structure CkPart where
  slot : Nat
  /-- none: the full checkpoint; otherwise the half of the differential -/
  half : Option Nat
  kind : Nat
  format : Nat
  ckseq : Nat
  base : Nat
  sec : Nat
  ns : Nat
  frac : Nat
  tallySeq : Nat
  imgid : Nat
  /-- RW and RWL bits of registers that differ from reset (full), or from the slot's full checkpoint (differential), by key -/
  regs : List (Nat × Nat)
  disc : Nat
  /-- weavers that are not STOPPED, with their states -/
  weavers : List (Nat × Nat)
  deriving DecidableEq, Repr

/-- A replay record (R409). -/
structure ReplayRec where
  seq : Nat
  src : Src
  words : List Word
  deriving DecidableEq, Repr

/-- The checkpoint store: a device outside the hub that keeps its content through every reset (R409). -/
structure StoreSt where
  fitted : Bool
  pairId : Nat
  /-- membership record (R114); end of the last reserved block of sequence numbers (R440) -/
  member : Option MemRec
  reserved : Nat
  parts : List CkPart
  /-- newest first, at most 4,096 -/
  replay : List ReplayRec
  /-- newest first, at most 65,536 -/
  tally : List TEntry
  /-- image shelf: running images by component 1 to 5 (R464) -/
  shelf : Tbl (List Byte)
  deriving DecidableEq, Repr

def StoreSt.init : StoreSt :=
  { fitted := false, pairId := 2 ^ 64 - 1, member := none, reserved := 0, parts := [], replay := [], tally := [], shelf := [] }

/-- A hub card as the board maker and the service left it: what its fuses, its boot flash and its checkpoint store hold when power comes
for the first time. Keys are OTP slots (hash, provisioned, revoked); flash slots are numbered 0 MFW A, 1 MFW B, 2 SDM, 3 UDS, 4 PPT,
5 weave A, 6 weave B. -/
structure Card where
  ident : BitVec 64
  keys : List (List Byte × Bool × Bool)
  debugDisable : Bool
  jtagLock : Bool
  flash : List (Nat × List Byte)
  curMfw : Bool
  curWeave : Bool
  store : StoreSt
  deriving DecidableEq, Repr

/-- An instruction of the test access port (R490, R491): the debug instructions by a number of the model's own, since the spec gives no
codes. -/
inductive JtagInstr where
  | bypass | idcode | samplePreload | extest
  | debug (n : Nat)
  deriving DecidableEq, Repr

/-- The arguments ARG1 to ARG7 of a command (R432). -/
structure Args where
  a1 : Word
  a2 : Word
  a3 : Word
  a4 : Word
  a5 : Word
  a6 : Word
  a7 : Word
  deriving DecidableEq, Repr

/-- What RETRY of a ring port a command names: RPE, RPW or U (R110). -/
abbrev PortU := Fin 3

/-- A ring port: RPE (0) or RPW (1). -/
abbrev PortR := Fin 2

end Sys2Proof.Machine
end

