-- ==== Sys2Proof/Syntax.lean ====
section
/-! DEFINITION. The commands of the hub: one constructor for each row of the opcode table, with what the world outside supplies when
the row's step takes place (an access's source and value, a cell, a sampled level). Durations are not operands: that a timer has run is
what the row itself says. -/

namespace Sys2Proof

open Sys2Proof.Machine

/-- The losses that declare a fault of a port in UP (R81), as RGp_LSTAT.CAUSE numbers them: 2, 3, 4. -/
inductive LossCause where
  | signal | lock | highBer
  deriving DecidableEq, Repr

/-- How the bytes of a stored cell read back from the pool as it leaves: good, or with the first parity failure before any of it has left,
or after (R23, R186). -/
inductive PoolRead where
  | good | first | later
  deriving DecidableEq, Repr

/-- An edge a weaver sees at a pin: ticks after the edge before it (or after the command's start), and whether it falls at the ball. -/
structure Edge where
  after : Nat
  falling : Bool
  deriving DecidableEq, Repr

/-- How a transmit attempt of a CAN FD controller ends (R306). -/
inductive CanEnd where
  | sent | arbitrationLost | error
  deriving DecidableEq, Repr

/-- What a CAN FD controller detects on its bus: the errors of CFk_ERR.LEC, or a res bit received recessive (R314). -/
inductive CanErr where
  | stuff | form | ack | bit1 | bit0 | crc | tdcRange | resRecessive
  deriving DecidableEq, Repr

/-- What MC1 finds of a device at a field port (R334): identity, speed (0 low, 1 full, 2 high), and what its descriptors offer. -/
structure FieldDevice where
  vid : BitVec 16
  pid : BitVec 16
  speed : Fin 3
  /-- class 0x09 -/
  hub : Bool
  /-- on the vendor scanner list of the UDS component -/
  listed : Bool
  hidScanner : Bool
  hidKeyboard : Bool
  cdc : Bool
  deriving DecidableEq, Repr

/-- A frame of the mate line as it is received (R405): its payload, and whether its CRC or its TYPE is wrong. -/
structure MateFrame where
  payload : List Byte
  bad : Bool
  deriving DecidableEq, Repr

/-- How the hand race of a takeover goes (R372): the OFFER that wins it, the timer, or neither yet. -/
inductive TakeHand where
  | offer (f : MateFrame)
  | timer
  | wait
  deriving DecidableEq, Repr


/-- The commands, in the order of the opcode table. The docstring of each is its row's rule and summary. -/
inductive Instr where
  /-- A write to a register that has no row of its own is taken whole or refused whole, with rights, claim, range, combination and state checks. (R41) -/
  | registerWrite (src : Src) (cls off : Nat) (v : Word)
  /-- A read of an RC field returns its value and then clears it, with a racing event kept for the next read. (R8) -/
  | readClearRegister (src : Src) (cls off : Nat)
  /-- A beat reaches a slath input, its tag parity is checked before arbitration, and the beat is granted to the outputs in ROUTE. (R22) -/
  | slathBeat (port : Fin 27) (tag : BitVec 64) (data : List Byte) (parityOk : Bool)
  /-- After MFW starts, the loader tries the current weave slot and then the other, and runs bare if both fail. (R69) -/
  | bootLoad (errA errB : Bool)
  /-- The quiet point of a live load wins its race, and the units are stopped, swapped and restarted under the new image. (R66) -/
  | quietPointReached
  /-- The quiet timeout wins, and the load is abandoned with CODE QUIET while the running image stays in force. (R66) -/
  | quietTimeout
  /-- A write of RGp_CTL.ENABLE moves the port from DOWN to ACQUIRE, or to DOWN when cleared, with LINKDOWN from UP or GREET. (R78) -/
  | portEnable (src : Src) (p : PortU) (en : Bool)
  /-- RETRAIN sends LINKDOWN from UP or GREET, puts the port in DOWN and then in ACQUIRE. (R78) -/
  | retrain (src : Src) (p : PortU)
  /-- A port in ACQUIRE reaches signal and clock lock and moves to LOCK. (R78) -/
  | clockLock (p : PortU)
  /-- The ACQUIRE timer expires and the port restarts ACQUIRE. (R78) -/
  | acqTimeout (p : PortU)
  /-- A port in LOCK reaches block lock, and FEC lock where FEC is on, and moves to GREET. (R78) -/
  | blockLock (p : PortU)
  /-- No lock within 1 ms, or loss of signal, in LOCK returns the port to ACQUIRE. (R78) -/
  | lockTimeout (p : PortU)
  /-- Every 10 µs in GREET, and in UP until the first PULSE, the port sends a HELLO. (R78) -/
  | helloSend (p : PortU)
  /-- A received HELLO is checked, and an acceptable one with HEARD set takes the port to UP, while a wrong PORT sets MISWIRED. (R78) -/
  | hello (p : PortU) (c : Cell)
  /-- After 1 ms in GREET the port enters FAULT with cause 7. (R78) -/
  | greetTimeout (p : PortU)
  /-- Every 2 µs in UP the port sends a PULSE at the next cell boundary, ahead of waiting cells. (R80) -/
  | pulseSend (p : PortU)
  /-- A PULSE that passes HEC wins the keepalive race and restarts the 4 µs timer, and a PULSE during FAULT is counted late. (R82) -/
  | pulse (p : PortU)
  /-- The keepalive timer wins, and the port declares a fault with cause 1, enters FAULT and sends LINKDOWN. (R82) -/
  | keepaliveTimeout (p : PortU)
  /-- Loss of signal, loss of block lock or high BER in UP declares a fault within 1 µs. (R81) -/
  | linkFaultDetected (p : PortU) (cause : LossCause)
  /-- A received LINKDOWN puts the port in FAULT with cause 5. (R81) -/
  | linkdown (p : PortU)
  /-- The FAULT hold-off ends, and the port goes to ACQUIRE under autonomous policy or to DOWN under directed policy. (R78) -/
  | holdoffEnd (p : PortU)
  /-- Every 100 ms the hub reads the module diagnostic bytes into RGp_OPT0 to RGp_OPT2. (R84) -/
  | opticsPoll (p : PortR) (data : Option (List Byte))
  /-- Writing RGp_I2C.BUSY starts a raw module access between two poller reads. (R85) -/
  | i2cTransfer (src : Src) (p : PortR) (addr : Byte) (dev wr : Bool) (wdata : Byte)
  /-- A raw module transfer ends, and BUSY clears with RDATA or ERR. (R85) -/
  | i2cTransferDone (p : PortR) (ack : Bool) (data : Byte)
  /-- A clock stretch over 10 ms loses the transfer, which ends with a stop condition and ERR set. (R85) -/
  | i2cStretchTimeout (p : PortR)
  /-- A module absence, loss-of-signal or transmit-fault pin changes, is reported in RGp_LSTAT, and a loss of signal counts as a fault cause. (R86) -/
  | moduleSignal (p : PortR) (present los txFault : Bool)
  /-- An arriving cell header is checked and handled by the first matching row of the removal table: discard, consume, remove, copy or forward. (R103) -/
  | cellHeader (p : PortU) (w0 w1 w2 w3 w4 w5 : Word)
  /-- The end of a cell arrives, the trailer is checked, and a good cell is delivered to its unit or a bad one dropped or stomped. (R97) -/
  | cellTrailer (p : PortU) (payload : List Byte) (crc : Word) (errorEnd : Bool) (fecCor fecUnc : Byte)
  /-- At each cell boundary a ring port chooses between link-local, entitled insertion, pass-through and gap insertion. (R106) -/
  | cellBoundary (p : PortR) (pool : PoolRead)
  /-- At each round start each ring port refills its class credits, capped at the quota. (R105) -/
  | roundStart
  /-- A write of RG_ENUM.START at a root or second root sends an ENUMERATE with the next GEN. (R117) -/
  | enumStart (src : Src)
  /-- Under autonomous policy the root sends an ENUMERATE every RG_ENUM.PERIOD ms. (R117) -/
  | enumPeriod
  /-- A node that receives an ENUMERATE on ring A with WRAPS 0 records OFFSET and GEN, sends a REPORT and sets MOVED if its position differs. (R118) -/
  | enumerate (p : PortR) (c : Cell)
  /-- The ENUMERATE sender places a received REPORT in its FIFO and uses it for its position table. (R121) -/
  | report (c : Cell)
  /-- A read of RG_RPT5 returns the last payload bytes and removes the head REPORT from the FIFO. (R121) -/
  | reportPop (src : Src)
  /-- The ENUMERATE returns to its sender and wins the race, setting RESULT 1 and SIZE. (R120) -/
  | enumerateReturn (c : Cell)
  /-- The 2 ms enumerate timer wins, RESULT becomes 2, a ring event is written and no POSTABLE is sent for the GEN. (R120) -/
  | enumTimeout
  /-- 10 ms after the return, or on the last REPORT, the root sends the position table as five POSTABLE cells. (R122) -/
  | postableTimer
  /-- A POSTABLE cell opens or fills a sending, and the cell that makes the sending whole wins the window race and the table is adopted. (R123) -/
  | postable (p : PortR) (c : Cell)
  /-- The 10 ms window expires, the held POSTABLE cells are discarded and POSOUT becomes 2. (R123) -/
  | postableWindowTimeout
  /-- A matching ASSIGN from a source with the right binds an unassigned hub, or is answered same or locked, and ASSIGNED is sent. (R126) -/
  | assign (p : PortR) (c : Cell)
  /-- The ASSIGN sender receives ASSIGNED, and on RESULT 0 the root resends the position table within 1 ms. (R122) -/
  | assigned (c : Cell)
  /-- A RELEASE naming the target's fused identity makes it answer RESULT 3, clear its number and pair tables, and clear its membership record. (R127) -/
  | releaseCell (c : Cell)
  /-- A hub that removes its own-addressed DUPCHECK or ENUMERATE with a foreign identity counts a duplicate node, sets DUP and writes a ring event. (R128) -/
  | dupcheck (c : Cell)
  /-- A cell received on U is inserted towards its node or exit, or discarded with RG_NOROUTE. (R131) -/
  | uplinkCell (c : Cell)
  /-- RG_WRAP.HOLD after the first PULSE wins against a fault, and the port unwraps. (R137) -/
  | unwrapHoldEnd (p : PortR)
  /-- A local master issues a site request, which gets a sequence number, is kept and is sent on the chosen ring. (R142) -/
  | transactionRequest (m : Src) (op : BitVec 4) (addr : BitVec 64) (count : BitVec 16) (data : List Byte) (tag : Word) (parityBad : Bool)
  /-- The response timer wins, and the source resends its kept entries on the other ring or fails the window and syncs. (R142) -/
  | responseTimeout (i : Fin 256)
  /-- Every AGE ms a DEAD source entry tries SYNC again with its old BASE. (R142) -/
  | deadSyncRetry (i : Fin 256)
  /-- A pair entry idle for RG_XCFG.AGE ms becomes free. (R140) -/
  | pairEntryAge (dest : Bool) (i : Fin 256)
  /-- A READ accepted in order is checked and applied, and answered with RDATA. (R153) -/
  | read (c : Cell) (parityBad : Bool)
  /-- A WRITE accepted in order is checked, applied and answered with WDONE. (R153) -/
  | write (c : Cell)
  /-- A posted write accepted in order is applied or queued at the bridge and later acknowledged. (R154) -/
  | pwrite (c : Cell) (poisonAt : Option (Fin 17))
  /-- An atomic fetch-and-add reads the register, writes old plus addend and returns the old value. (R156) -/
  | fadd (c : Cell)
  /-- An atomic compare-and-swap writes the swap value only if the old value equals the compare value, and returns the old value. (R156) -/
  | cswap (c : Cell)
  /-- A destination answers SYNC with SYNCED carrying its old EXPECT, sets EXPECT to BASE and clears its kept responses. (R143) -/
  | sync (c : Cell)
  /-- A SKIP in order is kept as SKIPPED, or answered APPLIED if the write was already applied. (R143) -/
  | skip (c : Cell)
  /-- A request of an unlisted OP does nothing and is answered BADREQ in a WDONE. (R149) -/
  | reservedOpRequest (c : Cell)
  /-- No later than 20 µs after applying an uncovered posted write the destination sends an ACK. (R144) -/
  | ackTimer (i : Fin 256)
  /-- A read response arriving at the source wins its race and completes the kept entry with its status and data. (R142) -/
  | rdata (c : Cell)
  /-- A write response completes its kept entry and, cumulatively, earlier posted entries. (R142) -/
  | wdone (c : Cell)
  /-- An ACK completes every kept posted write up to its SEQ. (R144) -/
  | ack (c : Cell)
  /-- An atomic response completes its kept entry with the old value. (R142) -/
  | atomic (c : Cell)
  /-- A SYNCED answer sets NEXT to BASE, makes the entry active and resolves outcomes of failed requests. (R142) -/
  | synced (c : Cell)
  /-- A NOSYNC answer fails the window with RESTARTED, or makes a syncing entry DEAD. (R142) -/
  | nosync (c : Cell)
  /-- A SKIPPED response completes a posted entry as applied or skipped. (R142) -/
  | skipped (c : Cell)
  /-- At the end of each access the hub grants the LXB to the external master or its own queue, alternating while both have work. (R160) -/
  | lxbGrant (reqLow : Bool)
  /-- RDY_N sampled low ends a beat of a master access, and the next beat or the next address phase follows. (R162) -/
  | lxbBeatEnd (data : Word)
  /-- ERR_N at beat k ends the access and the rest of the request, answering LXBERR or logging a posted error. (R165) -/
  | lxbErr
  /-- The wait count reaches WAIT, the access ends with LXBWAIT and the bus idles 4 cycles. (R164) -/
  | lxbWaitTimeout
  /-- RDY_N or ERR_N sampled low outside any data phase is counted as a late arrival. (R164) -/
  | lxbLateReady
  /-- The external master's access to the hub's own units is served beat by beat or ended with ERR_N. (R171) -/
  | lxbLocalAccess (addr : Word) (wr : Bool) (beats : List (BitVec 4 × Word)) (parityBad : Option (Fin 16))
  /-- A far-window write is placed in the far write buffer and sent as PWRITE or WRITE, or answered RETRY_N if it cannot fit. (R172) -/
  | farWrite (addr : Word) (beats : List (BitVec 4 × Word))
  /-- A far-window read gets RETRY_N and starts, matches or waits on a delayed-read slot, or is served from a held result. (R173) -/
  | farRead (addr : Word) (bl be : BitVec 4)
  /-- The ring result of a delayed read is held in its slot and the discard timer starts. (R174) -/
  | delayedReadResult (d : Fin 4) (status : Byte) (data : List Byte)
  /-- The discard timer wins, the held result is discarded and the slot freed. (R174) -/
  | delayedReadDiscard (d : Fin 4)
  /-- A frame's head arrives at an edge input, is classified, looked up and routed, and cut-through or storage is decided. (R195) -/
  | edgeFrame (e : Fin 16) (f : Frame)
  /-- The end of an edge frame is checked, a bad frame is dropped or stomped, and a good one is learnt. (R181) -/
  | edgeFrameEnd (e : Fin 16) (data : List Byte) (fcsOk codeErr poisoned : Bool)
  /-- A delivered TYPE 0x4 cell is unpacked, learnt, looked up and sent to an edge port or flooded. (R197) -/
  | tunnelledFrame (p : PortU) (c : Cell)
  /-- A received PAUSE stops the output from starting frames for its quanta. (R200) -/
  | pause (e : Fin 16) (quanta : BitVec 16)
  /-- A received priority pause stops the mapped queues for their quanta. (R200) -/
  | priorityPause (e : Fin 16) (classes : Byte) (quanta : List (BitVec 16))
  /-- The pause time runs out and the paused output or queue is eligible again. (R200) -/
  | pauseExpiry (e : Fin 16) (queue : Option (Fin 8))
  /-- Every 32,768 quanta above XON the port repeats its pause. (R200) -/
  | pauseRepeat (e : Fin 16)
  /-- After a core restart the hub trains the overflow interface, and a failure leaves TRAINED clear with a pool event. (R187) -/
  | overflowTraining (ok : Bool)
  /-- Every 3.9 µs the hub refreshes the overflow memory. (R187) -/
  | ddrRefresh
  /-- When a spilled queue's on-chip part holds fewer than 8 cells the overflow engine reads blocks back. (R188) -/
  | overflowReadback (n : Fin 19) (q : Fin 8) (parityBad : Bool)
  /-- At each millisecond the hub judges each hash window, updates RUNh and at 64 writes a pool event and may start a switch. (R191) -/
  | hashWindow
  /-- A write of SELh, or an autonomous switch, toggles the seed, sets SWITCHING and starts the drain of the old seed. (R192) -/
  | hashSwitch (src : Src) (h : Fin 3)
  /-- The drain of the old seed ends, SWITCHING clears, SW_HASHSW increments and the retired seed may be refreshed. (R192) -/
  | hashSwitchComplete (h : Fin 3)
  /-- 1,000 ms after a FLOW switch, slots not yet moved move at their next cell and are counted. (R192) -/
  | flowForceTimer
  /-- A dynamic entry not refreshed is removed between SW_AGE and twice SW_AGE seconds after its last refresh. (R196) -/
  | fdbAge (vid : BitVec 12) (mac : BitVec 48)
  /-- SW_FDBCMD operation 1 adds a static entry, overwriting a dynamic one of the same key. (R198) -/
  | fdbAddStatic (src : Src)
  /-- SW_FDBCMD operation 2 deletes the entry of the key. (R198) -/
  | fdbDelete (src : Src)
  /-- SW_FDBCMD operation 3 returns the key's destination and static flag in SW_FDBDST. (R198) -/
  | fdbLookup (src : Src)
  /-- SW_FDBCMD operation 4 flushes the dynamic entries of a port or a remote node. (R198) -/
  | fdbFlushDynamic (src : Src)
  /-- SW_FDBCMD operation 5 flushes every dynamic entry. (R198) -/
  | fdbFlushAll (src : Src)
  /-- An edge port or U loses its link, the frame on the wire is lost and the hold timer starts. (R202) -/
  | edgeLinkDown (n : Fin 17)
  /-- The link returns, and the output resumes before the hold ends, or clears FLUSHING as a late arrival after it. (R202) -/
  | edgeLinkUp (n : Fin 17) (speed : BitVec 2) (full : Bool)
  /-- The hold timer wins, every queued frame is flushed and FLUSHING is set. (R202) -/
  | portHoldTimeout (n : Fin 17)
  /-- Writing SW_PCFGn.ENABLE to 0 flushes the port as a won timeout does. (R202) -/
  | portDisable (src : Src) (n : Fin 17)
  /-- At each frame boundary an output chooses its next frame by strict priority and deficit round robin over eligible queues. (R207) -/
  | egressFrameBoundary (n : Fin 25) (parityBad : Bool)
  /-- A frame finishes leaving an output, and its queue's shaper is refilled. (R210) -/
  | frameSent (n : Fin 25) (parityBad : Bool)
  /-- A shaped queue's timing wheel slot is reached and the queue is released. (R211) -/
  | shaperRelease (n : Fin 19) (q : Fin 8)
  /-- The next entry of the active gate list starts and its gate state takes effect. (R213) -/
  | gateEntry (n : Fin 17)
  /-- Writing ARM arms the inactive gate list for a swap, or swaps at once and sets LATESWAP if its time has passed. (R215) -/
  | gateArm (src : Src) (n : Fin 17) (plist : Bool)
  /-- DISARM wins against the swap time and cancels the armed swap, or counts as late. (R217) -/
  | gateDisarm (src : Src) (n : Fin 17)
  /-- OFF disarms any swap, makes no list active and opens every gate. (R215) -/
  | gateOff (src : Src) (n : Fin 17)
  /-- The swap time wins, the armed list becomes active from entry 0 and GWMAX is recomputed. (R216) -/
  | gateSwap (n : Fin 17)
  /-- A head marked unsendable that is still head after one cycle is discarded with an egress event. (R219) -/
  | unsendableTimeout (n : Fin 17) (q : Fin 8)
  /-- A launched frame's launch time is reached and it becomes eligible to start. (R220) -/
  | launchTime (n : Fin 16) (lti : BitVec 12)
  /-- The launch deadline wins before the frame starts, and the frame is discarded and counted. (R221) -/
  | launchDeadline (n : Fin 16) (lti : BitVec 12)
  /-- A read of TM_SEC or TM_SEC48L returns seconds and latches NS, FRAC, SEC48H and the tick at one tick. (R227) -/
  | timeReadLatch (src : Src) (sec48 : Bool)
  /-- Writing TM_CTL.SNAP latches time and tick as a read of TM_SEC does. (R227) -/
  | snap (src : Src)
  /-- Writing TM_CTL.STEP sets local time from TM_SETH, TM_SETS and TM_SETNS, with a time event. (R229) -/
  | timeStep (src : Src)
  /-- Each PDINT interval a ring port in UP sends a PDREQ, and the due time wins against any unanswered PDRESP. (R233) -/
  | pdreqSend (p : PortR)
  /-- A received PDREQ is answered with a PDRESP carrying CORR equal to t3 minus t2. (R233) -/
  | pdreq (p : PortR) (c : Cell) (t2 t3 : BitVec 64)
  /-- A PDRESP wins its race, and the link delay is computed and averaged, or the result is discarded. (R233) -/
  | pdresp (p : PortR) (c : Cell) (t4 : BitVec 64)
  /-- Each SYNCINT interval the root sends a SYNC on each ring. (R234) -/
  | syncSend
  /-- A forwarded SYNC has its offset computed, CORR updated, and if usable it wins the sync race and feeds the servo. (R235) -/
  | timeSync (p : PortR) (c : Cell) (tin tout : BitVec 64)
  /-- Four SYNC intervals pass with no usable SYNC, and ACQUIRE or LOCKED goes to HOLDOVER. (R239) -/
  | syncTimeout
  /-- At the root an offset from the grandmaster drives the discipline state machine. (R231) -/
  | gmOffset (domain : Byte) (offset : BitVec 72)
  /-- Loss of the grandmaster at the root moves LOCKED or ACQUIRE to HOLDOVER. (R238) -/
  | announceTimeout
  /-- A read of TM_TXIDn returns the head transmit stamp's ID and removes the entry. (R243) -/
  | txStampPop (src : Src) (e : Fin 16)
  /-- Setting ARM arms a claimed compare slot, or fires it at the next tick and sets LATE if its target has passed. (R244) -/
  | compareArm (src : Src) (k : Fin 32)
  /-- A compare slot reaches its target, writes its event or signals its owner, and rearms if periodic. (R244) -/
  | compareFire (k : Fin 32)
  /-- DISARM wins against the target, or counts late and disarms the next target of a periodic slot. (R245) -/
  | compareDisarm (src : Src) (k : Fin 32)
  /-- A filtered edge on a capture input is stamped into its FIFO, or dropped and counted if full. (R246) -/
  | captureEdge (c : Fin 4) (falling : Bool) (held : Byte)
  /-- A read of TM_CAPc_NS returns the head capture and removes it. (R246) -/
  | capturePop (src : Src) (c : Fin 4)
  /-- At each whole second a PPS output starts a pulse, unless LOCKONLY holds it. (R247) -/
  | ppsPulse (i : Fin 2)
  /-- WIDTH ms after its start the PPS pulse ends. (R247) -/
  | ppsWidthEnd (i : Fin 2)
  /-- A delivered scheduled ACT is checked and held in the weaver's timed queue, or refused or found queue full. (R251) -/
  | act (c : Cell)
  /-- A held action reaches T and drives its enabled lanes, with a time event if REPORT is set. (R253) -/
  | actFire (n : Fin 128)
  /-- A CANCEL removes held actions of its weaver with the same ACTID, or counts late. (R254) -/
  | cancel (c : Cell)
  /-- WVn_CTL.START starts the weaver at slot 0 on a common start tick, or sets STARTIGN if it is already started. (R269) -/
  | weaverStart (src : Src) (n : Fin 128)
  /-- WVn_CTL.STOP stops the weaver at the next tick, parks its lanes and drops its timed actions. (R271) -/
  | weaverStop (src : Src) (n : Fin 128)
  /-- BKm_START starts the masked weavers of a basket on one tick. (R269) -/
  | basketStart (src : Src) (m : Fin 16) (mask : Byte)
  /-- BKm_STOP stops the masked weavers of a basket on one tick. (R271) -/
  | basketStop (src : Src) (m : Fin 16) (mask : Byte)
  /-- BK_GCTL.GO starts the weavers in BK_GMASK on one tick. (R269) -/
  | globalGo (src : Src)
  /-- BK_GCTL.ARM arms a timed start of the mask, or starts at the next tick and sets LATE if the time has passed. (R274) -/
  | globalArm (src : Src)
  /-- BK_GCTL.DISARM wins against the start time, or counts late. (R274) -/
  | globalDisarm (src : Src)
  /-- BK_GCTL.STOP stops the weavers in the mask on one tick. (R271) -/
  | globalStop (src : Src)
  /-- The armed start time wins, and the masked weavers start. (R274) -/
  | globalStartTime
  /-- After a boot load, or at step 9 of a load that restarts weavers, the AUTOSTART weavers start as one global start. (R275) -/
  | autostart
  /-- BKm_CLKRST restarts the divider count of each named running or stalled weaver on one tick. (R276) -/
  | clockRestart (src : Src) (m : Fin 16) (mask : Byte)
  /-- BKm_FSET sets basket flags, which may pass waiting WFLG and SYNC instructions. (R288) -/
  | flagSet (src : Src) (m : Fin 16) (flags : BitVec 16)
  /-- Writing ones to BKm_FLAGS clears basket flags. (R288) -/
  | flagClear (src : Src) (m : Fin 16) (flags : BitVec 16)
  /-- BKm_IRQ raises basket interrupt lines, passing every WIRQ waiting on them. (R288) -/
  | irqRaise (src : Src) (m : Fin 16) (lines : BitVec 4)
  /-- A write of WVn_TXQ pushes a word with its tag into the backlog or queue, or drops it if both are full. (R266) -/
  | txPush (src : Src) (n : Fin 128) (data : Word)
  /-- A backlog word moves to the transmit queue when it has room. (R266) -/
  | backlogMove (n : Fin 128)
  /-- A read of WVn_RXD in poll mode returns and removes the head receive word. (R267) -/
  | rxPop (src : Src) (n : Fin 128)
  /-- The aggregator takes a receive word or stamp pair and makes it a weaver event when the event queue is not throttled. (R267) -/
  | weaverAggregatorDrain (n : Fin 128)
  /-- A field bank supply crosses its minimum, BK_VIO updates and a weaver event is written. (R260) -/
  | vioChange (present : BitVec 4)
  /-- HALT stops the weaver as STOP does and sets HALTED, with an event if HALTEV is set. (R292) -/
  | halt (n : Fin 128) (parityOk : Bool)
  /-- SHO shifts COUNT + 1 bits of SH out on the data lanes, with side and clock lanes, over its bit-times. (R286) -/
  | sho (n : Fin 128) (parityOk : Bool)
  /-- SHI clears SH and shifts COUNT + 1 bits in from the data lanes at the clock edges. (R286) -/
  | shi (n : Fin 128) (parityOk : Bool) (samples : List Byte)
  /-- WPIN waits for a level or edge on a lane, recording an edge for STAMP. (R288) -/
  | wpin (n : Fin 128) (parityOk : Bool) (levels : Byte)
  /-- The awaited lane condition is seen and WPIN passes. (R288) -/
  | wpinPass (n : Fin 128)
  /-- WFLG waits for a basket flag to take a value, clearing it on passing if asked. (R288) -/
  | wflg (n : Fin 128) (parityOk : Bool)
  /-- The flag takes the awaited value and WFLG passes. (R288) -/
  | wflgPass (m : Fin 16)
  /-- WIRQ waits for an interrupt line of its basket. (R288) -/
  | wirq (n : Fin 128) (parityOk : Bool)
  /-- The line is raised and every waiting WIRQ passes on one tick, clearing it if asked. (R288) -/
  | wirqPass (m : Fin 16)
  /-- WTIM holds lanes for N bit-times, or waits until local time reaches TR. (R289) -/
  | wtim (n : Fin 128) (parityOk : Bool)
  /-- Local time reaches TR, WTIM passes and with RST the divider restarts. (R289) -/
  | wtimPass (n : Fin 128)
  /-- DRV drives or floats each driving lane and holds for 1 + DELAY bit-times. (R287) -/
  | drv (n : Fin 128) (parityOk : Bool)
  /-- TAKE moves the head transmit word into a register and its tag into TG, or stalls on an empty queue. (R291) -/
  | take (n : Fin 128) (parityOk : Bool)
  /-- GIVE places a register with a tag into the receive queue, or stalls on a full queue. (R291) -/
  | give (n : Fin 128) (parityOk : Bool)
  /-- STAMP places the last recorded pin event time as two words in the receive queue. (R291) -/
  | stamp (n : Fin 128) (parityOk : Bool)
  /-- A word arrives or a place frees, and the stalled weaver resumes at the next boundary. (R270) -/
  | stallEnd (n : Fin 128)
  /-- CNT counts selected edges of a lane over a window or until CN equals SC. (R290) -/
  | cnt (n : Fin 128) (parityOk : Bool) (seen : List Edge)
  /-- The window ends, or CN reaches SC, and CNT passes. (R290) -/
  | cntPass (n : Fin 128) (seen : List Edge)
  /-- LOOP decrements its counter and branches while the result is not zero. (R292) -/
  | loop (n : Fin 128) (parityOk : Bool)
  /-- BR tests its condition at its issue tick and branches if it holds. (R284) -/
  | br (n : Fin 128) (parityOk : Bool) (levels : Byte)
  /-- The weaver SYNC sets its own flag and waits for its mask of basket flags. (R288) -/
  | syncInstruction (n : Fin 128) (parityOk : Bool)
  /-- Every flag of the mask is set, and the waiting SYNCs pass and clear their own flags on one tick. (R288) -/
  | syncInstructionPass (m : Fin 16)
  /-- SET writes an immediate into a register, the divider select, select lanes, output enables, an interrupt line or TG. (R285) -/
  | set (n : Fin 128) (parityOk : Bool)
  /-- Writing INIT 1 takes the controller off the bus at the end of the frame in progress. (R303) -/
  | canInit (src : Src) (k : Fin 8)
  /-- Writing INIT 0 starts bus integration. (R303) -/
  | canInitRelease (src : Src) (k : Fin 8)
  /-- After 11 recessive bits the controller joins the bus and INITACT reads 0. (R303) -/
  | canIntegrationDone (k : Fin 8)
  /-- Setting a bit of CFk_TXREQ requests a transmit buffer, or is refused for a bad combination. (R304) -/
  | canTxRequest (src : Src) (k : Fin 8) (mask : BitVec 3)
  /-- A write of CFk_TXCAN cancels a buffer if it wins against the commit point, or is held as late. (R307) -/
  | canTxCancel (src : Src) (k : Fin 8) (mask : BitVec 3)
  /-- At the SOF sample point the chosen buffer becomes ACTIVE for the attempt. (R305) -/
  | canCommit (k : Fin 8)
  /-- An attempt ends sent, lost or in error, and the buffer is set pending again or to its final status. (R306) -/
  | canAttemptEnd (k : Fin 8) (how : CanEnd) (loopDelay : Option Byte)
  /-- A buffer's launch time is reached and it becomes eligible. (R308) -/
  | canLaunchTime (k : Fin 8) (b : Fin 3)
  /-- The launch deadline wins over the commit, and the buffer ends EXPIRED. (R309) -/
  | canLaunchDeadline (k : Fin 8) (b : Fin 3)
  /-- A valid frame is filtered and written to the receive queue, rejected, or dropped as an overrun. (R310) -/
  | canFrameReceived (k : Fin 8) (f : CanFrame)
  /-- A write of CFk_RXACK.COUNT hands the oldest software entries back to hardware. (R311) -/
  | canRxAck (src : Src) (k : Fin 8) (count : BitVec 7)
  /-- A detected bus error updates TEC, REC and LEC, and the error state, with events at changes. (R314) -/
  | canError (k : Fin 8) (err : CanErr) (transmitter plusEight : Bool)
  /-- Writing RECOVER under directed policy starts bus-off recovery. (R315) -/
  | canRecover (src : Src) (k : Fin 8)
  /-- After 128 runs of 11 recessive bits, TEC and REC become 0 and the controller is error active. (R315) -/
  | canRecoveryDone (k : Fin 8)
  /-- USBS_VBUS above threshold for 10 ms with ENABLE set connects the pull-up. (R317) -/
  | usbVbusValid
  /-- USBS_VBUS falls, or ENABLE is cleared, and the pull-up is released as a reset with no host. (R317) -/
  | usbVbusLoss
  /-- S answers a USB 2.0 standard request, or STALLs an unsupported one. (R319) -/
  | usbStandardRequest (bmRequestType bRequest : Byte) (wValue wIndex wLength : BitVec 16)
  /-- GET_INFO returns identities, node number, image and MFW versions. (R320) -/
  | getInfo (wValue wIndex wLength : BitVec 16)
  /-- The CMD vendor request carries the eight command words to the mailbox. (R320) -/
  | cmd (wValue wIndex : BitVec 16) (data : List Byte)
  /-- CMD_RESULT returns the result slot of the last command through S. (R320) -/
  | cmdResult (wValue wIndex wLength : BitVec 16)
  /-- FW_BLOCK carries one firmware block, CRC-checked at the end of its data stage. (R320) -/
  | fwBlock (wValue wIndex : BitVec 16) (data : List Byte)
  /-- FW_STATUS returns the staging state. (R320) -/
  | fwStatus (wValue wIndex wLength : BitVec 16)
  /-- The status-stage ACK, or the next valid token, completes a CMD or FW_BLOCK, which is then numbered and applied. (R321) -/
  | controlTransferComplete (ok : Bool)
  /-- A bulk READ message reads local or remote bytes and is answered in order. (R323) -/
  | bulkRead (flags : Byte) (count : BitVec 16) (tag : Word) (addr : BitVec 64) (parityBad : Bool)
  /-- A bulk WRITE message writes local or remote bytes and is answered in order. (R323) -/
  | bulkWrite (flags : Byte) (count : BitVec 16) (tag : Word) (addr : BitVec 64) (data : List Byte)
  /-- A bulk TALLY message returns tally entries from a sequence number. (R322) -/
  | bulkTally (flags : Byte) (count : BitVec 16) (tag : Word) (first : BitVec 64)
  /-- A bulk CONSOLE message carries text to the MC0 console. (R322) -/
  | bulkConsole (flags : Byte) (count : BitVec 16) (tag : Word) (text : List Byte)
  /-- A pending notice is sent once on the interrupt endpoint. (R324) -/
  | usbNotice
  /-- An SOF on S records the frame number, microframe index and local tick. (R325) -/
  | usbSof (frame : BitVec 11)
  /-- After 3 ms of bus idle S enters suspend. (R326) -/
  | usbSuspend
  /-- Host resume signalling wins against the device wake and the bus resumes. (R328) -/
  | usbHostResume
  /-- An alarm or urgent tally entry during suspend is latched in US_WAKE.PEND. (R327) -/
  | usbWakeSource
  /-- With RWEN set, the device's wake wins on a J line and drives K for 2 ms. (R328) -/
  | usbRemoteWake
  /-- A bus reset ends the control transfer in progress, discarding it if the reset wins, and clears queues and RWEN. (R329) -/
  | usbBusReset (highSpeed : Bool) (inFlight : Option Byte)
  /-- With ENABLE and POWER set the hub powers a field port, waits, debounces a connect and resets it. (R333) -/
  | fieldPower (n : Fin 4) (present : Bool)
  /-- A device connects to a field port, and MC1 enumerates it and chooses its driver. (R334) -/
  | fieldConnect (n : Fin 4) (d : FieldDevice)
  /-- Fn_OC_N low for 2 ms cuts port power, disables the port and writes a USB event. (R333) -/
  | fieldOvercurrent (n : Fin 4)
  /-- Under autonomous policy the port is powered again 1 s after an over-current, up to RETRIES times. (R333) -/
  | fieldPowerRetry (n : Fin 4)
  /-- Bytes from a field device join the current code, which ends at a terminator, report end or 250 bytes. (R335) -/
  | fieldData (n : Fin 4) (data : List Byte) (reportEnd : Bool)
  /-- GAP ms without a new byte ends a code, which becomes USB events. (R335) -/
  | codeGapTimeout (n : Fin 4)
  /-- A write of US_FPn_LINE makes MC1 send SET_LINE_CODING to a CDC device. (R334) -/
  | lineCodingWrite (src : Src) (n : Fin 4) (baud : BitVec 24) (format : BitVec 2)
  /-- Writing GO sends LEN bytes on the device's bulk OUT endpoint. (R336) -/
  | fieldTxGo (src : Src) (n : Fin 4) (len : BitVec 7)
  /-- The device acknowledges the last packet or the transfer fails, and BUSY clears with TXERR as needed. (R336) -/
  | fieldTxDone (n : Fin 4) (ok : Bool)
  /-- A write of EQ_PUSH3 admits a pushed entry, or discards it above 4,032 entries. (R343) -/
  | eventPush (src : Src) (w3 : Word)
  /-- A read of EQ_POP0 removes the first local entry and latches its words, or returns zeros. (R344) -/
  | eventPop (src : Src) (parityOk : Bool)
  /-- The ring forwarder packs ready entries for one destination into an event cell. (R346) -/
  | eventCellSend (bad : List Nat)
  /-- A received event cell is delivered to the management unit. (R346) -/
  | eventCell (c : Cell)
  /-- A write to EQ_MARKS sets the marks and re-evaluates EQ_HWM_N and EQ_NE_N. (R348) -/
  | eqMarksWrite (src : Src) (hwm lwm : BitVec 13)
  /-- Both seat pins asserted move the inlet from OFF to SEAT. (R356) -/
  | seatAssert (longRelease : Bool)
  /-- Seat pins held 50 ms with VIN between UV and OV move the inlet to RAMP. (R356) -/
  | seatQualified
  /-- Release of a seat pin turns the FET off and moves the inlet to OFF. (R356) -/
  | seatRelease (a b : Bool)
  /-- VIN above OV turns the FET off and moves the inlet to SEAT with cause OV. (R356) -/
  | inletOv
  /-- VIN or VOUT below UV moves the inlet to SEAT with cause UV. (R356) -/
  | inletUv
  /-- VOUT reaches 95 % of VIN with the gate enhanced and the inlet enters QUAL. (R356) -/
  | rampDone
  /-- The ramp does not end in time and the inlet enters FAULT with cause RAMP. (R356) -/
  | rampTimeout
  /-- Demand exceeds a limiter, the inlet enters limit and the fault timer starts. (R355) -/
  | inletLimitEntry (power : Bool)
  /-- After 100 µs out of limit the fault timer returns to idle. (R355) -/
  | faultTimerIdle
  /-- The fault timer reaches its budget, the FET turns off and the inlet enters FAULT with cause TIMER. (R355) -/
  | faultTimerExpiry
  /-- A current of twice ILIM turns the FET off within 1 µs with cause FAST. (R354) -/
  | fastTrip
  /-- The 1 ms qualification wins, INLET_PG asserts and the inlet enters ON. (R358) -/
  | qualTimer
  /-- VIN falls below VOUT − 0.2 V and the inlet turns the FET off and enters HOLDUP. (R356) -/
  | holdupEntry
  /-- VIN returns to VOUT + 0.2 V and the inlet returns to ON. (R356) -/
  | holdupExit
  /-- Under retry policy the inlet goes to RAMP 1 s after a fault while retries are left. (R359) -/
  | inletRetry
  /-- After 10 s in ON, RETRYN returns to 0. (R356) -/
  | inletRetryReset
  /-- VIN below TH asserts PFW_N, sheds branches and starts the final checkpoint. (R361) -/
  | pfwAssert
  /-- VIN above TH + 0.5 V for 10 ms releases PFW_N and may restore shed branches. (R360) -/
  | pfwRelease
  /-- The final checkpoint and tally flush complete and a power event is written. (R361) -/
  | finalCheckpointDone (ok : Bool)
  /-- Each 20 µs ADC sample updates each branch's heat and trips it when heat reaches 1. (R367) -/
  | branchSample (adc : List (BitVec 16))
  /-- A branch current reaching IINST turns the gate off within 2 µs with cause INST. (R368) -/
  | branchInstantTrip (b : Fin 8) (ma : BitVec 16)
  /-- RDELAY after a trip with heat at or below 0.5 the branch goes on again. (R369) -/
  | branchRetry (b : Fin 8)
  /-- After 60 s on without a trip, RETRYN returns to 0. (R369) -/
  | branchRetryReset (b : Fin 8)
  /-- An off branch carrying over 2 % of IINST for 10 ms sets STUCK with a power event. (R370) -/
  | branchStuck (b : Fin 8) (ma : BitVec 16)
  /-- A write of PW_Bb_CTL.ON turns a claimed branch with a valid curve on or off. (R365) -/
  | branchOn (src : Src) (b : Fin 8) (on : Bool)
  /-- LOADCURVE commits the shadow curve if its points are ordered and in range. (R366) -/
  | loadcurve (src : Src) (b : Fin 8)
  /-- A received TAKE freezes the giver's ON fields and makes it send OFFER. (R372) -/
  | mateTake (f : MateFrame)
  /-- OFFER wins the hand race and the taker drives its gates to the offered states. (R372) -/
  | offer (f : MateFrame)
  /-- The 10 ms offer timer wins and the taker drives its own restored ON values. (R372) -/
  | offerTimeout
  /-- A BRANCH message during handover makes the taker follow the change within 50 µs. (R372) -/
  | branchMessage (f : MateFrame)
  /-- A ROLE change hands branch ownership to the taker and floats the giver's gates. (R372) -/
  | roleChange
  /-- VDD_AON above 2.90 V for 2 ms releases the AON domain from reset. (R378) -/
  | aonPowerOn (slot : Bool) (card : Option Card)
  /-- VDD_AON below 2.70 V resets the whole hub and releases every enable. (R378) -/
  | aonPowerFail
  /-- A core-start request with the inlet in ON starts the rail sequence. (R379) -/
  | coreStart
  /-- A group's power-good wins against SEQTO and the sequence releases the next enable. (R380) -/
  | railPg (g : Fin 4)
  /-- SEQTO wins, the failure is recorded and the core powers down from that group. (R380) -/
  | seqTimeout
  /-- 1 s after a sequencer failure the sequencer tries again, up to 3 times. (R380) -/
  | seqRetry
  /-- Every PLL locks and the core reset is released, starting the tick and the AVS loop. (R379) -/
  | pllsLocked
  /-- A PG falling while powered is a core-stop request with cause PGLOSS. (R380) -/
  | railPgLoss
  /-- A stop cause asserts core reset and disables the rails in reverse order. (R381) -/
  | coreStop
  /-- Loss of lock of a PLL sets its LOST bit, raises an alarm and silences its edge. (R384) -/
  | pllLoss (pll : Fin 6)
  /-- A PLL relocks and its edge sends again. (R384) -/
  | pllRelock (pll : Fin 6)
  /-- REFCLK absent for 1 µs sets REFLOSS and holds the core in reset. (R385) -/
  | refclkLoss
  /-- REFCLK present for 1 ms releases the core reset. (R385) -/
  | refclkReturn
  /-- RESET_N low for 1 µs resets the core, which restarts after release. (R388) -/
  | resetN
  /-- A write of the key to NC_RSTREQ with both rights resets the hub as a warm reset. (R389) -/
  | ringReset (src : Src) (key : Word)
  /-- NC_URST.CAN resets the named CAN FD controllers. (R390) -/
  | canReset (src : Src) (mask : Byte)
  /-- NC_URST.FIELDHUB resets the field hub and host engine. (R390) -/
  | fieldhubReset (src : Src)
  /-- NC_URST.SVC resets service port S. (R390) -/
  | svcReset (src : Src)
  /-- NC_URST.BRIDGE resets the bridge and discards pending delayed reads. (R390) -/
  | bridgeReset (src : Src)
  /-- NC_URST.TIME restarts compares and captures. (R390) -/
  | timeReset (src : Src)
  /-- NC_URST.UPLINK resets U. (R390) -/
  | uplinkReset (src : Src)
  /-- NC_WRST resets the 8 weavers of each named basket. (R390) -/
  | basketReset (src : Src) (mask : BitVec 16)
  /-- NC_ERST resets each named edge port and flushes its queued frames. (R390) -/
  | edgeReset (src : Src) (mask : BitVec 16)
  /-- A per-unit reset ends and held accesses to the unit are served. (R391) -/
  | unitResetDone
  /-- Every 2,048 ticks the pace monitors are converted to sc estimates. (R392) -/
  | paceWindow (sc : BitVec 13) (slowest : Fin 8)
  /-- Every 50 µs the AVS loop adjusts VDD_CORE towards the mode's target. (R395) -/
  | avsLoop (ok : Bool)
  /-- Every 100 ms after an AVSBus fault the hub tries again and clears AVSFAULT on success. (R394) -/
  | avsRetry (ok : Bool)
  /-- A write of NC_MODE.SPEED starts a change to a slower or faster mode. (R396) -/
  | speedModeWrite (src : Src) (mode : BitVec 2)
  /-- At 105 °C for 1 s in Tight the hub falls back to Level and raises an alarm. (R397) -/
  | thermalFallback (tj : BitVec 11)
  /-- At 95 °C or below for 60 s the hub returns to Tight. (R397) -/
  | thermalReturn (tj : BitVec 11)
  /-- After 20 ms listening without a HEARTBEAT, the hub requests the store. (R404) -/
  | mateListenEnd
  /-- The ownership lines hold for 10 µs, and the hub drives GNT low and becomes owner. (R401) -/
  | storeAcquire
  /-- A change on CK_OWN_REQ_I or CK_OWN_GNT_I starts or breaks an acquisition window. (R401) -/
  | ownershipLines (reqI gntI : Bool)
  /-- MC0 refreshes the AON core watchdog. (R407) -/
  | watchdogRefresh
  /-- The core watchdog expires and the hub releases the store, or warm resets if alone. (R402) -/
  | watchdogExpiry
  /-- Every 1 ms the owner's AON sends HEARTBEAT. (R407) -/
  | heartbeatSend
  /-- Every 1 ms a non-owner's AON sends BEACON. (R407) -/
  | beaconSend
  /-- A HEARTBEAT wins the heartbeat race and restarts the standby's timer. (R408) -/
  | heartbeat (f : MateFrame)
  /-- The heartbeat timer wins and the takeover conditions are checked. (R408) -/
  | heartbeatTimeout
  /-- A BEACON refreshes the mate's state in MT_MATE and MATEPRES. (R407) -/
  | beacon (f : MateFrame)
  /-- 3 ms without mate messages clears MATEPRES with a pair event. (R407) -/
  | mateTimeout
  /-- A received SURRENDER allows a takeover once the store is released. (R416) -/
  | surrender (f : MateFrame)
  /-- A LEND makes the owner finish its write, defer checkpoints, release CKB and send LENT. (R415) -/
  | lend (f : MateFrame)
  /-- A LENT opens the non-owner's read window. (R415) -/
  | lent (f : MateFrame)
  /-- BACK, or the window end, returns CKB to the owner, which takes its deferred checkpoints. (R415) -/
  | back (f : MateFrame)
  /-- The lent window runs out and the non-owner releases CKB. (R415) -/
  | lendWindowEnd
  /-- An INLETCLR message from the mate clears a latched inlet fault. (R359) -/
  | inletclrMessage (f : MateFrame)
  /-- Every CKINT ms the active captures and writes a differential checkpoint. (R411) -/
  | checkpointIncremental
  /-- Every FULLPER × 100 ms the active captures and writes a full checkpoint to the next slot. (R411) -/
  | checkpointFull
  /-- A checkpoint write ends and is read back, with WRFAIL and an alarm on failure. (R414) -/
  | checkpointWritten (ok : Bool)
  /-- A tally entry is written to the store within 2 ms, or the failure is counted with an alarm. (R440) -/
  | tallyStoreWrite (ok : Bool)
  /-- A standby with the store released starts its core, restores the checkpoint, replays and asserts ROLE. (R417) -/
  | takeover (store : Option StoreSt) (hand : TakeHand)
  /-- Every 1 ms while blocked the standby checks whether the store has been released. (R416) -/
  | storeCheck
  /-- Every PERIOD minutes the standby powers its core, tests, adopts images and powers down. (R421) -/
  | provingRun (store : Option StoreSt) (fail : Option (BitVec 6))
  /-- A newly inserted standby runs a verifying run and stays standby. (R423) -/
  | verifyingRun (store : Option StoreSt) (fail : Option (BitVec 6))
  /-- NOP is entered in the tally and does nothing. (R436) -/
  | nop (src : Src) (tag : BitVec 16) (x : Args)
  /-- MARK makes a tally entry carrying a marker, urgent if asked. (R436) -/
  | mark (src : Src) (tag : BitVec 16) (x : Args)
  /-- REGWRITE writes a masked value to a register as a journalled command. (R436) -/
  | regwrite (src : Src) (tag : BitVec 16) (x : Args)
  /-- WARMRESET resets the hub keeping tick, time, membership and tally. (R388) -/
  | warmreset (src : Src) (tag : BitVec 16) (x : Args)
  /-- The RELEASE command makes the hub unassigned and ends its kept requests. (R436) -/
  | release (src : Src) (tag : BitVec 16) (x : Args)
  /-- YIELD checkpoints, sends SURRENDER and releases the store so that the READY mate takes over. (R424) -/
  | yield (src : Src) (tag : BitVec 16) (x : Args)
  /-- The INLETCLR command sends INLETCLR to the mate. (R436) -/
  | inletclr (src : Src) (tag : BitVec 16) (x : Args)
  /-- The CHECKPOINT command takes a full checkpoint now. (R436) -/
  | checkpoint (src : Src) (tag : BitVec 16) (x : Args)
  /-- REVOKEKEY blows a key slot's revoked fuse unless it is the last usable slot. (R58) -/
  | revokekey (src : Src) (tag : BitVec 16) (x : Args)
  /-- DEBUGUNLOCK unlocks debug for ARG1 minutes, unless fused. (R431) -/
  | debugunlock (src : Src) (tag : BitVec 16) (x : Args)
  /-- DEBUGLOCK locks debug again. (R431) -/
  | debuglock (src : Src) (tag : BitVec 16) (x : Args)
  /-- The unlock time runs out and debug locks, with a management event. (R431) -/
  | debugTimeout
  /-- TLFETCH copies tally entries into the fetch buffer. (R442) -/
  | tlfetch (src : Src) (tag : BitVec 16) (x : Args)
  /-- FWBEGIN erases staging and opens a firmware session. (R456) -/
  | fwbegin (src : Src) (tag : BitVec 16) (x : Args)
  /-- FWBLOCK checks and stages the block in FW_BLKBUF. (R458) -/
  | fwblock (src : Src) (tag : BitVec 16) (x : Args) (ok : Bool)
  /-- FWVERIFY checks that the staged image is whole and valid. (R459) -/
  | fwverify (src : Src) (tag : BitVec 16) (x : Args)
  /-- ACTIVATE checks compatibility, writes the image to its slot, updates the boot record and applies its pause or load. (R461) -/
  | activate (src : Src) (tag : BitVec 16) (x : Args) (ok : Bool)
  /-- FWABORT closes the session and unverifies staging. (R456) -/
  | fwabort (src : Src) (tag : BitVec 16) (x : Args)
  /-- A long command ends and its completion entry is written and its result slot updated. (R434) -/
  | commandCompletion
  /-- MC1's 10 ms watchdog expires and MC0 restarts MC1 and resets the field hub. (R429) -/
  | mc1Watchdog
  /-- A core SRAM parity failure restarts MC1, or acts as an MC0 watchdog expiry. (R429) -/
  | sramParity (mc1 : Bool)
  /-- A write of NC_FTXD3 submits the frame in NC_FTXBUF to an edge port, with launch or stamp if asked. (R448) -/
  | frameSubmit (src : Src) (tol : Word)
  /-- A read of TL_HEADL returns the newest sequence and latches TL_HEADH, TL_TAILL and TL_TAILH. (R450) -/
  | tallyHeadRead (src : Src)
  /-- After core reset release the boot ROM verifies and starts MFW, then SDM, UDS and PPT, or enters recovery. (R453) -/
  | mfwBoot
  /-- 60 s after an MFW activation the new slot leaves trial. (R463) -/
  | trialEnd
  /-- After a link has been UP for HOLD + 1 ms, SDM activation retrains the next link. (R462) -/
  | sdmNextLink
  /-- 100 ms after a UDS activation S reconnects with the new descriptors. (R462) -/
  | udsReconnect
  /-- After activation or acquisition the active writes a running image to the shelf and updates the directory. (R464) -/
  | shelfWrite (c : Fin 5) (ok : Bool)
  /-- The load's demand falls below both limits, the inlet leaves limit, INLIMIT and PLIMIT clear, and the 100 µs count towards an idle fault timer starts. (R355) -/
  | inletLimitExit (current power : Bool)
  /-- A device is unplugged from a powered field port, which leaves the connected or configured state and loses its driver. (R333) -/
  | fieldDisconnect (n : Fin 4)
  /-- The TEST_N strap goes low, holding the core in reset with every output high-impedance and recording no reset cause, or goes high again. (R477) -/
  | testN (low : Bool)
  /-- An IEEE 1149.1 instruction is shifted into the test access port, and BYPASS, IDCODE, SAMPLE/PRELOAD, EXTEST, or a debug instruction gated by NC_DEBUG.UNLOCKED and the JTAG-lock fuse, takes effect. (R491) -/
  | jtagInstruction (i : JtagInstr)
  /-- At the first whole second of local time after a boot load, list 0 becomes active if its preset GLEN is not 0. (R218) -/
  | gateListBootStart
  deriving DecidableEq, Repr

end Sys2Proof
end

