-- ==== Sys2Proof/Decode.lean ====
section
/-! DEFINITION. The command that a word spells. No row of the opcode table gives bits: the hub takes commands from outside, none as a
word, so no word spells one. -/

namespace Sys2Proof

/-- No row has bits, so there is no command to answer. -/
def decodeTableWord (_nbits _w : Nat) : Option Instr := none

end Sys2Proof
end

