-- ==== Sys2Proof/Config.lean ====
section
/-! DEFINITION. What the spec leaves open. Each is a constant with no body, so that nothing proved of the hub can rest on a value of it. -/

namespace Sys2Proof.Config

open Sys2Proof.Machine

/-- A free value of 32 bits: what the on-die entropy source gives (R192, R203), what the servo sets TM_RATE to (R238), what memory whose
contents the spec does not give reads as (R430), the block of overflow memory that a cell goes to (R188). The step applies it to a counter of
State, so each use is a value of its own (assumption 9). -/
opaque freeWord : Nat → Word

/-- A free yes or no: the level sampled on a contended pin, the side an open choice falls on (assumption 9). -/
opaque freeBit : Nat → Bool

/-- A byte of overflow memory that the hub has not written since power came (R28, R188). -/
opaque overflowByte : Nat → Byte

/-- idVendor (0), idProduct (1) and bcdDevice (2) of the UDS component of a version: the layout of that component is not given (R318). -/
opaque udsValue : Nat → Nat → BitVec 16

end Sys2Proof.Config
end

