-- ==== Sys2Proof/Machine/Bits.lean ====
section
/-! DEFINITION. Bit fields, byte orders and the check codes of the spec. -/

namespace Sys2Proof.Machine

/-- Bits lo + w - 1 to lo of n. -/
def bitsOf (n lo w : Nat) : Nat := n / 2 ^ lo % 2 ^ w

/-- n with bits lo + w - 1 to lo replaced by the low w bits of v. -/
def setBits (n lo w v : Nat) : Nat :=
  n - bitsOf n lo w * 2 ^ lo + v % 2 ^ w * 2 ^ lo

/-- 1 for true, 0 for false. -/
def b2n (b : Bool) : Nat := if b then 1 else 0

/-- Bytes of a number, most significant first (R87). -/
def beBytes (n : Nat) : Nat → List Byte
  | 0 => []
  | k + 1 => BitVec.ofNat 8 (n / 256 ^ k) :: beBytes n k

/-- Bytes of a number, least significant first. -/
def leBytes (n : Nat) : Nat → List Byte
  | 0 => []
  | k + 1 => BitVec.ofNat 8 n :: leBytes (n / 256) k

/-- The number that bytes spell, most significant first. -/
def beNat (bs : List Byte) : Nat := bs.foldl (fun a b => a * 256 + b.toNat) 0

/-- The number that bytes spell, least significant first. -/
def leNat : List Byte → Nat
  | [] => 0
  | b :: bs => b.toNat + 256 * leNat bs

/-- n bytes of a list from an offset; fewer where the list ends. -/
def slice (bs : List Byte) (off n : Nat) : List Byte := (bs.drop off).take n

/-- One field of a payload, most significant byte first. -/
def beAt (bs : List Byte) (off n : Nat) : Nat := beNat (slice bs off n)

/-- One field of a byte string, least significant byte first. -/
def leAt (bs : List Byte) (off n : Nat) : Nat := leNat (slice bs off n)

/-- One step of the CRC-16 of R91: polynomial 0x1021, no reflection. -/
def crc16Bit (c : Nat) : Nat := if c / 32768 % 2 = 1 then (c * 2 % 65536) ^^^ 0x1021 else c * 2 % 65536

/-- The CRC-16 register after one more byte. -/
def crc16Byte (c : Nat) (b : Byte) : Nat :=
  crc16Bit (crc16Bit (crc16Bit (crc16Bit (crc16Bit (crc16Bit (crc16Bit (crc16Bit (c ^^^ (b.toNat * 256)))))))))

/-- HEC of R91: CRC-16, polynomial 0x1021, initial value 0xFFFF, no final XOR. -/
def crc16 (bs : List Byte) : BitVec 16 := BitVec.ofNat 16 (bs.foldl crc16Byte 0xFFFF)

/-- One step of CRC-32C, reflected form of polynomial 0x1EDC_6F41. -/
def crc32cBit (c : Nat) : Nat := if c % 2 = 1 then (c / 2) ^^^ 0x82F63B78 else c / 2

/-- The CRC-32C register after one more byte. -/
def crc32cByte (c : Nat) (b : Byte) : Nat :=
  crc32cBit (crc32cBit (crc32cBit (crc32cBit (crc32cBit (crc32cBit (crc32cBit (crc32cBit (c ^^^ b.toNat))))))))

/-- CRC-32C of R92: reflected in and out, initial value and final XOR 0xFFFF_FFFF. -/
def crc32c (bs : List Byte) : Word := BitVec.ofNat 32 (bs.foldl crc32cByte 0xFFFFFFFF ^^^ 0xFFFFFFFF)

/-- A signed reading of the low w bits of n. -/
def toSigned (w n : Nat) : Int := (BitVec.ofNat w n).toInt

/-- The low w bits of an integer, as a number. -/
def ofSigned (w : Nat) (i : Int) : Nat := (BitVec.ofInt w i).toNat

/-- Absolute difference. -/
def absDiff (a b : Nat) : Nat := (a - b) + (b - a)

/-- The list without the first element that satisfies a test. -/
def dropFirst {α : Type} (f : α → Bool) : List α → List α
  | [] => []
  | a :: as => if f a then as else a :: dropFirst f as

/-- The number of ones among the low w bits of n. -/
def popCount (n : Nat) : Nat → Nat
  | 0 => 0
  | w + 1 => n / 2 ^ w % 2 + popCount n w

end Sys2Proof.Machine
end

