-- ==== Sys2Proof/Machine/RegNames.lean ====
section
/-! DEFINITION. The names of the hub's registers and, for each field, where it lies (the register tables of the spec's chapters). -/

namespace Sys2Proof.Machine

/-- The registers of the classes 0x00 to 0x0D, each named as its chapter names it. -/
inductive RegId where
  | NC_SPSTAT | NC_PACE | NC_AVS | NC_TEMP | NC_PLLSTAT | NC_RSTREQ | NC_URST | NC_WRST | NC_ERST | NC_DEVID 
  | NC_MODE | NC_CMDi | NC_CMDSTAT | NC_CMDSEQL | NC_CMDSEQH | NC_CMDTAG | NC_CMDQ | NC_CMDREF | NC_ALARM 
  | NC_ALMCOND | NC_DEBUG | NC_FTXD0 | NC_FTXD1 | NC_FTXD2 | NC_FTXD3 | NC_FTXSTAT | NC_FTXBUFi
  | RGp_CTL | RGp_LSTAT | RGp_TIMERS | RGp_PEERL | RGp_PEERH | RGp_PEERADR | RGp_QUOTAi | RGp_TRANSIT 
  | RGp_RXCELL | RGp_TXCELL | RGp_INSERT | RGp_GAPINS | RGp_HECERR | RGp_CRCERR | RGp_RXSTOMP | RGp_BADCELL 
  | RGp_HOPDROP | RGp_NODEST | RGp_TDROP | RGp_TOVER | RGp_FAULTS | RGp_LATE | RGp_FECCOR | RGp_FECUNC 
  | RGp_OPT0 | RGp_OPT1 | RGp_OPT2 | RGp_I2C | RGp_I2CDAT | RG_ROUND | RG_HOPLIM | RG_SPREAD | RG_SELF 
  | RG_IDL | RG_IDH | RG_PIDL | RG_PIDH | RG_POS | RG_ROLE | RG_ENUM | RG_WRAP | RG_XCFG | RG_PSEL 
  | RG_PSTAT | RG_PSEQ | RG_RPTCNT | RG_RPTi | RG_RPT5 | RG_XRETRY | RG_XFAIL | RG_XLATE | RG_XDUP 
  | RG_XOOSEQ | RG_NOSYNC | RG_PEERFULL | RG_PWLOST | RG_NOROUTE | RG_WRAPS | RG_WRAPLOST | RG_ENUMLOST 
  | RG_ENUMLATE | RG_ASSIGNREF | RG_DUPNODE | RG_RPTLOST | RG_POSLATE | RG_RTn
  | TM_SEC | TM_NS | TM_FRAC | TM_SEC48H | TM_SEC48L | TM_TICK | TM_TICKNOW | TM_RATE | TM_SETH | TM_SETS 
  | TM_SETNS | TM_CTL | TM_DCFG | TM_DTHR | TM_DSTAT | TM_DOFF | TM_PDLYp | TM_ASYMp | TM_LTOL | TM_LTOCC 
  | TM_PDSTAT | TM_LATE | TM_CLATE | TM_SYNCBAD | TM_PDBAD | TM_STEPS | TM_CAPLOST | TM_TXTSLOST | TM_LTFULL 
  | TM_SAREF | TM_SAFULL | TM_SALATE | TM_SADISC | TM_SACANCEL | TM_CMPk_S | TM_CMPk_NS | TM_CMPk_PER 
  | TM_CMPk_CFG | TM_CAPc_CFG | TM_CAPc_S | TM_CAPc_NS | TM_CAPc_STAT | TM_PPSi_CFG | TM_EDLYn | TM_TXSn 
  | TM_TXNSn | TM_TXIDn | TM_LPOLi | TM_SAn
  | SW_HASHCTL | SW_HASHRUN | SW_HASHSW | SW_SEEDh_s | SW_FLOWGAP | SW_SHMAX | SW_AGE | SW_SHOCC | SW_OVCFG 
  | SW_OVOCC | SW_FDBOCC | SW_RINGPCP | SW_MACL | SW_MACH | SW_OVDROP | SW_OVPAR | SW_MCDROP | SW_LRNFAIL 
  | SW_FLOWFORCE | SW_FDBMACL | SW_FDBMACH | SW_FDBDST | SW_FDBCMD | SW_GRPg | SW_VLANv | SW_TAGPARn 
  | SW_STOMPn | SW_POISONn | SW_QDROPn | SW_CTn | SW_FLUSHn | SW_LINKLOSTn | SW_LATEn | SW_FILTn | SW_RXFCSn 
  | SW_RXLENn | SW_RINGBIGn | SW_PAUSERXn | SW_OCCn | SW_PCFGn | SW_PSTATn | SW_PVIDn | SW_PCPMAPn 
  | SW_HOLDn | SW_FCn | SW_GCTLn | SW_GSTATn | SW_GSWAPSn | SW_GSWAPNSn | SW_GLENn_l | SW_GCYCn 
  | SW_GWMAXn_q | SW_LSTATn | SW_GLONGn | SW_GOVRn | SW_LEXPn | SW_LLATEn | SW_GLATEn | SW_QCFGn_q 
  | SW_QRATEn_q | SW_QSTATn_q | SW_QELIGn_q | SW_GSn_l_e | SW_GIn_l_e
  | WVn_CTL | WVn_STAT | WVn_DIV0 | WVn_DIV1 | WVn_SHIFT | WVn_SC | WVn_CN | WVn_LOOP | WVn_TRS | WVn_TRNS 
  | WVn_SHCNT | WVn_PROGs | WVn_LANEl | WVn_QSTAT | WVn_QCFG | WVn_TXTAG | WVn_TXQ | WVn_RXT | WVn_RXD 
  | WVn_STALLS | WVn_TXDROP | WVn_TQDROP | BKm_START | BKm_STOP | BKm_CLKRST | BKm_FLAGS | BKm_FSET 
  | BKm_IRQ | BKm_STAT | BK_GMASKi | BK_GCTL | BK_GTS | BK_GTNS | BK_LATE | BK_VIO | BK_PINi | WVn_WSRC
  | CFk_MODE | CFk_NBT | CFk_DBT | CFk_TDC | CFk_ERR | CFk_TXREQ | CFk_TXCAN | CFk_RXSTAT | CFk_RXACK 
  | CFk_TXOK | CFk_RXOK | CFk_RXOVR | CFk_RXREJ | CFk_ARBLOST | CFk_LATE | CFk_LEXP | CFk_BUSOFF | CFk_PXE 
  | CFk_TBb_ID | CFk_TBb_CTL | CFk_TBb_STAT | CFk_TBb_TS | CFk_TBb_LTS | CFk_TBb_LTNS | CFk_TBb_LTOL 
  | CFk_TBb_DATAi | CFk_FIDf | CFk_FMASKf | CFk_FCFGf
  | US_SCTL | US_SSTAT | US_SOF | US_SOFTICK | US_WAKE | US_CSTAT | US_RESETS | US_RSTABORT | US_SUSPENDS 
  | US_WAKES | US_BULKDISC | US_NOTELOST | US_FPn_CTL | US_FPn_CFG | US_FPn_STAT | US_FPn_ID | US_FPn_LINE 
  | US_FPn_TXCTL | US_FPn_TXDi | US_FPn_CODES | US_FPn_TRUNC | US_FPn_OC | US_FPn_XERR
  | BX_LCFG | BX_DRTIME | BX_ISTAT | BX_LATE | BX_DRDISC | BX_DRFULL | BX_PWFULL | BX_PERRLOST | BX_RETRIES 
  | BX_WAITOUT | BX_LXBERR | BX_WINn_CFG | BX_WINn_BASE | BX_WINn_STAT | BX_FARn_BASEL | BX_FARn_BASEH 
  | BX_FARn_CFG | BX_DRd_STAT | BX_PERRe_ADDR | BX_PERRe_SRC | BX_PERRe_INFO | BX_PERRe_TSEC | BX_PERRe_TNS 
  | BX_IEN
  | EQ_PUSHi | EQ_POP0 | EQ_POPj | EQ_STAT | EQ_MARKS | EQ_PEAK | EQ_LOST | EQ_POISON | EQ_PUSHREF 
  | EQ_MERGED | EQ_RINGCELL | EQ_NORING | EQ_LOSTSRC | EQ_RTs
  | PW_INSTAT | PW_INCFG | PW_INTIM | PW_INPWR | PW_INVTH | PW_PFWCFG | PW_PFWSTAT | PW_ADCc | PW_LATE 
  | PW_INFAULTS | PW_LIMITS | PW_PFWS | PW_OWN | PW_Bb_CTL | PW_Bb_STAT | PW_Bb_LIM | PW_Bb_RSENSE 
  | PW_Bb_TRIPS | PW_Bb_CURVEk | PW_SEQ | PW_SEQCFG | PW_RSTCAUSE
  | MT_CFG | MT_PROVE | MT_STAT | MT_MATE | MT_CKSTAT | MT_CKSEQ | MT_PRSTAT | MT_TKTIME | MT_LATE 
  | MT_LINEERR | MT_TAKEOVERS | MT_BLOCKED | MT_CKFAIL | MT_REPSKIP
  | TL_HEADL | TL_HEADH | TL_TAILL | TL_TAILH | TL_FETCH | TL_FETCHL | TL_FETCHH | TL_STORE | TL_LOST 
  | TL_FBi_w | TL_WINk_w
  | FW_STAT | FW_SESSION | FW_TOTAL | FW_PROG | FW_ERR | FW_ERRVAL | FW_RUNc | FW_SHELF | FW_BLKBUFi
  | WE_STATUS | WE_ERRSPL | WE_ERROFF | WE_ERRRES | WE_ERROWN | WE_QUIET | WE_QSTAT | WE_LATE | WE_LOCKREF 
  | WE_CLAIMREF | WE_MGRREF | WE_REFADR | WE_REFSRC | WE_IMGVER | WE_IMGID | WE_LOADS | WE_KEYSLOT
  deriving DecidableEq, Repr

/-- One field of one register: the key of the register (its class times 2^20 plus its offset), its lowest bit, its width. -/
structure Fld where
  key : Nat
  lo : Nat
  width : Nat
  deriving DecidableEq, Repr

end Sys2Proof.Machine

namespace Sys2Proof.Machine.F

def WE_STATUS_STAGE : Fld := ⟨0xd00000, 0, 3⟩
def WE_STATUS_CODE : Fld := ⟨0xd00000, 8, 4⟩
def WE_STATUS_BARE : Fld := ⟨0xd00000, 16, 1⟩
def WE_STATUS_SLOT : Fld := ⟨0xd00000, 17, 1⟩
def WE_STATUS_ABORTED : Fld := ⟨0xd00000, 18, 1⟩
def WE_ERRSPL_ID : Fld := ⟨0xd00004, 0, 32⟩
def WE_ERROFF_OFFSET : Fld := ⟨0xd00008, 0, 32⟩
def WE_ERRRES_KIND : Fld := ⟨0xd0000c, 0, 8⟩
def WE_ERRRES_INDEX : Fld := ⟨0xd0000c, 16, 16⟩
def WE_ERROWN_INDEX1 : Fld := ⟨0xd00010, 0, 8⟩
def WE_ERROWN_CLASS1 : Fld := ⟨0xd00010, 8, 8⟩
def WE_ERROWN_INDEX2 : Fld := ⟨0xd00010, 16, 8⟩
def WE_ERROWN_CLASS2 : Fld := ⟨0xd00010, 24, 8⟩
def WE_QUIET_TIMEOUT : Fld := ⟨0xd00014, 0, 20⟩
def WE_QSTAT_OUTCOME : Fld := ⟨0xd00018, 0, 2⟩
def WE_LATE_COUNT : Fld := ⟨0xd0001c, 0, 32⟩
def WE_LOCKREF_COUNT : Fld := ⟨0xd00020, 0, 32⟩
def WE_CLAIMREF_COUNT : Fld := ⟨0xd00024, 0, 32⟩
def WE_MGRREF_COUNT : Fld := ⟨0xd00028, 0, 32⟩
def WE_REFADR_OFFSET : Fld := ⟨0xd0002c, 0, 20⟩
def WE_REFADR_CLASS : Fld := ⟨0xd0002c, 20, 8⟩
def WE_REFADR_CAUSE : Fld := ⟨0xd0002c, 28, 1⟩
def WE_REFADR_VALID : Fld := ⟨0xd0002c, 31, 1⟩
def WE_REFSRC_NODE : Fld := ⟨0xd00030, 0, 12⟩
def WE_REFSRC_RING : Fld := ⟨0xd00030, 12, 4⟩
def WE_REFSRC_LOCAL : Fld := ⟨0xd00030, 16, 1⟩
def WE_REFSRC_MASTER : Fld := ⟨0xd00030, 17, 2⟩
def WE_IMGVER_IMGVER : Fld := ⟨0xd00034, 0, 32⟩
def WE_IMGID_ID : Fld := ⟨0xd00038, 0, 32⟩
def WE_LOADS_COUNT : Fld := ⟨0xd0003c, 0, 32⟩
def WE_KEYSLOT_SLOT : Fld := ⟨0xd00040, 0, 2⟩
def WE_KEYSLOT_REVOKED : Fld := ⟨0xd00040, 4, 4⟩
def WE_KEYSLOT_PROV : Fld := ⟨0xd00040, 8, 4⟩
def RGp_CTL_ENABLE (p : Nat) : Fld := ⟨0x100000 + 0x1000 * p, 0, 1⟩
def RGp_CTL_RATE (p : Nat) : Fld := ⟨0x100000 + 0x1000 * p, 1, 1⟩
def RGp_CTL_FEC (p : Nat) : Fld := ⟨0x100000 + 0x1000 * p, 2, 1⟩
def RGp_CTL_CHECKED (p : Nat) : Fld := ⟨0x100000 + 0x1000 * p, 3, 1⟩
def RGp_CTL_RETRAIN (p : Nat) : Fld := ⟨0x100000 + 0x1000 * p, 4, 1⟩
def RGp_LSTAT_STATE (p : Nat) : Fld := ⟨0x100004 + 0x1000 * p, 0, 3⟩
def RGp_LSTAT_SIGNAL (p : Nat) : Fld := ⟨0x100004 + 0x1000 * p, 3, 1⟩
def RGp_LSTAT_BLOCK (p : Nat) : Fld := ⟨0x100004 + 0x1000 * p, 4, 1⟩
def RGp_LSTAT_MISWIRED (p : Nat) : Fld := ⟨0x100004 + 0x1000 * p, 5, 1⟩
def RGp_LSTAT_RATEACT (p : Nat) : Fld := ⟨0x100004 + 0x1000 * p, 6, 1⟩
def RGp_LSTAT_FECACT (p : Nat) : Fld := ⟨0x100004 + 0x1000 * p, 7, 1⟩
def RGp_LSTAT_CAUSE (p : Nat) : Fld := ⟨0x100004 + 0x1000 * p, 8, 4⟩
def RGp_LSTAT_KAOUT (p : Nat) : Fld := ⟨0x100004 + 0x1000 * p, 12, 2⟩
def RGp_LSTAT_MODPRES (p : Nat) : Fld := ⟨0x100004 + 0x1000 * p, 14, 1⟩
def RGp_LSTAT_MODLOS (p : Nat) : Fld := ⟨0x100004 + 0x1000 * p, 15, 1⟩
def RGp_LSTAT_MODTXF (p : Nat) : Fld := ⟨0x100004 + 0x1000 * p, 16, 1⟩
def RGp_TIMERS_HOLDOFF (p : Nat) : Fld := ⟨0x100008 + 0x1000 * p, 0, 16⟩
def RGp_TIMERS_ACQ (p : Nat) : Fld := ⟨0x100008 + 0x1000 * p, 16, 8⟩
def RGp_PEERL_IDENT (p : Nat) : Fld := ⟨0x10000c + 0x1000 * p, 0, 32⟩
def RGp_PEERH_IDENT (p : Nat) : Fld := ⟨0x100010 + 0x1000 * p, 0, 32⟩
def RGp_PEERADR_ADDR (p : Nat) : Fld := ⟨0x100014 + 0x1000 * p, 0, 16⟩
def RGp_PEERADR_ASSIGNED (p : Nat) : Fld := ⟨0x100014 + 0x1000 * p, 16, 1⟩
def RGp_QUOTAi_LOW (p i : Nat) : Fld := ⟨0x100020 + 0x1000 * p + 0x4 * i, 0, 16⟩
def RGp_QUOTAi_HIGH (p i : Nat) : Fld := ⟨0x100020 + 0x1000 * p + 0x4 * i, 16, 16⟩
def RGp_TRANSIT_OCC (p : Nat) : Fld := ⟨0x100030 + 0x1000 * p, 0, 9⟩
def RGp_TRANSIT_PEAK (p : Nat) : Fld := ⟨0x100030 + 0x1000 * p, 16, 9⟩
def RGp_RXCELL_COUNT (p : Nat) : Fld := ⟨0x100040 + 0x1000 * p, 0, 32⟩
def RGp_TXCELL_COUNT (p : Nat) : Fld := ⟨0x100044 + 0x1000 * p, 0, 32⟩
def RGp_INSERT_COUNT (p : Nat) : Fld := ⟨0x100048 + 0x1000 * p, 0, 32⟩
def RGp_GAPINS_COUNT (p : Nat) : Fld := ⟨0x10004c + 0x1000 * p, 0, 32⟩
def RGp_HECERR_COUNT (p : Nat) : Fld := ⟨0x100050 + 0x1000 * p, 0, 32⟩
def RGp_CRCERR_COUNT (p : Nat) : Fld := ⟨0x100054 + 0x1000 * p, 0, 32⟩
def RGp_RXSTOMP_COUNT (p : Nat) : Fld := ⟨0x100058 + 0x1000 * p, 0, 32⟩
def RGp_BADCELL_COUNT (p : Nat) : Fld := ⟨0x10005c + 0x1000 * p, 0, 32⟩
def RGp_HOPDROP_COUNT (p : Nat) : Fld := ⟨0x100060 + 0x1000 * p, 0, 32⟩
def RGp_NODEST_COUNT (p : Nat) : Fld := ⟨0x100064 + 0x1000 * p, 0, 32⟩
def RGp_TDROP_COUNT (p : Nat) : Fld := ⟨0x100068 + 0x1000 * p, 0, 32⟩
def RGp_TOVER_COUNT (p : Nat) : Fld := ⟨0x10006c + 0x1000 * p, 0, 32⟩
def RGp_FAULTS_COUNT (p : Nat) : Fld := ⟨0x100070 + 0x1000 * p, 0, 32⟩
def RGp_LATE_COUNT (p : Nat) : Fld := ⟨0x100074 + 0x1000 * p, 0, 32⟩
def RGp_FECCOR_COUNT (p : Nat) : Fld := ⟨0x100078 + 0x1000 * p, 0, 32⟩
def RGp_FECUNC_COUNT (p : Nat) : Fld := ⟨0x10007c + 0x1000 * p, 0, 32⟩
def RGp_OPT0_TEMP (p : Nat) : Fld := ⟨0x100080 + 0x1000 * p, 0, 16⟩
def RGp_OPT0_VCC (p : Nat) : Fld := ⟨0x100080 + 0x1000 * p, 16, 16⟩
def RGp_OPT1_TXPWR (p : Nat) : Fld := ⟨0x100084 + 0x1000 * p, 0, 16⟩
def RGp_OPT1_RXPWR (p : Nat) : Fld := ⟨0x100084 + 0x1000 * p, 16, 16⟩
def RGp_OPT2_TXBIAS (p : Nat) : Fld := ⟨0x100088 + 0x1000 * p, 0, 16⟩
def RGp_OPT2_VALID (p : Nat) : Fld := ⟨0x100088 + 0x1000 * p, 16, 1⟩
def RGp_I2C_ADDR (p : Nat) : Fld := ⟨0x10008c + 0x1000 * p, 0, 8⟩
def RGp_I2C_DEV (p : Nat) : Fld := ⟨0x10008c + 0x1000 * p, 8, 1⟩
def RGp_I2C_WR (p : Nat) : Fld := ⟨0x10008c + 0x1000 * p, 9, 1⟩
def RGp_I2C_WDATA (p : Nat) : Fld := ⟨0x10008c + 0x1000 * p, 16, 8⟩
def RGp_I2C_ERR (p : Nat) : Fld := ⟨0x10008c + 0x1000 * p, 30, 1⟩
def RGp_I2C_BUSY (p : Nat) : Fld := ⟨0x10008c + 0x1000 * p, 31, 1⟩
def RGp_I2CDAT_RDATA (p : Nat) : Fld := ⟨0x100090 + 0x1000 * p, 0, 8⟩
def RG_ROUND_PERIOD : Fld := ⟨0x103000, 0, 11⟩
def RG_HOPLIM_LIMIT : Fld := ⟨0x103004, 0, 12⟩
def RG_SPREAD_MARGIN : Fld := ⟨0x103008, 0, 11⟩
def RG_SELF_NODE : Fld := ⟨0x103100, 0, 12⟩
def RG_SELF_RING : Fld := ⟨0x103100, 12, 4⟩
def RG_SELF_ASSIGNED : Fld := ⟨0x103100, 16, 1⟩
def RG_SELF_BOUND : Fld := ⟨0x103100, 17, 2⟩
def RG_SELF_DUP : Fld := ⟨0x103100, 19, 1⟩
def RG_SELF_PROV : Fld := ⟨0x103100, 20, 1⟩
def RG_IDL_IDENT : Fld := ⟨0x103104, 0, 32⟩
def RG_IDH_IDENT : Fld := ⟨0x103108, 0, 32⟩
def RG_PIDL_PIDENT : Fld := ⟨0x10310c, 0, 32⟩
def RG_PIDH_PIDENT : Fld := ⟨0x103110, 0, 32⟩
def RG_POS_POS : Fld := ⟨0x103114, 0, 12⟩
def RG_POS_SIZE : Fld := ⟨0x103114, 16, 13⟩
def RG_POS_POSOUT : Fld := ⟨0x103114, 29, 2⟩
def RG_POS_VALID : Fld := ⟨0x103114, 31, 1⟩
def RG_ROLE_ROOT : Fld := ⟨0x103118, 0, 1⟩
def RG_ROLE_ROOT2 : Fld := ⟨0x103118, 1, 1⟩
def RG_ROLE_JUNCTION : Fld := ⟨0x103118, 2, 1⟩
def RG_ROLE_RINGNUM : Fld := ⟨0x103118, 4, 4⟩
def RG_ENUM_PERIOD : Fld := ⟨0x10311c, 0, 11⟩
def RG_ENUM_START : Fld := ⟨0x10311c, 12, 1⟩
def RG_ENUM_RESULT : Fld := ⟨0x10311c, 13, 2⟩
def RG_ENUM_GEN : Fld := ⟨0x10311c, 16, 16⟩
def RG_WRAP_WRAPE : Fld := ⟨0x103120, 0, 1⟩
def RG_WRAP_WRAPW : Fld := ⟨0x103120, 1, 1⟩
def RG_WRAP_HOLDOUT : Fld := ⟨0x103120, 2, 2⟩
def RG_WRAP_HOLD : Fld := ⟨0x103120, 8, 8⟩
def RG_XCFG_TIMEOUT : Fld := ⟨0x103124, 0, 14⟩
def RG_XCFG_RETRIES : Fld := ⟨0x103124, 14, 4⟩
def RG_XCFG_AGE : Fld := ⟨0x103124, 18, 14⟩
def RG_PSEL_INDEX : Fld := ⟨0x103128, 0, 8⟩
def RG_PSEL_SIDE : Fld := ⟨0x103128, 8, 1⟩
def RG_PSTAT_PNODE : Fld := ⟨0x10312c, 0, 12⟩
def RG_PSTAT_PRING : Fld := ⟨0x10312c, 12, 4⟩
def RG_PSTAT_STATE : Fld := ⟨0x10312c, 16, 3⟩
def RG_PSTAT_OUT : Fld := ⟨0x10312c, 19, 4⟩
def RG_PSTAT_RACE : Fld := ⟨0x10312c, 23, 2⟩
def RG_PSTAT_TRIES : Fld := ⟨0x10312c, 25, 3⟩
def RG_PSEQ_NEXT : Fld := ⟨0x103130, 0, 16⟩
def RG_PSEQ_OLDEST : Fld := ⟨0x103130, 16, 16⟩
def RG_RPTCNT_COUNT : Fld := ⟨0x103140, 0, 13⟩
def RG_RPTi_DATA (i : Nat) : Fld := ⟨0x103144 + 0x4 * i, 0, 32⟩
def RG_RPT5_DATA : Fld := ⟨0x103158, 0, 32⟩
def RG_XRETRY_COUNT : Fld := ⟨0x103180, 0, 32⟩
def RG_XFAIL_COUNT : Fld := ⟨0x103184, 0, 32⟩
def RG_XLATE_COUNT : Fld := ⟨0x103188, 0, 32⟩
def RG_XDUP_COUNT : Fld := ⟨0x10318c, 0, 32⟩
def RG_XOOSEQ_COUNT : Fld := ⟨0x103190, 0, 32⟩
def RG_NOSYNC_COUNT : Fld := ⟨0x103194, 0, 32⟩
def RG_PEERFULL_COUNT : Fld := ⟨0x103198, 0, 32⟩
def RG_PWLOST_COUNT : Fld := ⟨0x10319c, 0, 32⟩
def RG_NOROUTE_COUNT : Fld := ⟨0x1031a0, 0, 32⟩
def RG_WRAPS_COUNT : Fld := ⟨0x1031a4, 0, 32⟩
def RG_WRAPLOST_COUNT : Fld := ⟨0x1031a8, 0, 32⟩
def RG_ENUMLOST_COUNT : Fld := ⟨0x1031ac, 0, 32⟩
def RG_ENUMLATE_COUNT : Fld := ⟨0x1031b0, 0, 32⟩
def RG_ASSIGNREF_COUNT : Fld := ⟨0x1031b4, 0, 32⟩
def RG_DUPNODE_COUNT : Fld := ⟨0x1031b8, 0, 32⟩
def RG_RPTLOST_COUNT : Fld := ⟨0x1031bc, 0, 32⟩
def RG_POSLATE_COUNT : Fld := ⟨0x1031c0, 0, 32⟩
def RG_RTn_EXIT (n : Nat) : Fld := ⟨0x103200 + 0x4 * n, 0, 12⟩
def RG_RTn_MODE (n : Nat) : Fld := ⟨0x103200 + 0x4 * n, 12, 2⟩
def BX_LCFG_CLKDIV : Fld := ⟨0x700000, 0, 2⟩
def BX_LCFG_TARGET : Fld := ⟨0x700000, 2, 1⟩
def BX_DRTIME_DISCARD : Fld := ⟨0x700004, 0, 16⟩
def BX_ISTAT_PERR : Fld := ⟨0x700008, 0, 1⟩
def BX_ISTAT_PERRLOST : Fld := ⟨0x700008, 1, 1⟩
def BX_ISTAT_DRDISC : Fld := ⟨0x700008, 2, 1⟩
def BX_ISTAT_WAITOUT : Fld := ⟨0x700008, 3, 1⟩
def BX_ISTAT_LXBERR : Fld := ⟨0x700008, 4, 1⟩
def BX_LATE_COUNT : Fld := ⟨0x700010, 0, 32⟩
def BX_DRDISC_COUNT : Fld := ⟨0x700014, 0, 32⟩
def BX_DRFULL_COUNT : Fld := ⟨0x700018, 0, 32⟩
def BX_PWFULL_COUNT : Fld := ⟨0x70001c, 0, 32⟩
def BX_PERRLOST_COUNT : Fld := ⟨0x700020, 0, 32⟩
def BX_RETRIES_COUNT : Fld := ⟨0x700024, 0, 32⟩
def BX_WAITOUT_COUNT : Fld := ⟨0x700028, 0, 32⟩
def BX_LXBERR_COUNT : Fld := ⟨0x70002c, 0, 32⟩
def BX_WINn_CFG_ENABLE (n : Nat) : Fld := ⟨0x700100 + 0x10 * n, 0, 1⟩
def BX_WINn_CFG_SIZE (n : Nat) : Fld := ⟨0x700100 + 0x10 * n, 1, 6⟩
def BX_WINn_CFG_BURST (n : Nat) : Fld := ⟨0x700100 + 0x10 * n, 7, 1⟩
def BX_WINn_CFG_WAIT (n : Nat) : Fld := ⟨0x700100 + 0x10 * n, 8, 10⟩
def BX_WINn_BASE_BASE (n : Nat) : Fld := ⟨0x700104 + 0x10 * n, 0, 32⟩
def BX_WINn_STAT_ERRORED (n : Nat) : Fld := ⟨0x700108 + 0x10 * n, 0, 1⟩
def BX_WINn_STAT_WAITRACE (n : Nat) : Fld := ⟨0x700108 + 0x10 * n, 1, 2⟩
def BX_FARn_BASEL_BASE (n : Nat) : Fld := ⟨0x700200 + 0x10 * n, 0, 32⟩
def BX_FARn_BASEH_BASE (n : Nat) : Fld := ⟨0x700204 + 0x10 * n, 0, 32⟩
def BX_FARn_CFG_ENABLE (n : Nat) : Fld := ⟨0x700208 + 0x10 * n, 0, 1⟩
def BX_FARn_CFG_NP (n : Nat) : Fld := ⟨0x700208 + 0x10 * n, 1, 1⟩
def BX_FARn_CFG_ERRORED (n : Nat) : Fld := ⟨0x700208 + 0x10 * n, 2, 1⟩
def BX_DRd_STAT_STATE (d : Nat) : Fld := ⟨0x700300 + 0x4 * d, 0, 2⟩
def BX_DRd_STAT_OUTCOME (d : Nat) : Fld := ⟨0x700300 + 0x4 * d, 2, 2⟩
def BX_DRd_STAT_WINDOW (d : Nat) : Fld := ⟨0x700300 + 0x4 * d, 4, 3⟩
def BX_DRd_STAT_STATUS (d : Nat) : Fld := ⟨0x700300 + 0x4 * d, 8, 8⟩
def BX_PERRe_ADDR_ADDR (e : Nat) : Fld := ⟨0x700400 + 0x20 * e, 0, 32⟩
def BX_PERRe_SRC_NODE (e : Nat) : Fld := ⟨0x700404 + 0x20 * e, 0, 12⟩
def BX_PERRe_SRC_RING (e : Nat) : Fld := ⟨0x700404 + 0x20 * e, 12, 4⟩
def BX_PERRe_SRC_LOCAL (e : Nat) : Fld := ⟨0x700404 + 0x20 * e, 16, 1⟩
def BX_PERRe_SRC_MASTER (e : Nat) : Fld := ⟨0x700404 + 0x20 * e, 17, 2⟩
def BX_PERRe_SRC_CS (e : Nat) : Fld := ⟨0x700404 + 0x20 * e, 19, 3⟩
def BX_PERRe_SRC_VALID (e : Nat) : Fld := ⟨0x700404 + 0x20 * e, 31, 1⟩
def BX_PERRe_INFO_COUNT (e : Nat) : Fld := ⟨0x700408 + 0x20 * e, 0, 7⟩
def BX_PERRe_INFO_BEAT (e : Nat) : Fld := ⟨0x700408 + 0x20 * e, 8, 5⟩
def BX_PERRe_INFO_CAUSE (e : Nat) : Fld := ⟨0x700408 + 0x20 * e, 13, 3⟩
def BX_PERRe_INFO_STATUS (e : Nat) : Fld := ⟨0x700408 + 0x20 * e, 16, 8⟩
def BX_PERRe_TSEC_SEC (e : Nat) : Fld := ⟨0x70040c + 0x20 * e, 0, 32⟩
def BX_PERRe_TNS_NS (e : Nat) : Fld := ⟨0x700410 + 0x20 * e, 0, 30⟩
def SW_HASHCTL_SEL : Fld := ⟨0x300000, 0, 3⟩
def SW_HASHCTL_SWITCHING : Fld := ⟨0x300000, 4, 3⟩
def SW_HASHCTL_IMBAL : Fld := ⟨0x300000, 8, 3⟩
def SW_HASHRUN_RUN : Fld := ⟨0x300004, 0, 24⟩
def SW_HASHSW_COUNT : Fld := ⟨0x300008, 0, 32⟩
def SW_SEEDh_s_SEED (h s : Nat) : Fld := ⟨0x300010 + 0x8 * h + 0x4 * s, 0, 32⟩
def SW_FLOWGAP_GAP : Fld := ⟨0x300030, 0, 14⟩
def SW_SHMAX_CELLS : Fld := ⟨0x300034, 0, 16⟩
def SW_AGE_SEC : Fld := ⟨0x300038, 0, 12⟩
def SW_SHOCC_OCC : Fld := ⟨0x30003c, 0, 16⟩
def SW_SHOCC_PEAK : Fld := ⟨0x30003c, 16, 16⟩
def SW_OVCFG_FITTED : Fld := ⟨0x300040, 0, 1⟩
def SW_OVCFG_SIZE : Fld := ⟨0x300040, 1, 2⟩
def SW_OVCFG_TRAINED : Fld := ⟨0x300040, 3, 1⟩
def SW_OVOCC_BLOCKS : Fld := ⟨0x300044, 0, 26⟩
def SW_FDBOCC_ENTRIES : Fld := ⟨0x300060, 0, 15⟩
def SW_FDBOCC_OVF : Fld := ⟨0x300060, 16, 7⟩
def SW_RINGPCP_MAP : Fld := ⟨0x300080, 0, 24⟩
def SW_MACL_MAC : Fld := ⟨0x300088, 0, 32⟩
def SW_MACH_MAC : Fld := ⟨0x30008c, 0, 16⟩
def SW_OVDROP_COUNT : Fld := ⟨0x300048, 0, 32⟩
def SW_OVPAR_COUNT : Fld := ⟨0x30004c, 0, 32⟩
def SW_MCDROP_COUNT : Fld := ⟨0x300050, 0, 32⟩
def SW_LRNFAIL_COUNT : Fld := ⟨0x300054, 0, 32⟩
def SW_FLOWFORCE_COUNT : Fld := ⟨0x300058, 0, 32⟩
def SW_FDBMACL_MAC : Fld := ⟨0x300070, 0, 32⟩
def SW_FDBMACH_MAC : Fld := ⟨0x300074, 0, 16⟩
def SW_FDBMACH_VID : Fld := ⟨0x300074, 16, 12⟩
def SW_FDBDST_EPORT : Fld := ⟨0x300078, 0, 4⟩
def SW_FDBDST_NODE : Fld := ⟨0x300078, 4, 12⟩
def SW_FDBDST_RING : Fld := ⟨0x300078, 16, 4⟩
def SW_FDBDST_KIND : Fld := ⟨0x300078, 20, 2⟩
def SW_FDBDST_STATIC : Fld := ⟨0x300078, 22, 1⟩
def SW_FDBCMD_OP : Fld := ⟨0x30007c, 0, 3⟩
def SW_FDBCMD_RESULT : Fld := ⟨0x30007c, 4, 2⟩
def SW_FDBCMD_BUSY : Fld := ⟨0x30007c, 31, 1⟩
def SW_GRPg_MEMBER (g : Nat) : Fld := ⟨0x310000 + 0x4 * g, 0, 1⟩
def SW_VLANv_MEMBERS (v : Nat) : Fld := ⟨0x320000 + 0x4 * v, 0, 16⟩
def SW_VLANv_GROUP (v : Nat) : Fld := ⟨0x320000 + 0x4 * v, 16, 12⟩
def SW_VLANv_RINGFLOOD (v : Nat) : Fld := ⟨0x320000 + 0x4 * v, 28, 1⟩
def SW_VLANv_VALID (v : Nat) : Fld := ⟨0x320000 + 0x4 * v, 31, 1⟩
def SW_TAGPARn_COUNT (n : Nat) : Fld := ⟨0x301000 + 0x40 * n, 0, 32⟩
def SW_STOMPn_COUNT (n : Nat) : Fld := ⟨0x301004 + 0x40 * n, 0, 32⟩
def SW_POISONn_COUNT (n : Nat) : Fld := ⟨0x301008 + 0x40 * n, 0, 32⟩
def SW_QDROPn_COUNT (n : Nat) : Fld := ⟨0x30100c + 0x40 * n, 0, 32⟩
def SW_CTn_COUNT (n : Nat) : Fld := ⟨0x301010 + 0x40 * n, 0, 32⟩
def SW_FLUSHn_COUNT (n : Nat) : Fld := ⟨0x301014 + 0x40 * n, 0, 32⟩
def SW_LINKLOSTn_COUNT (n : Nat) : Fld := ⟨0x301018 + 0x40 * n, 0, 32⟩
def SW_LATEn_COUNT (n : Nat) : Fld := ⟨0x30101c + 0x40 * n, 0, 32⟩
def SW_FILTn_COUNT (n : Nat) : Fld := ⟨0x301020 + 0x40 * n, 0, 32⟩
def SW_RXFCSn_COUNT (n : Nat) : Fld := ⟨0x301024 + 0x40 * n, 0, 32⟩
def SW_RXLENn_COUNT (n : Nat) : Fld := ⟨0x301028 + 0x40 * n, 0, 32⟩
def SW_RINGBIGn_COUNT (n : Nat) : Fld := ⟨0x30102c + 0x40 * n, 0, 32⟩
def SW_PAUSERXn_COUNT (n : Nat) : Fld := ⟨0x301030 + 0x40 * n, 0, 32⟩
def SW_OCCn_OCC (n : Nat) : Fld := ⟨0x301034 + 0x40 * n, 0, 16⟩
def SW_OCCn_PEAK (n : Nat) : Fld := ⟨0x301034 + 0x40 * n, 16, 16⟩
def SW_PCFGn_ENABLE (n : Nat) : Fld := ⟨0x304000 + 0x40 * n, 0, 1⟩
def SW_PCFGn_MODE (n : Nat) : Fld := ⟨0x304000 + 0x40 * n, 1, 2⟩
def SW_PCFGn_PAUSERX (n : Nat) : Fld := ⟨0x304000 + 0x40 * n, 3, 1⟩
def SW_PCFGn_PAUSETX (n : Nat) : Fld := ⟨0x304000 + 0x40 * n, 4, 1⟩
def SW_PCFGn_PFC (n : Nat) : Fld := ⟨0x304000 + 0x40 * n, 5, 1⟩
def SW_PCFGn_UNTAG (n : Nat) : Fld := ⟨0x304000 + 0x40 * n, 6, 1⟩
def SW_PCFGn_LEARN (n : Nat) : Fld := ⟨0x304000 + 0x40 * n, 7, 1⟩
def SW_PCFGn_MAXLEN (n : Nat) : Fld := ⟨0x304000 + 0x40 * n, 16, 14⟩
def SW_PSTATn_LINK (n : Nat) : Fld := ⟨0x304004 + 0x40 * n, 0, 1⟩
def SW_PSTATn_SPEED (n : Nat) : Fld := ⟨0x304004 + 0x40 * n, 1, 2⟩
def SW_PSTATn_HOLDOUT (n : Nat) : Fld := ⟨0x304004 + 0x40 * n, 3, 2⟩
def SW_PSTATn_FLUSHING (n : Nat) : Fld := ⟨0x304004 + 0x40 * n, 5, 1⟩
def SW_PSTATn_PAUSED (n : Nat) : Fld := ⟨0x304004 + 0x40 * n, 6, 1⟩
def SW_PSTATn_XOFF (n : Nat) : Fld := ⟨0x304004 + 0x40 * n, 7, 1⟩
def SW_PVIDn_PVID (n : Nat) : Fld := ⟨0x304008 + 0x40 * n, 0, 12⟩
def SW_PCPMAPn_MAP (n : Nat) : Fld := ⟨0x30400c + 0x40 * n, 0, 24⟩
def SW_HOLDn_HOLD (n : Nat) : Fld := ⟨0x304010 + 0x40 * n, 0, 7⟩
def SW_FCn_XOFF (n : Nat) : Fld := ⟨0x304014 + 0x40 * n, 0, 16⟩
def SW_FCn_XON (n : Nat) : Fld := ⟨0x304014 + 0x40 * n, 16, 16⟩
def SW_GCTLn_ARM (n : Nat) : Fld := ⟨0x380000 + 0x4000 * n, 0, 1⟩
def SW_GCTLn_DISARM (n : Nat) : Fld := ⟨0x380000 + 0x4000 * n, 1, 1⟩
def SW_GCTLn_OFF (n : Nat) : Fld := ⟨0x380000 + 0x4000 * n, 2, 1⟩
def SW_GCTLn_PLIST (n : Nat) : Fld := ⟨0x380000 + 0x4000 * n, 3, 1⟩
def SW_GSTATn_STATE (n : Nat) : Fld := ⟨0x380004 + 0x4000 * n, 0, 8⟩
def SW_GSTATn_ENTRY (n : Nat) : Fld := ⟨0x380004 + 0x4000 * n, 8, 8⟩
def SW_GSTATn_ACTIVE (n : Nat) : Fld := ⟨0x380004 + 0x4000 * n, 16, 2⟩
def SW_GSTATn_ARMED (n : Nat) : Fld := ⟨0x380004 + 0x4000 * n, 18, 1⟩
def SW_GSTATn_SWAPOUT (n : Nat) : Fld := ⟨0x380004 + 0x4000 * n, 19, 2⟩
def SW_GSTATn_LATESWAP (n : Nat) : Fld := ⟨0x380004 + 0x4000 * n, 21, 1⟩
def SW_GSWAPSn_SEC (n : Nat) : Fld := ⟨0x380008 + 0x4000 * n, 0, 32⟩
def SW_GSWAPNSn_NS (n : Nat) : Fld := ⟨0x38000c + 0x4000 * n, 0, 30⟩
def SW_GLENn_l_LEN (n l : Nat) : Fld := ⟨0x380010 + 0x4000 * n + 0x4 * l, 0, 9⟩
def SW_GCYCn_CYCLE (n : Nat) : Fld := ⟨0x380018 + 0x4000 * n, 0, 30⟩
def SW_GWMAXn_q_WMAX (n q : Nat) : Fld := ⟨0x380020 + 0x4000 * n + 0x4 * q, 0, 32⟩
def SW_LSTATn_OUTCOME (n : Nat) : Fld := ⟨0x380040 + 0x4000 * n, 0, 2⟩
def SW_GLONGn_COUNT (n : Nat) : Fld := ⟨0x380044 + 0x4000 * n, 0, 32⟩
def SW_GOVRn_COUNT (n : Nat) : Fld := ⟨0x380048 + 0x4000 * n, 0, 32⟩
def SW_LEXPn_COUNT (n : Nat) : Fld := ⟨0x38004c + 0x4000 * n, 0, 32⟩
def SW_LLATEn_COUNT (n : Nat) : Fld := ⟨0x380050 + 0x4000 * n, 0, 32⟩
def SW_GLATEn_COUNT (n : Nat) : Fld := ⟨0x380054 + 0x4000 * n, 0, 32⟩
def SW_QCFGn_q_QUANTUM (n q : Nat) : Fld := ⟨0x380100 + 0x4000 * n + 0x10 * q, 0, 16⟩
def SW_QCFGn_q_BURST (n q : Nat) : Fld := ⟨0x380100 + 0x4000 * n + 0x10 * q, 16, 16⟩
def SW_QRATEn_q_RATE (n q : Nat) : Fld := ⟨0x380104 + 0x4000 * n + 0x10 * q, 0, 32⟩
def SW_QSTATn_q_ELIG (n q : Nat) : Fld := ⟨0x380108 + 0x4000 * n + 0x10 * q, 0, 1⟩
def SW_QSTATn_q_SHWAIT (n q : Nat) : Fld := ⟨0x380108 + 0x4000 * n + 0x10 * q, 1, 1⟩
def SW_QSTATn_q_GWAIT (n q : Nat) : Fld := ⟨0x380108 + 0x4000 * n + 0x10 * q, 2, 1⟩
def SW_QSTATn_q_LWAIT (n q : Nat) : Fld := ⟨0x380108 + 0x4000 * n + 0x10 * q, 3, 1⟩
def SW_QSTATn_q_UNSEND (n q : Nat) : Fld := ⟨0x380108 + 0x4000 * n + 0x10 * q, 4, 1⟩
def SW_QSTATn_q_PAUSED (n q : Nat) : Fld := ⟨0x380108 + 0x4000 * n + 0x10 * q, 5, 1⟩
def SW_QSTATn_q_DEFICIT (n q : Nat) : Fld := ⟨0x380108 + 0x4000 * n + 0x10 * q, 8, 17⟩
def SW_QELIGn_q_NS (n q : Nat) : Fld := ⟨0x38010c + 0x4000 * n + 0x10 * q, 0, 30⟩
def SW_GSn_l_e_STATE (n l e : Nat) : Fld := ⟨0x381000 + 0x4000 * n + 0x800 * l + 0x8 * e, 0, 8⟩
def SW_GIn_l_e_INTERVAL (n l e : Nat) : Fld := ⟨0x381004 + 0x4000 * n + 0x800 * l + 0x8 * e, 0, 32⟩
def TM_SEC_SEC : Fld := ⟨0x200000, 0, 32⟩
def TM_NS_NS : Fld := ⟨0x200004, 0, 30⟩
def TM_FRAC_FRAC : Fld := ⟨0x200008, 0, 16⟩
def TM_SEC48H_SEC : Fld := ⟨0x20000c, 0, 16⟩
def TM_SEC48L_SEC : Fld := ⟨0x200010, 0, 32⟩
def TM_TICK_TICK : Fld := ⟨0x200014, 0, 32⟩
def TM_TICKNOW_TICK : Fld := ⟨0x200018, 0, 32⟩
def TM_RATE_RATE : Fld := ⟨0x20001c, 0, 32⟩
def TM_SETH_SEC48 : Fld := ⟨0x200020, 0, 16⟩
def TM_SETS_SEC : Fld := ⟨0x200024, 0, 32⟩
def TM_SETNS_NS : Fld := ⟨0x200028, 0, 30⟩
def TM_CTL_STEP : Fld := ⟨0x20002c, 0, 1⟩
def TM_CTL_SNAP : Fld := ⟨0x20002c, 1, 1⟩
def TM_DCFG_SYNCINT : Fld := ⟨0x200030, 0, 3⟩
def TM_DCFG_PDINT : Fld := ⟨0x200030, 3, 3⟩
def TM_DCFG_GMPORT : Fld := ⟨0x200030, 6, 4⟩
def TM_DCFG_GMEN : Fld := ⟨0x200030, 10, 1⟩
def TM_DCFG_SERVO : Fld := ⟨0x200030, 11, 1⟩
def TM_DCFG_DOMAIN : Fld := ⟨0x200030, 16, 8⟩
def TM_DTHR_STEPTHR : Fld := ⟨0x200034, 0, 16⟩
def TM_DTHR_LOCKTHR : Fld := ⟨0x200034, 16, 16⟩
def TM_DSTAT_STATE : Fld := ⟨0x200038, 0, 2⟩
def TM_DSTAT_SRCRING : Fld := ⟨0x200038, 2, 1⟩
def TM_DSTAT_GMLOCK : Fld := ⟨0x200038, 3, 1⟩
def TM_DSTAT_SYNCOUT : Fld := ⟨0x200038, 4, 2⟩
def TM_DSTAT_STEPPED : Fld := ⟨0x200038, 6, 1⟩
def TM_DSTAT_SYNCSEQ : Fld := ⟨0x200038, 16, 16⟩
def TM_DOFF_OFFSET : Fld := ⟨0x20003c, 0, 32⟩
def TM_PDLYp_DELAY (p : Nat) : Fld := ⟨0x200040 + 0x4 * p, 0, 32⟩
def TM_ASYMp_ASYM (p : Nat) : Fld := ⟨0x200048 + 0x4 * p, 0, 16⟩
def TM_LTOL_NS : Fld := ⟨0x200050, 0, 32⟩
def TM_LTOCC_OCC : Fld := ⟨0x200054, 0, 12⟩
def TM_LTOCC_PEAK : Fld := ⟨0x200054, 16, 12⟩
def TM_PDSTAT_PDOUT0 : Fld := ⟨0x200058, 0, 2⟩
def TM_PDSTAT_PDOUT1 : Fld := ⟨0x200058, 2, 2⟩
def TM_LATE_COUNT : Fld := ⟨0x200080, 0, 32⟩
def TM_CLATE_COUNT : Fld := ⟨0x200084, 0, 32⟩
def TM_SYNCBAD_COUNT : Fld := ⟨0x200088, 0, 32⟩
def TM_PDBAD_COUNT : Fld := ⟨0x20008c, 0, 32⟩
def TM_STEPS_COUNT : Fld := ⟨0x200090, 0, 32⟩
def TM_CAPLOST_COUNT : Fld := ⟨0x200094, 0, 32⟩
def TM_TXTSLOST_COUNT : Fld := ⟨0x200098, 0, 32⟩
def TM_LTFULL_COUNT : Fld := ⟨0x20009c, 0, 32⟩
def TM_SAREF_COUNT : Fld := ⟨0x2000a0, 0, 32⟩
def TM_SAFULL_COUNT : Fld := ⟨0x2000a4, 0, 32⟩
def TM_SALATE_COUNT : Fld := ⟨0x2000a8, 0, 32⟩
def TM_SADISC_COUNT : Fld := ⟨0x2000ac, 0, 32⟩
def TM_SACANCEL_COUNT : Fld := ⟨0x2000b0, 0, 32⟩
def TM_CMPk_S_SEC (k : Nat) : Fld := ⟨0x201000 + 0x10 * k, 0, 32⟩
def TM_CMPk_NS_NS (k : Nat) : Fld := ⟨0x201004 + 0x10 * k, 0, 30⟩
def TM_CMPk_PER_PERIOD (k : Nat) : Fld := ⟨0x201008 + 0x10 * k, 0, 30⟩
def TM_CMPk_CFG_ARM (k : Nat) : Fld := ⟨0x20100c + 0x10 * k, 0, 1⟩
def TM_CMPk_CFG_DISARM (k : Nat) : Fld := ⟨0x20100c + 0x10 * k, 1, 1⟩
def TM_CMPk_CFG_EVENT (k : Nat) : Fld := ⟨0x20100c + 0x10 * k, 2, 1⟩
def TM_CMPk_CFG_SIGNAL (k : Nat) : Fld := ⟨0x20100c + 0x10 * k, 3, 1⟩
def TM_CMPk_CFG_OUTCOME (k : Nat) : Fld := ⟨0x20100c + 0x10 * k, 4, 2⟩
def TM_CMPk_CFG_LATE (k : Nat) : Fld := ⟨0x20100c + 0x10 * k, 6, 1⟩
def TM_CMPk_CFG_STEPPED (k : Nat) : Fld := ⟨0x20100c + 0x10 * k, 7, 1⟩
def TM_CAPc_CFG_ENABLE (c : Nat) : Fld := ⟨0x202000 + 0x10 * c, 0, 1⟩
def TM_CAPc_CFG_EDGE (c : Nat) : Fld := ⟨0x202000 + 0x10 * c, 1, 2⟩
def TM_CAPc_CFG_FILT (c : Nat) : Fld := ⟨0x202000 + 0x10 * c, 4, 8⟩
def TM_CAPc_S_SEC (c : Nat) : Fld := ⟨0x202004 + 0x10 * c, 0, 32⟩
def TM_CAPc_NS_NS (c : Nat) : Fld := ⟨0x202008 + 0x10 * c, 0, 30⟩
def TM_CAPc_NS_FALL (c : Nat) : Fld := ⟨0x202008 + 0x10 * c, 30, 1⟩
def TM_CAPc_NS_VALID (c : Nat) : Fld := ⟨0x202008 + 0x10 * c, 31, 1⟩
def TM_CAPc_STAT_COUNT (c : Nat) : Fld := ⟨0x20200c + 0x10 * c, 0, 4⟩
def TM_PPSi_CFG_ENABLE (i : Nat) : Fld := ⟨0x202100 + 0x4 * i, 0, 1⟩
def TM_PPSi_CFG_INVERT (i : Nat) : Fld := ⟨0x202100 + 0x4 * i, 1, 1⟩
def TM_PPSi_CFG_LOCKONLY (i : Nat) : Fld := ⟨0x202100 + 0x4 * i, 2, 1⟩
def TM_PPSi_CFG_WIDTH (i : Nat) : Fld := ⟨0x202100 + 0x4 * i, 4, 10⟩
def TM_EDLYn_RX (n : Nat) : Fld := ⟨0x202200 + 0x4 * n, 0, 16⟩
def TM_EDLYn_TX (n : Nat) : Fld := ⟨0x202200 + 0x4 * n, 16, 16⟩
def TM_TXSn_SEC (n : Nat) : Fld := ⟨0x202400 + 0x10 * n, 0, 32⟩
def TM_TXNSn_NS (n : Nat) : Fld := ⟨0x202404 + 0x10 * n, 0, 30⟩
def TM_TXNSn_VALID (n : Nat) : Fld := ⟨0x202404 + 0x10 * n, 31, 1⟩
def TM_TXIDn_SEQID (n : Nat) : Fld := ⟨0x202408 + 0x10 * n, 0, 16⟩
def TM_TXIDn_MSGTYPE (n : Nat) : Fld := ⟨0x202408 + 0x10 * n, 16, 4⟩
def TM_LPOLi_POLICY (i : Nat) : Fld := ⟨0x203000 + 0x4 * i, 0, 32⟩
def TM_SAn_ACTID (n : Nat) : Fld := ⟨0x204000 + 0x4 * n, 0, 16⟩
def TM_SAn_OUTCOME (n : Nat) : Fld := ⟨0x204000 + 0x4 * n, 16, 3⟩
def TM_SAn_STEPPED (n : Nat) : Fld := ⟨0x204000 + 0x4 * n, 19, 1⟩
def WVn_CTL_STOP (n : Nat) : Fld := ⟨0x400000 + 0x400 * n, 0, 1⟩
def WVn_CTL_START (n : Nat) : Fld := ⟨0x400000 + 0x400 * n, 1, 1⟩
def WVn_CTL_JOIN (n : Nat) : Fld := ⟨0x400000 + 0x400 * n, 2, 2⟩
def WVn_CTL_RXDEST (n : Nat) : Fld := ⟨0x400000 + 0x400 * n, 4, 1⟩
def WVn_CTL_EQPRI (n : Nat) : Fld := ⟨0x400000 + 0x400 * n, 5, 3⟩
def WVn_CTL_HALTEV (n : Nat) : Fld := ⟨0x400000 + 0x400 * n, 8, 1⟩
def WVn_CTL_TIMED (n : Nat) : Fld := ⟨0x400000 + 0x400 * n, 9, 1⟩
def WVn_CTL_AUTOSTART (n : Nat) : Fld := ⟨0x400000 + 0x400 * n, 10, 1⟩
def WVn_STAT_STATE (n : Nat) : Fld := ⟨0x400004 + 0x400 * n, 0, 2⟩
def WVn_STAT_STALLON (n : Nat) : Fld := ⟨0x400004 + 0x400 * n, 2, 2⟩
def WVn_STAT_PC (n : Nat) : Fld := ⟨0x400004 + 0x400 * n, 4, 6⟩
def WVn_STAT_MIDSHIFT (n : Nat) : Fld := ⟨0x400004 + 0x400 * n, 10, 1⟩
def WVn_STAT_HALTED (n : Nat) : Fld := ⟨0x400004 + 0x400 * n, 11, 1⟩
def WVn_STAT_PARERR (n : Nat) : Fld := ⟨0x400004 + 0x400 * n, 12, 1⟩
def WVn_STAT_DIVACT (n : Nat) : Fld := ⟨0x400004 + 0x400 * n, 13, 1⟩
def WVn_STAT_PROGREF (n : Nat) : Fld := ⟨0x400004 + 0x400 * n, 14, 1⟩
def WVn_STAT_TXOVF (n : Nat) : Fld := ⟨0x400004 + 0x400 * n, 15, 1⟩
def WVn_STAT_STARTIGN (n : Nat) : Fld := ⟨0x400004 + 0x400 * n, 16, 1⟩
def WVn_DIV0_DIV (n : Nat) : Fld := ⟨0x400008 + 0x400 * n, 0, 25⟩
def WVn_DIV1_DIV (n : Nat) : Fld := ⟨0x40000c + 0x400 * n, 0, 25⟩
def WVn_SHIFT_SH (n : Nat) : Fld := ⟨0x400020 + 0x400 * n, 0, 32⟩
def WVn_SC_SC (n : Nat) : Fld := ⟨0x400024 + 0x400 * n, 0, 32⟩
def WVn_CN_CN (n : Nat) : Fld := ⟨0x400028 + 0x400 * n, 0, 32⟩
def WVn_LOOP_L0 (n : Nat) : Fld := ⟨0x40002c + 0x400 * n, 0, 16⟩
def WVn_LOOP_L1 (n : Nat) : Fld := ⟨0x40002c + 0x400 * n, 16, 16⟩
def WVn_TRS_SEC (n : Nat) : Fld := ⟨0x400030 + 0x400 * n, 0, 32⟩
def WVn_TRNS_NS (n : Nat) : Fld := ⟨0x400034 + 0x400 * n, 0, 30⟩
def WVn_SHCNT_COUNT (n : Nat) : Fld := ⟨0x400038 + 0x400 * n, 0, 6⟩
def WVn_PROGs_WORD (n s : Nat) : Fld := ⟨0x400100 + 0x400 * n + 0x4 * s, 0, 24⟩
def WVn_LANEl_PIN (n l : Nat) : Fld := ⟨0x400040 + 0x400 * n + 0x4 * l, 0, 8⟩
def WVn_LANEl_ROLE (n l : Nat) : Fld := ⟨0x400040 + 0x400 * n + 0x4 * l, 8, 3⟩
def WVn_LANEl_DRIVE (n l : Nat) : Fld := ⟨0x400040 + 0x400 * n + 0x4 * l, 11, 1⟩
def WVn_LANEl_PARK (n l : Nat) : Fld := ⟨0x400040 + 0x400 * n + 0x4 * l, 12, 2⟩
def WVn_LANEl_REACH (n l : Nat) : Fld := ⟨0x400040 + 0x400 * n + 0x4 * l, 14, 1⟩
def WVn_LANEl_INV (n l : Nat) : Fld := ⟨0x400040 + 0x400 * n + 0x4 * l, 15, 1⟩
def WVn_QSTAT_TXLVL (n : Nat) : Fld := ⟨0x400060 + 0x400 * n, 0, 4⟩
def WVn_QSTAT_RXLVL (n : Nat) : Fld := ⟨0x400060 + 0x400 * n, 4, 4⟩
def WVn_QSTAT_TQLVL (n : Nat) : Fld := ⟨0x400060 + 0x400 * n, 8, 4⟩
def WVn_QSTAT_BACK (n : Nat) : Fld := ⟨0x400060 + 0x400 * n, 16, 11⟩
def WVn_QCFG_BACKLOG (n : Nat) : Fld := ⟨0x400064 + 0x400 * n, 0, 11⟩
def WVn_TXTAG_TAG (n : Nat) : Fld := ⟨0x400068 + 0x400 * n, 0, 8⟩
def WVn_TXQ_DATA (n : Nat) : Fld := ⟨0x40006c + 0x400 * n, 0, 32⟩
def WVn_RXT_TAG (n : Nat) : Fld := ⟨0x400070 + 0x400 * n, 0, 8⟩
def WVn_RXT_VALID (n : Nat) : Fld := ⟨0x400070 + 0x400 * n, 31, 1⟩
def WVn_RXD_DATA (n : Nat) : Fld := ⟨0x400074 + 0x400 * n, 0, 32⟩
def WVn_STALLS_COUNT (n : Nat) : Fld := ⟨0x400080 + 0x400 * n, 0, 32⟩
def WVn_TXDROP_COUNT (n : Nat) : Fld := ⟨0x400084 + 0x400 * n, 0, 32⟩
def WVn_TQDROP_COUNT (n : Nat) : Fld := ⟨0x400088 + 0x400 * n, 0, 32⟩
def BKm_START_MASK (m : Nat) : Fld := ⟨0x420000 + 0x40 * m, 0, 8⟩
def BKm_STOP_MASK (m : Nat) : Fld := ⟨0x420004 + 0x40 * m, 0, 8⟩
def BKm_CLKRST_MASK (m : Nat) : Fld := ⟨0x420008 + 0x40 * m, 0, 8⟩
def BKm_FLAGS_FLAGS (m : Nat) : Fld := ⟨0x42000c + 0x40 * m, 0, 16⟩
def BKm_FSET_FLAGS (m : Nat) : Fld := ⟨0x420010 + 0x40 * m, 0, 16⟩
def BKm_IRQ_LINE (m : Nat) : Fld := ⟨0x420014 + 0x40 * m, 0, 4⟩
def BKm_STAT_RUNNING (m : Nat) : Fld := ⟨0x420018 + 0x40 * m, 0, 8⟩
def BKm_STAT_STALLED (m : Nat) : Fld := ⟨0x420018 + 0x40 * m, 8, 8⟩
def BK_GMASKi_MASK (i : Nat) : Fld := ⟨0x421000 + 0x4 * i, 0, 32⟩
def BK_GCTL_GO : Fld := ⟨0x421010, 0, 1⟩
def BK_GCTL_ARM : Fld := ⟨0x421010, 1, 1⟩
def BK_GCTL_DISARM : Fld := ⟨0x421010, 2, 1⟩
def BK_GCTL_STOP : Fld := ⟨0x421010, 3, 1⟩
def BK_GCTL_OUTCOME : Fld := ⟨0x421010, 4, 2⟩
def BK_GCTL_LATE : Fld := ⟨0x421010, 6, 1⟩
def BK_GTS_SEC : Fld := ⟨0x421014, 0, 32⟩
def BK_GTNS_NS : Fld := ⟨0x421018, 0, 30⟩
def BK_LATE_COUNT : Fld := ⟨0x42101c, 0, 32⟩
def BK_VIO_PRESENT : Fld := ⟨0x421020, 0, 4⟩
def BK_PINi_LEVEL (i : Nat) : Fld := ⟨0x421100 + 0x4 * i, 0, 32⟩
def WVn_WSRC_PINS (n : Nat) : Fld := ⟨0x400010 + 0x400 * n, 0, 1⟩
def WVn_WSRC_FLAGS (n : Nat) : Fld := ⟨0x400010 + 0x400 * n, 1, 1⟩
def WVn_WSRC_IRQ (n : Nat) : Fld := ⟨0x400010 + 0x400 * n, 2, 1⟩
def CFk_MODE_INIT (k : Nat) : Fld := ⟨0x500000 + 0x8000 * k, 0, 1⟩
def CFk_MODE_OPMODE (k : Nat) : Fld := ⟨0x500000 + 0x8000 * k, 1, 2⟩
def CFk_MODE_FDOE (k : Nat) : Fld := ⟨0x500000 + 0x8000 * k, 3, 1⟩
def CFk_MODE_TXORD (k : Nat) : Fld := ⟨0x500000 + 0x8000 * k, 4, 1⟩
def CFk_MODE_TRIPLE (k : Nat) : Fld := ⟨0x500000 + 0x8000 * k, 5, 1⟩
def CFk_MODE_PXD (k : Nat) : Fld := ⟨0x500000 + 0x8000 * k, 6, 1⟩
def CFk_MODE_RXDEF (k : Nat) : Fld := ⟨0x500000 + 0x8000 * k, 7, 1⟩
def CFk_MODE_RXEV (k : Nat) : Fld := ⟨0x500000 + 0x8000 * k, 8, 1⟩
def CFk_MODE_TXEV (k : Nat) : Fld := ⟨0x500000 + 0x8000 * k, 9, 1⟩
def CFk_MODE_TDCEN (k : Nat) : Fld := ⟨0x500000 + 0x8000 * k, 10, 1⟩
def CFk_MODE_RECOVER (k : Nat) : Fld := ⟨0x500000 + 0x8000 * k, 11, 1⟩
def CFk_MODE_INITACT (k : Nat) : Fld := ⟨0x500000 + 0x8000 * k, 12, 1⟩
def CFk_NBT_NBRP (k : Nat) : Fld := ⟨0x500004 + 0x8000 * k, 0, 9⟩
def CFk_NBT_NTSEG1 (k : Nat) : Fld := ⟨0x500004 + 0x8000 * k, 9, 8⟩
def CFk_NBT_NTSEG2 (k : Nat) : Fld := ⟨0x500004 + 0x8000 * k, 17, 7⟩
def CFk_NBT_NSJW (k : Nat) : Fld := ⟨0x500004 + 0x8000 * k, 24, 7⟩
def CFk_DBT_DBRP (k : Nat) : Fld := ⟨0x500008 + 0x8000 * k, 0, 5⟩
def CFk_DBT_DTSEG1 (k : Nat) : Fld := ⟨0x500008 + 0x8000 * k, 5, 5⟩
def CFk_DBT_DTSEG2 (k : Nat) : Fld := ⟨0x500008 + 0x8000 * k, 10, 4⟩
def CFk_DBT_DSJW (k : Nat) : Fld := ⟨0x500008 + 0x8000 * k, 14, 4⟩
def CFk_TDC_TDCO (k : Nat) : Fld := ⟨0x50000c + 0x8000 * k, 0, 7⟩
def CFk_TDC_MEAS (k : Nat) : Fld := ⟨0x50000c + 0x8000 * k, 16, 8⟩
def CFk_ERR_TEC (k : Nat) : Fld := ⟨0x500010 + 0x8000 * k, 0, 8⟩
def CFk_ERR_REC (k : Nat) : Fld := ⟨0x500010 + 0x8000 * k, 8, 8⟩
def CFk_ERR_STATE (k : Nat) : Fld := ⟨0x500010 + 0x8000 * k, 16, 2⟩
def CFk_ERR_WARN (k : Nat) : Fld := ⟨0x500010 + 0x8000 * k, 18, 1⟩
def CFk_ERR_LEC (k : Nat) : Fld := ⟨0x500010 + 0x8000 * k, 19, 4⟩
def CFk_TXREQ_REQ (k : Nat) : Fld := ⟨0x500014 + 0x8000 * k, 0, 3⟩
def CFk_TXCAN_CAN (k : Nat) : Fld := ⟨0x500018 + 0x8000 * k, 0, 3⟩
def CFk_RXSTAT_OWNED (k : Nat) : Fld := ⟨0x50001c + 0x8000 * k, 0, 7⟩
def CFk_RXSTAT_HEAD (k : Nat) : Fld := ⟨0x50001c + 0x8000 * k, 8, 6⟩
def CFk_RXACK_COUNT (k : Nat) : Fld := ⟨0x500020 + 0x8000 * k, 0, 7⟩
def CFk_TXOK_COUNT (k : Nat) : Fld := ⟨0x500040 + 0x8000 * k, 0, 32⟩
def CFk_RXOK_COUNT (k : Nat) : Fld := ⟨0x500044 + 0x8000 * k, 0, 32⟩
def CFk_RXOVR_COUNT (k : Nat) : Fld := ⟨0x500048 + 0x8000 * k, 0, 32⟩
def CFk_RXREJ_COUNT (k : Nat) : Fld := ⟨0x50004c + 0x8000 * k, 0, 32⟩
def CFk_ARBLOST_COUNT (k : Nat) : Fld := ⟨0x500050 + 0x8000 * k, 0, 32⟩
def CFk_LATE_COUNT (k : Nat) : Fld := ⟨0x500054 + 0x8000 * k, 0, 32⟩
def CFk_LEXP_COUNT (k : Nat) : Fld := ⟨0x500058 + 0x8000 * k, 0, 32⟩
def CFk_BUSOFF_COUNT (k : Nat) : Fld := ⟨0x50005c + 0x8000 * k, 0, 32⟩
def CFk_PXE_COUNT (k : Nat) : Fld := ⟨0x500060 + 0x8000 * k, 0, 32⟩
def CFk_TBb_ID_ID (k b : Nat) : Fld := ⟨0x500100 + 0x8000 * k + 0x100 * b, 0, 29⟩
def CFk_TBb_ID_IDE (k b : Nat) : Fld := ⟨0x500100 + 0x8000 * k + 0x100 * b, 29, 1⟩
def CFk_TBb_CTL_DLC (k b : Nat) : Fld := ⟨0x500104 + 0x8000 * k + 0x100 * b, 0, 4⟩
def CFk_TBb_CTL_FDF (k b : Nat) : Fld := ⟨0x500104 + 0x8000 * k + 0x100 * b, 4, 1⟩
def CFk_TBb_CTL_BRS (k b : Nat) : Fld := ⟨0x500104 + 0x8000 * k + 0x100 * b, 5, 1⟩
def CFk_TBb_CTL_RTR (k b : Nat) : Fld := ⟨0x500104 + 0x8000 * k + 0x100 * b, 6, 1⟩
def CFk_TBb_CTL_ONESHOT (k b : Nat) : Fld := ⟨0x500104 + 0x8000 * k + 0x100 * b, 7, 1⟩
def CFk_TBb_CTL_LTEN (k b : Nat) : Fld := ⟨0x500104 + 0x8000 * k + 0x100 * b, 8, 1⟩
def CFk_TBb_STAT_STATUS (k b : Nat) : Fld := ⟨0x500108 + 0x8000 * k + 0x100 * b, 0, 4⟩
def CFk_TBb_STAT_CANOUT (k b : Nat) : Fld := ⟨0x500108 + 0x8000 * k + 0x100 * b, 4, 2⟩
def CFk_TBb_STAT_LOUT (k b : Nat) : Fld := ⟨0x500108 + 0x8000 * k + 0x100 * b, 6, 2⟩
def CFk_TBb_TS_STAMP (k b : Nat) : Fld := ⟨0x50010c + 0x8000 * k + 0x100 * b, 0, 32⟩
def CFk_TBb_LTS_SEC (k b : Nat) : Fld := ⟨0x500110 + 0x8000 * k + 0x100 * b, 0, 32⟩
def CFk_TBb_LTNS_NS (k b : Nat) : Fld := ⟨0x500114 + 0x8000 * k + 0x100 * b, 0, 30⟩
def CFk_TBb_LTOL_US (k b : Nat) : Fld := ⟨0x500118 + 0x8000 * k + 0x100 * b, 0, 20⟩
def CFk_TBb_DATAi_DATA (k b i : Nat) : Fld := ⟨0x500140 + 0x8000 * k + 0x100 * b + 0x4 * i, 0, 32⟩
def CFk_FIDf_FID (k f : Nat) : Fld := ⟨0x500400 + 0x8000 * k + 0x10 * f, 0, 29⟩
def CFk_FMASKf_MASK (k f : Nat) : Fld := ⟨0x500404 + 0x8000 * k + 0x10 * f, 0, 29⟩
def CFk_FCFGf_EN (k f : Nat) : Fld := ⟨0x500408 + 0x8000 * k + 0x10 * f, 0, 1⟩
def CFk_FCFGf_IDE (k f : Nat) : Fld := ⟨0x500408 + 0x8000 * k + 0x10 * f, 1, 2⟩
def CFk_FCFGf_REJECT (k f : Nat) : Fld := ⟨0x500408 + 0x8000 * k + 0x10 * f, 3, 1⟩
def CFk_FCFGf_RTRACC (k f : Nat) : Fld := ⟨0x500408 + 0x8000 * k + 0x10 * f, 4, 1⟩
def US_SCTL_ENABLE : Fld := ⟨0x600000, 0, 1⟩
def US_SSTAT_STATE : Fld := ⟨0x600004, 0, 3⟩
def US_SSTAT_HS : Fld := ⟨0x600004, 3, 1⟩
def US_SSTAT_ADDR : Fld := ⟨0x600004, 4, 7⟩
def US_SSTAT_RWEN : Fld := ⟨0x600004, 11, 1⟩
def US_SSTAT_VBUS : Fld := ⟨0x600004, 12, 1⟩
def US_SOF_FRAME : Fld := ⟨0x600008, 0, 11⟩
def US_SOF_UFRAME : Fld := ⟨0x600008, 11, 3⟩
def US_SOF_SOFVALID : Fld := ⟨0x600008, 14, 1⟩
def US_SOFTICK_TICK : Fld := ⟨0x60000c, 0, 32⟩
def US_WAKE_PEND : Fld := ⟨0x600010, 0, 1⟩
def US_WAKE_WAKEOUT : Fld := ⟨0x600010, 1, 2⟩
def US_WAKE_CAUSE : Fld := ⟨0x600010, 3, 1⟩
def US_CSTAT_RSTOUT : Fld := ⟨0x600014, 0, 2⟩
def US_RESETS_COUNT : Fld := ⟨0x600040, 0, 32⟩
def US_RSTABORT_COUNT : Fld := ⟨0x600044, 0, 32⟩
def US_SUSPENDS_COUNT : Fld := ⟨0x600048, 0, 32⟩
def US_WAKES_COUNT : Fld := ⟨0x60004c, 0, 32⟩
def US_BULKDISC_COUNT : Fld := ⟨0x600050, 0, 32⟩
def US_NOTELOST_COUNT : Fld := ⟨0x600054, 0, 32⟩
def US_FPn_CTL_ENABLE (n : Nat) : Fld := ⟨0x601000 + 0x100 * n, 0, 1⟩
def US_FPn_CTL_POWER (n : Nat) : Fld := ⟨0x601000 + 0x100 * n, 1, 1⟩
def US_FPn_CTL_RETRIES (n : Nat) : Fld := ⟨0x601000 + 0x100 * n, 2, 3⟩
def US_FPn_CFG_EQPRI (n : Nat) : Fld := ⟨0x601004 + 0x100 * n, 0, 3⟩
def US_FPn_CFG_GAP (n : Nat) : Fld := ⟨0x601004 + 0x100 * n, 4, 8⟩
def US_FPn_STAT_STATE (n : Nat) : Fld := ⟨0x601008 + 0x100 * n, 0, 3⟩
def US_FPn_STAT_SPEED (n : Nat) : Fld := ⟨0x601008 + 0x100 * n, 3, 2⟩
def US_FPn_STAT_DRIVER (n : Nat) : Fld := ⟨0x601008 + 0x100 * n, 5, 3⟩
def US_FPn_ID_VID (n : Nat) : Fld := ⟨0x60100c + 0x100 * n, 0, 16⟩
def US_FPn_ID_PID (n : Nat) : Fld := ⟨0x60100c + 0x100 * n, 16, 16⟩
def US_FPn_LINE_BAUD (n : Nat) : Fld := ⟨0x601010 + 0x100 * n, 0, 24⟩
def US_FPn_LINE_FORMAT (n : Nat) : Fld := ⟨0x601010 + 0x100 * n, 24, 2⟩
def US_FPn_TXCTL_LEN (n : Nat) : Fld := ⟨0x601014 + 0x100 * n, 0, 7⟩
def US_FPn_TXCTL_GO (n : Nat) : Fld := ⟨0x601014 + 0x100 * n, 8, 1⟩
def US_FPn_TXCTL_BUSY (n : Nat) : Fld := ⟨0x601014 + 0x100 * n, 9, 1⟩
def US_FPn_TXCTL_TXERR (n : Nat) : Fld := ⟨0x601014 + 0x100 * n, 10, 1⟩
def US_FPn_TXDi_DATA (n i : Nat) : Fld := ⟨0x601040 + 0x100 * n + 0x4 * i, 0, 32⟩
def US_FPn_CODES_COUNT (n : Nat) : Fld := ⟨0x601080 + 0x100 * n, 0, 32⟩
def US_FPn_TRUNC_COUNT (n : Nat) : Fld := ⟨0x601084 + 0x100 * n, 0, 32⟩
def US_FPn_OC_COUNT (n : Nat) : Fld := ⟨0x601088 + 0x100 * n, 0, 32⟩
def US_FPn_XERR_COUNT (n : Nat) : Fld := ⟨0x60108c + 0x100 * n, 0, 32⟩
def EQ_PUSHi_WORD (i : Nat) : Fld := ⟨0x800000 + 0x4 * i, 0, 32⟩
def EQ_POP0_WORD : Fld := ⟨0x800010, 0, 32⟩
def EQ_POPj_WORD (j : Nat) : Fld := ⟨0x800010 + 0x4 * j, 0, 32⟩
def EQ_STAT_OCC : Fld := ⟨0x800020, 0, 13⟩
def EQ_STAT_HWMACT : Fld := ⟨0x800020, 13, 1⟩
def EQ_STAT_NE : Fld := ⟨0x800020, 14, 1⟩
def EQ_STAT_PUSHREF : Fld := ⟨0x800020, 15, 1⟩
def EQ_STAT_LOCAL : Fld := ⟨0x800020, 16, 13⟩
def EQ_MARKS_HWM : Fld := ⟨0x800024, 0, 13⟩
def EQ_MARKS_LWM : Fld := ⟨0x800024, 16, 13⟩
def EQ_PEAK_OCC : Fld := ⟨0x800028, 0, 13⟩
def EQ_LOST_COUNT : Fld := ⟨0x800040, 0, 32⟩
def EQ_POISON_COUNT : Fld := ⟨0x800044, 0, 32⟩
def EQ_PUSHREF_COUNT : Fld := ⟨0x800048, 0, 32⟩
def EQ_MERGED_COUNT : Fld := ⟨0x80004c, 0, 32⟩
def EQ_RINGCELL_COUNT : Fld := ⟨0x800050, 0, 32⟩
def EQ_NORING_COUNT : Fld := ⟨0x800054, 0, 32⟩
def EQ_LOSTSRC_SRC : Fld := ⟨0x800060, 0, 16⟩
def EQ_RTs_MODE (s : Nat) : Fld := ⟨0x800100 + 0x4 * s, 0, 2⟩
def EQ_RTs_PRI (s : Nat) : Fld := ⟨0x800100 + 0x4 * s, 2, 3⟩
def EQ_RTs_DNODE (s : Nat) : Fld := ⟨0x800100 + 0x4 * s, 8, 12⟩
def EQ_RTs_DRING (s : Nat) : Fld := ⟨0x800100 + 0x4 * s, 20, 4⟩
def PW_INSTAT_STATE : Fld := ⟨0x900000, 0, 3⟩
def PW_INSTAT_PG : Fld := ⟨0x900000, 3, 1⟩
def PW_INSTAT_SEAT : Fld := ⟨0x900000, 4, 2⟩
def PW_INSTAT_LIMIT : Fld := ⟨0x900000, 6, 2⟩
def PW_INSTAT_CAUSE : Fld := ⟨0x900000, 8, 4⟩
def PW_INSTAT_QOUT : Fld := ⟨0x900000, 12, 2⟩
def PW_INSTAT_RETRYN : Fld := ⟨0x900000, 16, 3⟩
def PW_INCFG_ILIM : Fld := ⟨0x900004, 0, 12⟩
def PW_INCFG_DVDT : Fld := ⟨0x900004, 12, 8⟩
def PW_INCFG_POLICY : Fld := ⟨0x900004, 20, 1⟩
def PW_INCFG_RETRIES : Fld := ⟨0x900004, 21, 3⟩
def PW_INTIM_FLT : Fld := ⟨0x900008, 0, 9⟩
def PW_INTIM_SOAT : Fld := ⟨0x900008, 16, 9⟩
def PW_INPWR_PLIM : Fld := ⟨0x90000c, 0, 10⟩
def PW_INPWR_RSENSE : Fld := ⟨0x90000c, 16, 16⟩
def PW_INVTH_UV : Fld := ⟨0x900010, 0, 10⟩
def PW_INVTH_OV : Fld := ⟨0x900010, 16, 10⟩
def PW_PFWCFG_TH : Fld := ⟨0x900014, 0, 10⟩
def PW_PFWCFG_SHED : Fld := ⟨0x900014, 16, 8⟩
def PW_PFWSTAT_ACTIVE : Fld := ⟨0x900018, 0, 1⟩
def PW_ADCc_VALUE (c : Nat) : Fld := ⟨0x900040 + 0x4 * c, 0, 16⟩
def PW_ADCc_PEAK (c : Nat) : Fld := ⟨0x900040 + 0x4 * c, 16, 16⟩
def PW_LATE_COUNT : Fld := ⟨0x900080, 0, 32⟩
def PW_INFAULTS_COUNT : Fld := ⟨0x900084, 0, 32⟩
def PW_LIMITS_COUNT : Fld := ⟨0x900088, 0, 32⟩
def PW_PFWS_COUNT : Fld := ⟨0x90008c, 0, 32⟩
def PW_OWN_OWNER : Fld := ⟨0x9000c0, 0, 1⟩
def PW_OWN_TAKING : Fld := ⟨0x9000c0, 1, 1⟩
def PW_OWN_HANDOUT : Fld := ⟨0x9000c0, 2, 2⟩
def PW_Bb_CTL_ON (b : Nat) : Fld := ⟨0x900100 + 0x40 * b, 0, 1⟩
def PW_Bb_CTL_RETRIES (b : Nat) : Fld := ⟨0x900100 + 0x40 * b, 1, 3⟩
def PW_Bb_CTL_RDELAY (b : Nat) : Fld := ⟨0x900100 + 0x40 * b, 4, 8⟩
def PW_Bb_CTL_LOADCURVE (b : Nat) : Fld := ⟨0x900100 + 0x40 * b, 12, 1⟩
def PW_Bb_STAT_STATE (b : Nat) : Fld := ⟨0x900104 + 0x40 * b, 0, 2⟩
def PW_Bb_STAT_CAUSE (b : Nat) : Fld := ⟨0x900104 + 0x40 * b, 2, 3⟩
def PW_Bb_STAT_STUCK (b : Nat) : Fld := ⟨0x900104 + 0x40 * b, 5, 1⟩
def PW_Bb_STAT_RETRYN (b : Nat) : Fld := ⟨0x900104 + 0x40 * b, 6, 3⟩
def PW_Bb_STAT_HEAT (b : Nat) : Fld := ⟨0x900104 + 0x40 * b, 9, 21⟩
def PW_Bb_LIM_IINST (b : Nat) : Fld := ⟨0x900108 + 0x40 * b, 0, 16⟩
def PW_Bb_LIM_COOL (b : Nat) : Fld := ⟨0x900108 + 0x40 * b, 16, 12⟩
def PW_Bb_RSENSE_RSENSE (b : Nat) : Fld := ⟨0x90010c + 0x40 * b, 0, 16⟩
def PW_Bb_TRIPS_COUNT (b : Nat) : Fld := ⟨0x900110 + 0x40 * b, 0, 32⟩
def PW_Bb_CURVEk_I (b k : Nat) : Fld := ⟨0x900120 + 0x40 * b + 0x4 * k, 0, 16⟩
def PW_Bb_CURVEk_M (b k : Nat) : Fld := ⟨0x900120 + 0x40 * b + 0x4 * k, 16, 12⟩
def PW_Bb_CURVEk_E (b k : Nat) : Fld := ⟨0x900120 + 0x40 * b + 0x4 * k, 28, 4⟩
def NC_SPSTAT_CUR : Fld := ⟨0x400, 0, 2⟩
def NC_SPSTAT_TGT : Fld := ⟨0x400, 2, 2⟩
def NC_SPSTAT_CHANGING : Fld := ⟨0x400, 4, 1⟩
def NC_SPSTAT_THERMAL : Fld := ⟨0x400, 5, 1⟩
def NC_PACE_SC : Fld := ⟨0x404, 0, 13⟩
def NC_PACE_SLOWEST : Fld := ⟨0x404, 13, 3⟩
def NC_AVS_VCORE : Fld := ⟨0x408, 0, 10⟩
def NC_AVS_CEIL : Fld := ⟨0x408, 10, 1⟩
def NC_AVS_AVSFAULT : Fld := ⟨0x408, 11, 1⟩
def NC_TEMP_TJ : Fld := ⟨0x40c, 0, 11⟩
def NC_PLLSTAT_LOST : Fld := ⟨0x410, 0, 6⟩
def NC_PLLSTAT_REFLOSS : Fld := ⟨0x410, 6, 1⟩
def NC_RSTREQ_KEY : Fld := ⟨0x420, 0, 32⟩
def NC_URST_CAN : Fld := ⟨0x424, 0, 8⟩
def NC_URST_FIELDHUB : Fld := ⟨0x424, 8, 1⟩
def NC_URST_SVC : Fld := ⟨0x424, 9, 1⟩
def NC_URST_BRIDGE : Fld := ⟨0x424, 10, 1⟩
def NC_URST_TIME : Fld := ⟨0x424, 11, 1⟩
def NC_URST_UPLINK : Fld := ⟨0x424, 12, 1⟩
def NC_WRST_BASKET : Fld := ⟨0x428, 0, 16⟩
def NC_ERST_EDGE : Fld := ⟨0x42c, 0, 16⟩
def PW_SEQ_STEP : Fld := ⟨0x900400, 0, 4⟩
def PW_SEQ_CORE : Fld := ⟨0x900400, 4, 1⟩
def PW_SEQ_PGOUT : Fld := ⟨0x900400, 5, 2⟩
def PW_SEQ_FAILGRP : Fld := ⟨0x900400, 7, 3⟩
def PW_SEQ_TRIES : Fld := ⟨0x900400, 10, 2⟩
def PW_SEQCFG_SEQTO : Fld := ⟨0x900404, 0, 12⟩
def PW_RSTCAUSE_AONPOR : Fld := ⟨0x900408, 0, 1⟩
def PW_RSTCAUSE_PIN : Fld := ⟨0x900408, 1, 1⟩
def PW_RSTCAUSE_WARM : Fld := ⟨0x900408, 2, 1⟩
def PW_RSTCAUSE_RING : Fld := ⟨0x900408, 3, 1⟩
def PW_RSTCAUSE_SEQFAIL : Fld := ⟨0x900408, 4, 1⟩
def PW_RSTCAUSE_REFLOSS : Fld := ⟨0x900408, 5, 1⟩
def PW_RSTCAUSE_STOP : Fld := ⟨0x900408, 6, 1⟩
def PW_RSTCAUSE_PGLOSS : Fld := ⟨0x900408, 7, 1⟩
def MT_CFG_CKINT : Fld := ⟨0xa00000, 0, 10⟩
def MT_CFG_FULLPER : Fld := ⟨0xa00000, 16, 7⟩
def MT_CFG_RESUME : Fld := ⟨0xa00000, 24, 1⟩
def MT_CFG_PROVE : Fld := ⟨0xa00000, 25, 1⟩
def MT_PROVE_PERIOD : Fld := ⟨0xa00004, 0, 16⟩
def MT_STAT_ROLE : Fld := ⟨0xa00008, 0, 2⟩
def MT_STAT_OWNER : Fld := ⟨0xa00008, 2, 1⟩
def MT_STAT_MATEPRES : Fld := ⟨0xa00008, 3, 1⟩
def MT_STAT_SLOT : Fld := ⟨0xa00008, 4, 1⟩
def MT_STAT_SLOTERR : Fld := ⟨0xa00008, 5, 1⟩
def MT_STAT_HBOUT : Fld := ⟨0xa00008, 6, 2⟩
def MT_STAT_TKOUT : Fld := ⟨0xa00008, 8, 2⟩
def MT_STAT_LINEFAULT : Fld := ⟨0xa00008, 10, 1⟩
def MT_STAT_CKFAULT : Fld := ⟨0xa00008, 11, 1⟩
def MT_MATE_MSTATE : Fld := ⟨0xa0000c, 0, 2⟩
def MT_MATE_MREADY : Fld := ⟨0xa0000c, 2, 1⟩
def MT_MATE_MPRRES : Fld := ⟨0xa0000c, 8, 8⟩
def MT_CKSTAT_SLOT : Fld := ⟨0xa00010, 0, 3⟩
def MT_CKSTAT_HALF : Fld := ⟨0xa00010, 3, 1⟩
def MT_CKSTAT_LASTKIND : Fld := ⟨0xa00010, 4, 2⟩
def MT_CKSTAT_WRFAIL : Fld := ⟨0xa00010, 6, 1⟩
def MT_CKSEQ_CKSEQ : Fld := ⟨0xa00014, 0, 32⟩
def MT_PRSTAT_FAIL : Fld := ⟨0xa00018, 0, 7⟩
def MT_PRSTAT_VALID : Fld := ⟨0xa00018, 7, 1⟩
def MT_PRSTAT_PRCOUNT : Fld := ⟨0xa00018, 8, 8⟩
def MT_TKTIME_US : Fld := ⟨0xa0001c, 0, 32⟩
def MT_LATE_COUNT : Fld := ⟨0xa00040, 0, 32⟩
def MT_LINEERR_COUNT : Fld := ⟨0xa00044, 0, 32⟩
def MT_TAKEOVERS_COUNT : Fld := ⟨0xa00048, 0, 32⟩
def MT_BLOCKED_COUNT : Fld := ⟨0xa0004c, 0, 32⟩
def MT_CKFAIL_COUNT : Fld := ⟨0xa00050, 0, 32⟩
def MT_REPSKIP_COUNT : Fld := ⟨0xa00054, 0, 32⟩
def NC_DEVID_DEVICE : Fld := ⟨0x0, 0, 16⟩
def NC_DEVID_STEP : Fld := ⟨0x0, 16, 4⟩
def NC_MODE_SPEED : Fld := ⟨0x4, 0, 2⟩
def NC_MODE_POLICY : Fld := ⟨0x4, 2, 1⟩
def NC_CMDi_WORD (i : Nat) : Fld := ⟨0x100 + 0x4 * i, 0, 32⟩
def NC_CMDSTAT_CODE : Fld := ⟨0x120, 0, 16⟩
def NC_CMDSTAT_RESULT : Fld := ⟨0x120, 16, 16⟩
def NC_CMDSEQL_SEQ : Fld := ⟨0x124, 0, 32⟩
def NC_CMDSEQH_SEQ : Fld := ⟨0x128, 0, 32⟩
def NC_CMDTAG_TAG : Fld := ⟨0x12c, 0, 16⟩
def NC_CMDQ_DEPTH : Fld := ⟨0x130, 0, 4⟩
def NC_CMDREF_COUNT : Fld := ⟨0x140, 0, 32⟩
def NC_ALARM_ALARM : Fld := ⟨0x200, 0, 12⟩
def NC_ALMCOND_COND : Fld := ⟨0x204, 0, 12⟩
def NC_DEBUG_UNLOCKED : Fld := ⟨0x300, 0, 1⟩
def NC_DEBUG_FUSED : Fld := ⟨0x300, 1, 1⟩
def NC_DEBUG_MINUTES : Fld := ⟨0x300, 16, 11⟩
def NC_FTXD0_LEN : Fld := ⟨0x600, 0, 14⟩
def NC_FTXD0_EPORT : Fld := ⟨0x600, 16, 4⟩
def NC_FTXD0_TC : Fld := ⟨0x600, 20, 3⟩
def NC_FTXD0_TSREQ : Fld := ⟨0x600, 24, 1⟩
def NC_FTXD0_LAUNCH : Fld := ⟨0x600, 25, 1⟩
def NC_FTXD1_SEC : Fld := ⟨0x604, 0, 32⟩
def NC_FTXD2_NS : Fld := ⟨0x608, 0, 30⟩
def NC_FTXD3_TOL : Fld := ⟨0x60c, 0, 32⟩
def NC_FTXSTAT_BUSY : Fld := ⟨0x610, 0, 1⟩
def NC_FTXSTAT_DROPPED : Fld := ⟨0x610, 1, 1⟩
def NC_FTXBUFi_DATA (i : Nat) : Fld := ⟨0x1000 + 0x4 * i, 0, 32⟩
def TL_HEADL_SEQ : Fld := ⟨0xb00000, 0, 32⟩
def TL_HEADH_SEQ : Fld := ⟨0xb00004, 0, 32⟩
def TL_TAILL_SEQ : Fld := ⟨0xb00008, 0, 32⟩
def TL_TAILH_SEQ : Fld := ⟨0xb0000c, 0, 32⟩
def TL_FETCH_COUNT : Fld := ⟨0xb00010, 0, 9⟩
def TL_FETCH_BUSY : Fld := ⟨0xb00010, 9, 1⟩
def TL_FETCHL_SEQ : Fld := ⟨0xb00014, 0, 32⟩
def TL_FETCHH_SEQ : Fld := ⟨0xb00018, 0, 32⟩
def TL_STORE_PRESENT : Fld := ⟨0xb0001c, 0, 1⟩
def TL_LOST_COUNT : Fld := ⟨0xb00040, 0, 32⟩
def TL_FBi_w_WORD (i w : Nat) : Fld := ⟨0xb02000 + 0x20 * i + 0x4 * w, 0, 32⟩
def TL_WINk_w_WORD (k w : Nat) : Fld := ⟨0xb08000 + 0x20 * k + 0x4 * w, 0, 32⟩
def FW_STAT_STATE : Fld := ⟨0xc00000, 0, 2⟩
def FW_STAT_COMP : Fld := ⟨0xc00000, 2, 3⟩
def FW_STAT_RECOVERY : Fld := ⟨0xc00000, 5, 1⟩
def FW_STAT_FALLBACK : Fld := ⟨0xc00000, 6, 1⟩
def FW_STAT_MATRIX : Fld := ⟨0xc00000, 7, 1⟩
def FW_STAT_MFWSLOT : Fld := ⟨0xc00000, 8, 1⟩
def FW_STAT_TRIAL : Fld := ⟨0xc00000, 9, 1⟩
def FW_SESSION_SESSION : Fld := ⟨0xc00004, 0, 32⟩
def FW_TOTAL_TOTAL : Fld := ⟨0xc00008, 0, 32⟩
def FW_PROG_COUNT : Fld := ⟨0xc0000c, 0, 16⟩
def FW_PROG_FIRSTGAP : Fld := ⟨0xc0000c, 16, 16⟩
def FW_ERR_CODE : Fld := ⟨0xc00010, 0, 4⟩
def FW_ERR_COMP : Fld := ⟨0xc00010, 4, 3⟩
def FW_ERR_OTHER : Fld := ⟨0xc00010, 7, 3⟩
def FW_ERR_SIDE : Fld := ⟨0xc00010, 10, 1⟩
def FW_ERR_BLOCK : Fld := ⟨0xc00010, 16, 16⟩
def FW_ERRVAL_VERSION : Fld := ⟨0xc00014, 0, 32⟩
def FW_RUNc_VERSION (c : Nat) : Fld := ⟨0xc00040 + 0x4 * c, 0, 32⟩
def FW_SHELF_HELD : Fld := ⟨0xc00060, 1, 5⟩
def FW_BLKBUFi_DATA (i : Nat) : Fld := ⟨0xc01000 + 0x4 * i, 0, 32⟩
def BX_IEN_PERR : Fld := ⟨0x70000c, 0, 1⟩
def BX_IEN_PERRLOST : Fld := ⟨0x70000c, 1, 1⟩
def BX_IEN_DRDISC : Fld := ⟨0x70000c, 2, 1⟩
def BX_IEN_WAITOUT : Fld := ⟨0x70000c, 3, 1⟩
def BX_IEN_LXBERR : Fld := ⟨0x70000c, 4, 1⟩

end Sys2Proof.Machine.F
end

