-- ==== Sys2Proof/Machine/RegMap.lean ====
section
/-! DEFINITION. The register map: every register of the classes 0x00 to 0x0D with its offset, its fields, each field's
access code, reset value and permitted values, as the register tables of the spec give them (R8, R11, R26). -/

namespace Sys2Proof.Machine

/-- The access codes of R8. -/
inductive Acc where
  | ro | rw | w1c | w1s | wo | rc | rwl
  deriving DecidableEq, Repr

/-- Where a field's reset value comes from: a plain value of the Reset column (R11), "AON v" (R350), "weave" (the value given is
then the bare one, R69), or the fuses ("OTP", R72). -/
inductive RstSrc where
  | plain | aon | weave | otp
  deriving DecidableEq, Repr

/-- A field of a register table: lowest bit, width, access, source of its reset value, that value, and the values a write may give it
(intervals; none listed: every value). -/
structure FieldSpec where
  lo : Nat
  width : Nat
  acc : Acc
  src : RstSrc
  rst : Nat
  rng : List (Nat × Nat)
  deriving DecidableEq, Repr

/-- A register, or an array of registers: for each index its first value, its count and its stride. -/
structure Fam where
  id : RegId
  base : Nat
  dims : List (Nat × Nat × Nat)
  fields : List FieldSpec
  deriving DecidableEq, Repr

/-- Registers of class 0x0. -/
def ncMap0 : List Fam := [
  ⟨.NC_SPSTAT, 0x400, [], [⟨0, 2, .ro, .plain, 1, []⟩, ⟨2, 2, .ro, .plain, 1, []⟩, ⟨4, 1, .ro, .plain, 0, []⟩, ⟨5, 1, .ro, .plain, 0, []⟩]⟩,
  ⟨.NC_PACE, 0x404, [], [⟨0, 13, .ro, .plain, 0, []⟩, ⟨13, 3, .ro, .plain, 0, []⟩]⟩,
  ⟨.NC_AVS, 0x408, [], [⟨0, 10, .ro, .plain, 800, []⟩, ⟨10, 1, .ro, .plain, 0, []⟩, ⟨11, 1, .ro, .plain, 0, []⟩]⟩,
  ⟨.NC_TEMP, 0x40c, [], [⟨0, 11, .ro, .plain, 0, []⟩]⟩,
  ⟨.NC_PLLSTAT, 0x410, [], [⟨0, 6, .w1c, .plain, 0, []⟩, ⟨6, 1, .w1c, .plain, 0, []⟩]⟩,
  ⟨.NC_RSTREQ, 0x420, [], [⟨0, 32, .wo, .plain, 0, []⟩]⟩,
  ⟨.NC_URST, 0x424, [], [⟨0, 8, .wo, .plain, 0, []⟩, ⟨8, 1, .wo, .plain, 0, []⟩, ⟨9, 1, .wo, .plain, 0, []⟩, ⟨10, 1, .wo, .plain, 0, []⟩, ⟨11, 1, .wo, .plain, 0, []⟩, ⟨12, 1, .wo, .plain, 0, []⟩]⟩,
  ⟨.NC_WRST, 0x428, [], [⟨0, 16, .wo, .plain, 0, []⟩]⟩,
  ⟨.NC_ERST, 0x42c, [], [⟨0, 16, .wo, .plain, 0, []⟩]⟩,
  ⟨.NC_DEVID, 0x0, [], [⟨0, 16, .ro, .plain, 4744, []⟩, ⟨16, 4, .ro, .plain, 2, []⟩]⟩,
  ⟨.NC_MODE, 0x4, [], [⟨0, 2, .rw, .weave, 1, [(0, 2)]⟩, ⟨2, 1, .rw, .weave, 0, []⟩]⟩,
  ⟨.NC_CMDi, 0x100, [(0, 8, 0x4)], [⟨0, 32, .wo, .plain, 0, []⟩]⟩,
  ⟨.NC_CMDSTAT, 0x120, [], [⟨0, 16, .ro, .plain, 0, []⟩, ⟨16, 16, .ro, .plain, 0, []⟩]⟩,
  ⟨.NC_CMDSEQL, 0x124, [], [⟨0, 32, .ro, .plain, 0, []⟩]⟩,
  ⟨.NC_CMDSEQH, 0x128, [], [⟨0, 32, .ro, .plain, 0, []⟩]⟩,
  ⟨.NC_CMDTAG, 0x12c, [], [⟨0, 16, .ro, .plain, 0, []⟩]⟩,
  ⟨.NC_CMDQ, 0x130, [], [⟨0, 4, .ro, .plain, 0, []⟩]⟩,
  ⟨.NC_CMDREF, 0x140, [], [⟨0, 32, .rc, .plain, 0, []⟩]⟩,
  ⟨.NC_ALARM, 0x200, [], [⟨0, 12, .w1c, .plain, 0, []⟩]⟩,
  ⟨.NC_ALMCOND, 0x204, [], [⟨0, 12, .ro, .plain, 0, []⟩]⟩,
  ⟨.NC_DEBUG, 0x300, [], [⟨0, 1, .ro, .plain, 0, []⟩, ⟨1, 1, .ro, .otp, 0, []⟩, ⟨16, 11, .ro, .plain, 0, []⟩]⟩,
  ⟨.NC_FTXD0, 0x600, [], [⟨0, 14, .wo, .plain, 0, [(60, 9212)]⟩, ⟨16, 4, .wo, .plain, 0, []⟩, ⟨20, 3, .wo, .plain, 0, []⟩, ⟨24, 1, .wo, .plain, 0, []⟩, ⟨25, 1, .wo, .plain, 0, []⟩]⟩,
  ⟨.NC_FTXD1, 0x604, [], [⟨0, 32, .wo, .plain, 0, []⟩]⟩,
  ⟨.NC_FTXD2, 0x608, [], [⟨0, 30, .wo, .plain, 0, []⟩]⟩,
  ⟨.NC_FTXD3, 0x60c, [], [⟨0, 32, .wo, .plain, 0, [(0, 1000000000)]⟩]⟩
]

/-- Registers of class 0x0. -/
def ncMap1 : List Fam := [
  ⟨.NC_FTXSTAT, 0x610, [], [⟨0, 1, .ro, .plain, 0, []⟩, ⟨1, 1, .w1c, .plain, 0, []⟩]⟩,
  ⟨.NC_FTXBUFi, 0x1000, [(0, 2304, 0x4)], [⟨0, 32, .wo, .plain, 0, []⟩]⟩
]

/-- The registers of class 0x0. -/
def ncMap : List Fam := ncMap0 ++ ncMap1

/-- Registers of class 0x1. -/
def rgMap0 : List Fam := [
  ⟨.RGp_CTL, 0x0, [(0, 3, 0x1000)], [⟨0, 1, .rw, .weave, 1, []⟩, ⟨1, 1, .rw, .weave, 0, []⟩, ⟨2, 1, .rw, .weave, 0, []⟩, ⟨3, 1, .rw, .weave, 0, []⟩, ⟨4, 1, .wo, .plain, 0, []⟩]⟩,
  ⟨.RGp_LSTAT, 0x4, [(0, 3, 0x1000)], [⟨0, 3, .ro, .plain, 0, []⟩, ⟨3, 1, .ro, .plain, 0, []⟩, ⟨4, 1, .ro, .plain, 0, []⟩, ⟨5, 1, .ro, .plain, 0, []⟩, ⟨6, 1, .ro, .plain, 0, []⟩, ⟨7, 1, .ro, .plain, 0, []⟩, ⟨8, 4, .ro, .plain, 0, []⟩, ⟨12, 2, .ro, .plain, 0, []⟩, ⟨14, 1, .ro, .plain, 0, []⟩, ⟨15, 1, .ro, .plain, 0, []⟩, ⟨16, 1, .ro, .plain, 0, []⟩]⟩,
  ⟨.RGp_TIMERS, 0x8, [(0, 3, 0x1000)], [⟨0, 16, .rw, .weave, 1000, [(100, 50000)]⟩, ⟨16, 8, .rw, .weave, 100, [(1, 255)]⟩]⟩,
  ⟨.RGp_PEERL, 0xc, [(0, 3, 0x1000)], [⟨0, 32, .ro, .plain, 0, []⟩]⟩,
  ⟨.RGp_PEERH, 0x10, [(0, 3, 0x1000)], [⟨0, 32, .ro, .plain, 0, []⟩]⟩,
  ⟨.RGp_PEERADR, 0x14, [(0, 3, 0x1000)], [⟨0, 16, .ro, .plain, 0, []⟩, ⟨16, 1, .ro, .plain, 0, []⟩]⟩,
  ⟨.RGp_QUOTAi, 0x20, [(0, 2, 0x1000), (0, 4, 0x4)], [⟨0, 16, .rw, .weave, 0, []⟩, ⟨16, 16, .rw, .weave, 0, []⟩]⟩,
  ⟨.RGp_TRANSIT, 0x30, [(0, 2, 0x1000)], [⟨0, 9, .ro, .plain, 0, []⟩, ⟨16, 9, .rc, .plain, 0, []⟩]⟩,
  ⟨.RGp_RXCELL, 0x40, [(0, 3, 0x1000)], [⟨0, 32, .rc, .plain, 0, []⟩]⟩,
  ⟨.RGp_TXCELL, 0x44, [(0, 3, 0x1000)], [⟨0, 32, .rc, .plain, 0, []⟩]⟩,
  ⟨.RGp_INSERT, 0x48, [(0, 2, 0x1000)], [⟨0, 32, .rc, .plain, 0, []⟩]⟩,
  ⟨.RGp_GAPINS, 0x4c, [(0, 2, 0x1000)], [⟨0, 32, .rc, .plain, 0, []⟩]⟩,
  ⟨.RGp_HECERR, 0x50, [(0, 3, 0x1000)], [⟨0, 32, .rc, .plain, 0, []⟩]⟩,
  ⟨.RGp_CRCERR, 0x54, [(0, 3, 0x1000)], [⟨0, 32, .rc, .plain, 0, []⟩]⟩,
  ⟨.RGp_RXSTOMP, 0x58, [(0, 3, 0x1000)], [⟨0, 32, .rc, .plain, 0, []⟩]⟩,
  ⟨.RGp_BADCELL, 0x5c, [(0, 3, 0x1000)], [⟨0, 32, .rc, .plain, 0, []⟩]⟩,
  ⟨.RGp_HOPDROP, 0x60, [(0, 2, 0x1000)], [⟨0, 32, .rc, .plain, 0, []⟩]⟩,
  ⟨.RGp_NODEST, 0x64, [(0, 2, 0x1000)], [⟨0, 32, .rc, .plain, 0, []⟩]⟩,
  ⟨.RGp_TDROP, 0x68, [(0, 2, 0x1000)], [⟨0, 32, .rc, .plain, 0, []⟩]⟩,
  ⟨.RGp_TOVER, 0x6c, [(0, 2, 0x1000)], [⟨0, 32, .rc, .plain, 0, []⟩]⟩,
  ⟨.RGp_FAULTS, 0x70, [(0, 3, 0x1000)], [⟨0, 32, .rc, .plain, 0, []⟩]⟩,
  ⟨.RGp_LATE, 0x74, [(0, 3, 0x1000)], [⟨0, 32, .rc, .plain, 0, []⟩]⟩,
  ⟨.RGp_FECCOR, 0x78, [(0, 3, 0x1000)], [⟨0, 32, .rc, .plain, 0, []⟩]⟩,
  ⟨.RGp_FECUNC, 0x7c, [(0, 3, 0x1000)], [⟨0, 32, .rc, .plain, 0, []⟩]⟩,
  ⟨.RGp_OPT0, 0x80, [(0, 2, 0x1000)], [⟨0, 16, .ro, .plain, 0, []⟩, ⟨16, 16, .ro, .plain, 0, []⟩]⟩
]

/-- Registers of class 0x1. -/
def rgMap1 : List Fam := [
  ⟨.RGp_OPT1, 0x84, [(0, 2, 0x1000)], [⟨0, 16, .ro, .plain, 0, []⟩, ⟨16, 16, .ro, .plain, 0, []⟩]⟩,
  ⟨.RGp_OPT2, 0x88, [(0, 2, 0x1000)], [⟨0, 16, .ro, .plain, 0, []⟩, ⟨16, 1, .ro, .plain, 0, []⟩]⟩,
  ⟨.RGp_I2C, 0x8c, [(0, 2, 0x1000)], [⟨0, 8, .rw, .plain, 0, []⟩, ⟨8, 1, .rw, .plain, 0, []⟩, ⟨9, 1, .rw, .plain, 0, []⟩, ⟨16, 8, .rw, .plain, 0, []⟩, ⟨30, 1, .ro, .plain, 0, []⟩, ⟨31, 1, .w1s, .plain, 0, []⟩]⟩,
  ⟨.RGp_I2CDAT, 0x90, [(0, 2, 0x1000)], [⟨0, 8, .ro, .plain, 0, []⟩]⟩,
  ⟨.RG_ROUND, 0x3000, [], [⟨0, 11, .rw, .weave, 128, [(16, 1024)]⟩]⟩,
  ⟨.RG_HOPLIM, 0x3004, [], [⟨0, 12, .rw, .weave, 4095, [(1, 4095)]⟩]⟩,
  ⟨.RG_SPREAD, 0x3008, [], [⟨0, 11, .rw, .weave, 0, []⟩]⟩,
  ⟨.RG_SELF, 0x3100, [], [⟨0, 12, .ro, .plain, 0, []⟩, ⟨12, 4, .ro, .plain, 0, []⟩, ⟨16, 1, .ro, .plain, 0, []⟩, ⟨17, 2, .ro, .plain, 0, []⟩, ⟨19, 1, .ro, .plain, 0, []⟩, ⟨20, 1, .ro, .plain, 0, []⟩]⟩,
  ⟨.RG_IDL, 0x3104, [], [⟨0, 32, .ro, .otp, 0, []⟩]⟩,
  ⟨.RG_IDH, 0x3108, [], [⟨0, 32, .ro, .otp, 0, []⟩]⟩,
  ⟨.RG_PIDL, 0x310c, [], [⟨0, 32, .ro, .plain, 0, []⟩]⟩,
  ⟨.RG_PIDH, 0x3110, [], [⟨0, 32, .ro, .plain, 0, []⟩]⟩,
  ⟨.RG_POS, 0x3114, [], [⟨0, 12, .ro, .plain, 0, []⟩, ⟨16, 13, .ro, .plain, 0, []⟩, ⟨29, 2, .ro, .plain, 0, []⟩, ⟨31, 1, .ro, .plain, 0, []⟩]⟩,
  ⟨.RG_ROLE, 0x3118, [], [⟨0, 1, .rwl, .weave, 0, []⟩, ⟨1, 1, .rwl, .weave, 0, []⟩, ⟨2, 1, .rwl, .weave, 0, []⟩, ⟨4, 4, .rwl, .weave, 0, []⟩]⟩,
  ⟨.RG_ENUM, 0x311c, [], [⟨0, 11, .rw, .weave, 0, [(0, 0), (10, 2000)]⟩, ⟨12, 1, .wo, .plain, 0, []⟩, ⟨13, 2, .ro, .plain, 0, []⟩, ⟨16, 16, .ro, .plain, 0, []⟩]⟩,
  ⟨.RG_WRAP, 0x3120, [], [⟨0, 1, .ro, .plain, 0, []⟩, ⟨1, 1, .ro, .plain, 0, []⟩, ⟨2, 2, .ro, .plain, 0, []⟩, ⟨8, 8, .rw, .weave, 2, []⟩]⟩,
  ⟨.RG_XCFG, 0x3124, [], [⟨0, 14, .rw, .weave, 200, [(10, 10000)]⟩, ⟨14, 4, .rw, .weave, 3, [(0, 7)]⟩, ⟨18, 14, .rw, .weave, 100, [(20, 10000)]⟩]⟩,
  ⟨.RG_PSEL, 0x3128, [], [⟨0, 8, .rw, .plain, 0, []⟩, ⟨8, 1, .rw, .plain, 0, []⟩]⟩,
  ⟨.RG_PSTAT, 0x312c, [], [⟨0, 12, .ro, .plain, 0, []⟩, ⟨12, 4, .ro, .plain, 0, []⟩, ⟨16, 3, .ro, .plain, 0, []⟩, ⟨19, 4, .ro, .plain, 0, []⟩, ⟨23, 2, .ro, .plain, 0, []⟩, ⟨25, 3, .ro, .plain, 0, []⟩]⟩,
  ⟨.RG_PSEQ, 0x3130, [], [⟨0, 16, .ro, .plain, 0, []⟩, ⟨16, 16, .ro, .plain, 0, []⟩]⟩,
  ⟨.RG_RPTCNT, 0x3140, [], [⟨0, 13, .ro, .plain, 0, []⟩]⟩,
  ⟨.RG_RPTi, 0x3144, [(0, 5, 0x4)], [⟨0, 32, .ro, .plain, 0, []⟩]⟩,
  ⟨.RG_RPT5, 0x3158, [], [⟨0, 32, .rc, .plain, 0, []⟩]⟩,
  ⟨.RG_XRETRY, 0x3180, [], [⟨0, 32, .rc, .plain, 0, []⟩]⟩,
  ⟨.RG_XFAIL, 0x3184, [], [⟨0, 32, .rc, .plain, 0, []⟩]⟩
]

/-- Registers of class 0x1. -/
def rgMap2 : List Fam := [
  ⟨.RG_XLATE, 0x3188, [], [⟨0, 32, .rc, .plain, 0, []⟩]⟩,
  ⟨.RG_XDUP, 0x318c, [], [⟨0, 32, .rc, .plain, 0, []⟩]⟩,
  ⟨.RG_XOOSEQ, 0x3190, [], [⟨0, 32, .rc, .plain, 0, []⟩]⟩,
  ⟨.RG_NOSYNC, 0x3194, [], [⟨0, 32, .rc, .plain, 0, []⟩]⟩,
  ⟨.RG_PEERFULL, 0x3198, [], [⟨0, 32, .rc, .plain, 0, []⟩]⟩,
  ⟨.RG_PWLOST, 0x319c, [], [⟨0, 32, .rc, .plain, 0, []⟩]⟩,
  ⟨.RG_NOROUTE, 0x31a0, [], [⟨0, 32, .rc, .plain, 0, []⟩]⟩,
  ⟨.RG_WRAPS, 0x31a4, [], [⟨0, 32, .rc, .plain, 0, []⟩]⟩,
  ⟨.RG_WRAPLOST, 0x31a8, [], [⟨0, 32, .rc, .plain, 0, []⟩]⟩,
  ⟨.RG_ENUMLOST, 0x31ac, [], [⟨0, 32, .rc, .plain, 0, []⟩]⟩,
  ⟨.RG_ENUMLATE, 0x31b0, [], [⟨0, 32, .rc, .plain, 0, []⟩]⟩,
  ⟨.RG_ASSIGNREF, 0x31b4, [], [⟨0, 32, .rc, .plain, 0, []⟩]⟩,
  ⟨.RG_DUPNODE, 0x31b8, [], [⟨0, 32, .rc, .plain, 0, []⟩]⟩,
  ⟨.RG_RPTLOST, 0x31bc, [], [⟨0, 32, .rc, .plain, 0, []⟩]⟩,
  ⟨.RG_POSLATE, 0x31c0, [], [⟨0, 32, .rc, .plain, 0, []⟩]⟩,
  ⟨.RG_RTn, 0x3200, [(0, 16, 0x4)], [⟨0, 12, .rw, .weave, 0, []⟩, ⟨12, 2, .rw, .weave, 0, []⟩]⟩
]

/-- The registers of class 0x1. -/
def rgMap : List Fam := rgMap0 ++ rgMap1 ++ rgMap2

/-- Registers of class 0x2. -/
def tmMap0 : List Fam := [
  ⟨.TM_SEC, 0x0, [], [⟨0, 32, .ro, .plain, 0, []⟩]⟩,
  ⟨.TM_NS, 0x4, [], [⟨0, 30, .ro, .plain, 0, []⟩]⟩,
  ⟨.TM_FRAC, 0x8, [], [⟨0, 16, .ro, .plain, 0, []⟩]⟩,
  ⟨.TM_SEC48H, 0xc, [], [⟨0, 16, .ro, .plain, 0, []⟩]⟩,
  ⟨.TM_SEC48L, 0x10, [], [⟨0, 32, .ro, .plain, 0, []⟩]⟩,
  ⟨.TM_TICK, 0x14, [], [⟨0, 32, .ro, .plain, 0, []⟩]⟩,
  ⟨.TM_TICKNOW, 0x18, [], [⟨0, 32, .ro, .plain, 0, []⟩]⟩,
  ⟨.TM_RATE, 0x1c, [], [⟨0, 32, .rw, .plain, 0, []⟩]⟩,
  ⟨.TM_SETH, 0x20, [], [⟨0, 16, .rw, .plain, 0, []⟩]⟩,
  ⟨.TM_SETS, 0x24, [], [⟨0, 32, .rw, .plain, 0, []⟩]⟩,
  ⟨.TM_SETNS, 0x28, [], [⟨0, 30, .rw, .plain, 0, [(0, 999999999)]⟩]⟩,
  ⟨.TM_CTL, 0x2c, [], [⟨0, 1, .wo, .plain, 0, []⟩, ⟨1, 1, .wo, .plain, 0, []⟩]⟩,
  ⟨.TM_DCFG, 0x30, [], [⟨0, 3, .rw, .weave, 4, []⟩, ⟨3, 3, .rw, .weave, 3, []⟩, ⟨6, 4, .rw, .weave, 0, []⟩, ⟨10, 1, .rw, .weave, 0, []⟩, ⟨11, 1, .rw, .weave, 1, []⟩, ⟨16, 8, .rw, .weave, 0, []⟩]⟩,
  ⟨.TM_DTHR, 0x34, [], [⟨0, 16, .rw, .weave, 1000, [(100, 65535)]⟩, ⟨16, 16, .rw, .weave, 100, [(10, 1000)]⟩]⟩,
  ⟨.TM_DSTAT, 0x38, [], [⟨0, 2, .ro, .plain, 0, []⟩, ⟨2, 1, .ro, .plain, 0, []⟩, ⟨3, 1, .ro, .plain, 0, []⟩, ⟨4, 2, .ro, .plain, 0, []⟩, ⟨6, 1, .w1c, .plain, 0, []⟩, ⟨16, 16, .ro, .plain, 0, []⟩]⟩,
  ⟨.TM_DOFF, 0x3c, [], [⟨0, 32, .ro, .plain, 0, []⟩]⟩,
  ⟨.TM_PDLYp, 0x40, [(0, 2, 0x4)], [⟨0, 32, .ro, .plain, 0, []⟩]⟩,
  ⟨.TM_ASYMp, 0x48, [(0, 2, 0x4)], [⟨0, 16, .rw, .weave, 0, []⟩]⟩,
  ⟨.TM_LTOL, 0x50, [], [⟨0, 32, .rw, .weave, 10000, [(0, 1000000000)]⟩]⟩,
  ⟨.TM_LTOCC, 0x54, [], [⟨0, 12, .ro, .plain, 0, []⟩, ⟨16, 12, .rc, .plain, 0, []⟩]⟩,
  ⟨.TM_PDSTAT, 0x58, [], [⟨0, 2, .ro, .plain, 0, []⟩, ⟨2, 2, .ro, .plain, 0, []⟩]⟩,
  ⟨.TM_LATE, 0x80, [], [⟨0, 32, .rc, .plain, 0, []⟩]⟩,
  ⟨.TM_CLATE, 0x84, [], [⟨0, 32, .rc, .plain, 0, []⟩]⟩,
  ⟨.TM_SYNCBAD, 0x88, [], [⟨0, 32, .rc, .plain, 0, []⟩]⟩,
  ⟨.TM_PDBAD, 0x8c, [], [⟨0, 32, .rc, .plain, 0, []⟩]⟩
]

/-- Registers of class 0x2. -/
def tmMap1 : List Fam := [
  ⟨.TM_STEPS, 0x90, [], [⟨0, 32, .rc, .plain, 0, []⟩]⟩,
  ⟨.TM_CAPLOST, 0x94, [], [⟨0, 32, .rc, .plain, 0, []⟩]⟩,
  ⟨.TM_TXTSLOST, 0x98, [], [⟨0, 32, .rc, .plain, 0, []⟩]⟩,
  ⟨.TM_LTFULL, 0x9c, [], [⟨0, 32, .rc, .plain, 0, []⟩]⟩,
  ⟨.TM_SAREF, 0xa0, [], [⟨0, 32, .rc, .plain, 0, []⟩]⟩,
  ⟨.TM_SAFULL, 0xa4, [], [⟨0, 32, .rc, .plain, 0, []⟩]⟩,
  ⟨.TM_SALATE, 0xa8, [], [⟨0, 32, .rc, .plain, 0, []⟩]⟩,
  ⟨.TM_SADISC, 0xac, [], [⟨0, 32, .rc, .plain, 0, []⟩]⟩,
  ⟨.TM_SACANCEL, 0xb0, [], [⟨0, 32, .rc, .plain, 0, []⟩]⟩,
  ⟨.TM_CMPk_S, 0x1000, [(0, 32, 0x10)], [⟨0, 32, .rw, .weave, 0, []⟩]⟩,
  ⟨.TM_CMPk_NS, 0x1004, [(0, 32, 0x10)], [⟨0, 30, .rw, .weave, 0, [(0, 999999999)]⟩]⟩,
  ⟨.TM_CMPk_PER, 0x1008, [(0, 32, 0x10)], [⟨0, 30, .rw, .weave, 0, [(0, 0), (1000, 1000000000)]⟩]⟩,
  ⟨.TM_CMPk_CFG, 0x100c, [(0, 32, 0x10)], [⟨0, 1, .w1s, .plain, 0, []⟩, ⟨1, 1, .wo, .plain, 0, []⟩, ⟨2, 1, .rw, .weave, 0, []⟩, ⟨3, 1, .rw, .weave, 0, []⟩, ⟨4, 2, .ro, .plain, 0, []⟩, ⟨6, 1, .ro, .plain, 0, []⟩, ⟨7, 1, .ro, .plain, 0, []⟩]⟩,
  ⟨.TM_CAPc_CFG, 0x2000, [(0, 4, 0x10)], [⟨0, 1, .rw, .weave, 0, []⟩, ⟨1, 2, .rw, .weave, 1, [(1, 3)]⟩, ⟨4, 8, .rw, .weave, 0, []⟩]⟩,
  ⟨.TM_CAPc_S, 0x2004, [(0, 4, 0x10)], [⟨0, 32, .ro, .plain, 0, []⟩]⟩,
  ⟨.TM_CAPc_NS, 0x2008, [(0, 4, 0x10)], [⟨0, 30, .ro, .plain, 0, []⟩, ⟨30, 1, .ro, .plain, 0, []⟩, ⟨31, 1, .ro, .plain, 0, []⟩]⟩,
  ⟨.TM_CAPc_STAT, 0x200c, [(0, 4, 0x10)], [⟨0, 4, .ro, .plain, 0, []⟩]⟩,
  ⟨.TM_PPSi_CFG, 0x2100, [(0, 2, 0x4)], [⟨0, 1, .rw, .weave, 0, []⟩, ⟨1, 1, .rw, .weave, 0, []⟩, ⟨2, 1, .rw, .weave, 1, []⟩, ⟨4, 10, .rw, .weave, 100, [(1, 999)]⟩]⟩,
  ⟨.TM_EDLYn, 0x2200, [(0, 16, 0x4)], [⟨0, 16, .rw, .weave, 0, []⟩, ⟨16, 16, .rw, .weave, 0, []⟩]⟩,
  ⟨.TM_TXSn, 0x2400, [(0, 16, 0x10)], [⟨0, 32, .ro, .plain, 0, []⟩]⟩,
  ⟨.TM_TXNSn, 0x2404, [(0, 16, 0x10)], [⟨0, 30, .ro, .plain, 0, []⟩, ⟨31, 1, .ro, .plain, 0, []⟩]⟩,
  ⟨.TM_TXIDn, 0x2408, [(0, 16, 0x10)], [⟨0, 16, .ro, .plain, 0, []⟩, ⟨16, 4, .ro, .plain, 0, []⟩]⟩,
  ⟨.TM_LPOLi, 0x3000, [(0, 4, 0x4)], [⟨0, 32, .rw, .weave, 4294967295, []⟩]⟩,
  ⟨.TM_SAn, 0x4000, [(0, 128, 0x4)], [⟨0, 16, .ro, .plain, 0, []⟩, ⟨16, 3, .ro, .plain, 0, []⟩, ⟨19, 1, .ro, .plain, 0, []⟩]⟩
]

/-- The registers of class 0x2. -/
def tmMap : List Fam := tmMap0 ++ tmMap1

/-- Registers of class 0x3. -/
def swMap0 : List Fam := [
  ⟨.SW_HASHCTL, 0x0, [], [⟨0, 3, .rw, .weave, 0, []⟩, ⟨4, 3, .ro, .plain, 0, []⟩, ⟨8, 3, .ro, .plain, 0, []⟩]⟩,
  ⟨.SW_HASHRUN, 0x4, [], [⟨0, 24, .ro, .plain, 0, []⟩]⟩,
  ⟨.SW_HASHSW, 0x8, [], [⟨0, 32, .rc, .plain, 0, []⟩]⟩,
  ⟨.SW_SEEDh_s, 0x10, [(0, 3, 0x8), (0, 2, 0x4)], [⟨0, 32, .rw, .weave, 0, []⟩]⟩,
  ⟨.SW_FLOWGAP, 0x30, [], [⟨0, 14, .rw, .weave, 50, [(1, 10000)]⟩]⟩,
  ⟨.SW_SHMAX, 0x34, [], [⟨0, 16, .rw, .weave, 4096, [(0, 49152)]⟩]⟩,
  ⟨.SW_AGE, 0x38, [], [⟨0, 12, .rw, .weave, 300, [(0, 0), (10, 3600)]⟩]⟩,
  ⟨.SW_SHOCC, 0x3c, [], [⟨0, 16, .ro, .plain, 0, []⟩, ⟨16, 16, .rc, .plain, 0, []⟩]⟩,
  ⟨.SW_OVCFG, 0x40, [], [⟨0, 1, .rwl, .weave, 0, []⟩, ⟨1, 2, .rwl, .weave, 0, [(0, 2)]⟩, ⟨3, 1, .ro, .plain, 0, []⟩]⟩,
  ⟨.SW_OVOCC, 0x44, [], [⟨0, 26, .ro, .plain, 0, []⟩]⟩,
  ⟨.SW_FDBOCC, 0x60, [], [⟨0, 15, .ro, .plain, 0, []⟩, ⟨16, 7, .ro, .plain, 0, []⟩]⟩,
  ⟨.SW_RINGPCP, 0x80, [], [⟨0, 24, .rw, .weave, 16434824, []⟩]⟩,
  ⟨.SW_MACL, 0x88, [], [⟨0, 32, .rwl, .weave, 0, []⟩]⟩,
  ⟨.SW_MACH, 0x8c, [], [⟨0, 16, .rwl, .weave, 0, []⟩]⟩,
  ⟨.SW_OVDROP, 0x48, [], [⟨0, 32, .rc, .plain, 0, []⟩]⟩,
  ⟨.SW_OVPAR, 0x4c, [], [⟨0, 32, .rc, .plain, 0, []⟩]⟩,
  ⟨.SW_MCDROP, 0x50, [], [⟨0, 32, .rc, .plain, 0, []⟩]⟩,
  ⟨.SW_LRNFAIL, 0x54, [], [⟨0, 32, .rc, .plain, 0, []⟩]⟩,
  ⟨.SW_FLOWFORCE, 0x58, [], [⟨0, 32, .rc, .plain, 0, []⟩]⟩,
  ⟨.SW_FDBMACL, 0x70, [], [⟨0, 32, .rw, .plain, 0, []⟩]⟩,
  ⟨.SW_FDBMACH, 0x74, [], [⟨0, 16, .rw, .plain, 0, []⟩, ⟨16, 12, .rw, .plain, 0, []⟩]⟩,
  ⟨.SW_FDBDST, 0x78, [], [⟨0, 4, .rw, .plain, 0, []⟩, ⟨4, 12, .rw, .plain, 0, []⟩, ⟨16, 4, .rw, .plain, 0, []⟩, ⟨20, 2, .rw, .plain, 0, [(0, 2)]⟩, ⟨22, 1, .ro, .plain, 0, []⟩]⟩,
  ⟨.SW_FDBCMD, 0x7c, [], [⟨0, 3, .rw, .plain, 0, []⟩, ⟨4, 2, .ro, .plain, 0, []⟩, ⟨31, 1, .w1s, .plain, 0, []⟩]⟩,
  ⟨.SW_GRPg, 0x10000, [(0, 4095, 0x4)], [⟨0, 1, .rw, .weave, 0, []⟩]⟩,
  ⟨.SW_VLANv, 0x20000, [(0, 4096, 0x4)], [⟨0, 16, .rw, .weave, 0, []⟩, ⟨16, 12, .rw, .weave, 0, []⟩, ⟨28, 1, .rw, .weave, 0, []⟩, ⟨31, 1, .rw, .weave, 0, []⟩]⟩
]

/-- Registers of class 0x3. -/
def swMap1 : List Fam := [
  ⟨.SW_TAGPARn, 0x1000, [(0, 27, 0x40)], [⟨0, 32, .rc, .plain, 0, []⟩]⟩,
  ⟨.SW_STOMPn, 0x1004, [(0, 27, 0x40)], [⟨0, 32, .rc, .plain, 0, []⟩]⟩,
  ⟨.SW_POISONn, 0x1008, [(0, 27, 0x40)], [⟨0, 32, .rc, .plain, 0, []⟩]⟩,
  ⟨.SW_QDROPn, 0x100c, [(0, 27, 0x40)], [⟨0, 32, .rc, .plain, 0, []⟩]⟩,
  ⟨.SW_CTn, 0x1010, [(0, 27, 0x40)], [⟨0, 32, .rc, .plain, 0, []⟩]⟩,
  ⟨.SW_FLUSHn, 0x1014, [(0, 27, 0x40)], [⟨0, 32, .rc, .plain, 0, []⟩]⟩,
  ⟨.SW_LINKLOSTn, 0x1018, [(0, 27, 0x40)], [⟨0, 32, .rc, .plain, 0, []⟩]⟩,
  ⟨.SW_LATEn, 0x101c, [(0, 27, 0x40)], [⟨0, 32, .rc, .plain, 0, []⟩]⟩,
  ⟨.SW_FILTn, 0x1020, [(0, 27, 0x40)], [⟨0, 32, .rc, .plain, 0, []⟩]⟩,
  ⟨.SW_RXFCSn, 0x1024, [(0, 27, 0x40)], [⟨0, 32, .rc, .plain, 0, []⟩]⟩,
  ⟨.SW_RXLENn, 0x1028, [(0, 27, 0x40)], [⟨0, 32, .rc, .plain, 0, []⟩]⟩,
  ⟨.SW_RINGBIGn, 0x102c, [(0, 27, 0x40)], [⟨0, 32, .rc, .plain, 0, []⟩]⟩,
  ⟨.SW_PAUSERXn, 0x1030, [(0, 27, 0x40)], [⟨0, 32, .rc, .plain, 0, []⟩]⟩,
  ⟨.SW_OCCn, 0x1034, [(0, 27, 0x40)], [⟨0, 16, .ro, .plain, 0, []⟩, ⟨16, 16, .rc, .plain, 0, []⟩]⟩,
  ⟨.SW_PCFGn, 0x4000, [(2, 17, 0x40)], [⟨0, 1, .rwl, .weave, 0, []⟩, ⟨1, 2, .rwl, .weave, 0, [(0, 2)]⟩, ⟨3, 1, .rw, .weave, 0, []⟩, ⟨4, 1, .rw, .weave, 0, []⟩, ⟨5, 1, .rw, .weave, 0, []⟩, ⟨6, 1, .rw, .weave, 1, []⟩, ⟨7, 1, .rw, .weave, 1, []⟩, ⟨16, 14, .rw, .weave, 1522, [(64, 9216)]⟩]⟩,
  ⟨.SW_PSTATn, 0x4004, [(2, 17, 0x40)], [⟨0, 1, .ro, .plain, 0, []⟩, ⟨1, 2, .ro, .plain, 0, []⟩, ⟨3, 2, .ro, .plain, 0, []⟩, ⟨5, 1, .ro, .plain, 0, []⟩, ⟨6, 1, .ro, .plain, 0, []⟩, ⟨7, 1, .ro, .plain, 0, []⟩]⟩,
  ⟨.SW_PVIDn, 0x4008, [(2, 17, 0x40)], [⟨0, 12, .rw, .weave, 1, [(1, 4095)]⟩]⟩,
  ⟨.SW_PCPMAPn, 0x400c, [(2, 17, 0x40)], [⟨0, 24, .rw, .weave, 16434824, []⟩]⟩,
  ⟨.SW_HOLDn, 0x4010, [(2, 17, 0x40)], [⟨0, 7, .rw, .weave, 2, [(0, 100)]⟩]⟩,
  ⟨.SW_FCn, 0x4014, [(2, 17, 0x40)], [⟨0, 16, .rw, .weave, 0, []⟩, ⟨16, 16, .rw, .weave, 0, []⟩]⟩,
  ⟨.SW_GCTLn, 0x80000, [(2, 17, 0x4000)], [⟨0, 1, .w1s, .plain, 0, []⟩, ⟨1, 1, .wo, .plain, 0, []⟩, ⟨2, 1, .wo, .plain, 0, []⟩, ⟨3, 1, .rw, .weave, 1, []⟩]⟩,
  ⟨.SW_GSTATn, 0x80004, [(2, 17, 0x4000)], [⟨0, 8, .ro, .plain, 255, []⟩, ⟨8, 8, .ro, .plain, 0, []⟩, ⟨16, 2, .ro, .plain, 0, []⟩, ⟨18, 1, .ro, .plain, 0, []⟩, ⟨19, 2, .ro, .plain, 0, []⟩, ⟨21, 1, .ro, .plain, 0, []⟩]⟩,
  ⟨.SW_GSWAPSn, 0x80008, [(2, 17, 0x4000)], [⟨0, 32, .rw, .weave, 0, []⟩]⟩,
  ⟨.SW_GSWAPNSn, 0x8000c, [(2, 17, 0x4000)], [⟨0, 30, .rw, .weave, 0, [(0, 999999999)]⟩]⟩,
  ⟨.SW_GLENn_l, 0x80010, [(2, 17, 0x4000), (0, 2, 0x4)], [⟨0, 9, .rw, .weave, 0, [(0, 256)]⟩]⟩
]

/-- Registers of class 0x3. -/
def swMap2 : List Fam := [
  ⟨.SW_GCYCn, 0x80018, [(2, 17, 0x4000)], [⟨0, 30, .ro, .plain, 0, []⟩]⟩,
  ⟨.SW_GWMAXn_q, 0x80020, [(2, 17, 0x4000), (0, 8, 0x4)], [⟨0, 32, .ro, .plain, 4294967295, []⟩]⟩,
  ⟨.SW_LSTATn, 0x80040, [(2, 17, 0x4000)], [⟨0, 2, .ro, .plain, 0, []⟩]⟩,
  ⟨.SW_GLONGn, 0x80044, [(2, 17, 0x4000)], [⟨0, 32, .rc, .plain, 0, []⟩]⟩,
  ⟨.SW_GOVRn, 0x80048, [(2, 17, 0x4000)], [⟨0, 32, .rc, .plain, 0, []⟩]⟩,
  ⟨.SW_LEXPn, 0x8004c, [(2, 17, 0x4000)], [⟨0, 32, .rc, .plain, 0, []⟩]⟩,
  ⟨.SW_LLATEn, 0x80050, [(2, 17, 0x4000)], [⟨0, 32, .rc, .plain, 0, []⟩]⟩,
  ⟨.SW_GLATEn, 0x80054, [(2, 17, 0x4000)], [⟨0, 32, .rc, .plain, 0, []⟩]⟩,
  ⟨.SW_QCFGn_q, 0x80100, [(0, 19, 0x4000), (0, 8, 0x10)], [⟨0, 16, .rw, .weave, 1600, [(64, 65535)]⟩, ⟨16, 16, .rw, .weave, 0, []⟩]⟩,
  ⟨.SW_QRATEn_q, 0x80104, [(0, 19, 0x4000), (0, 8, 0x10)], [⟨0, 32, .rw, .weave, 0, [(0, 25000000)]⟩]⟩,
  ⟨.SW_QSTATn_q, 0x80108, [(0, 19, 0x4000), (0, 8, 0x10)], [⟨0, 1, .ro, .plain, 0, []⟩, ⟨1, 1, .ro, .plain, 0, []⟩, ⟨2, 1, .ro, .plain, 0, []⟩, ⟨3, 1, .ro, .plain, 0, []⟩, ⟨4, 1, .ro, .plain, 0, []⟩, ⟨5, 1, .ro, .plain, 0, []⟩, ⟨8, 17, .ro, .plain, 0, []⟩]⟩,
  ⟨.SW_QELIGn_q, 0x8010c, [(0, 19, 0x4000), (0, 8, 0x10)], [⟨0, 30, .ro, .plain, 0, []⟩]⟩,
  ⟨.SW_GSn_l_e, 0x81000, [(2, 17, 0x4000), (0, 2, 0x800), (0, 256, 0x8)], [⟨0, 8, .rw, .weave, 0, []⟩]⟩,
  ⟨.SW_GIn_l_e, 0x81004, [(2, 17, 0x4000), (0, 2, 0x800), (0, 256, 0x8)], [⟨0, 32, .rw, .weave, 0, []⟩]⟩
]

/-- The registers of class 0x3. -/
def swMap : List Fam := swMap0 ++ swMap1 ++ swMap2

/-- Registers of class 0x4. -/
def wvMap0 : List Fam := [
  ⟨.WVn_CTL, 0x0, [(0, 128, 0x400)], [⟨0, 1, .wo, .plain, 0, []⟩, ⟨1, 1, .wo, .plain, 0, []⟩, ⟨2, 2, .rw, .weave, 0, [(0, 2)]⟩, ⟨4, 1, .rw, .weave, 0, []⟩, ⟨5, 3, .rw, .weave, 0, []⟩, ⟨8, 1, .rw, .weave, 0, []⟩, ⟨9, 1, .rwl, .weave, 0, []⟩, ⟨10, 1, .rw, .weave, 0, []⟩]⟩,
  ⟨.WVn_STAT, 0x4, [(0, 128, 0x400)], [⟨0, 2, .ro, .plain, 0, []⟩, ⟨2, 2, .ro, .plain, 0, []⟩, ⟨4, 6, .ro, .plain, 0, []⟩, ⟨10, 1, .ro, .plain, 0, []⟩, ⟨11, 1, .ro, .plain, 0, []⟩, ⟨12, 1, .ro, .plain, 0, []⟩, ⟨13, 1, .ro, .plain, 0, []⟩, ⟨14, 1, .w1c, .plain, 0, []⟩, ⟨15, 1, .w1c, .plain, 0, []⟩, ⟨16, 1, .w1c, .plain, 0, []⟩]⟩,
  ⟨.WVn_DIV0, 0x8, [(0, 128, 0x400)], [⟨0, 25, .rw, .weave, 1280, [(1280, 16777216)]⟩]⟩,
  ⟨.WVn_DIV1, 0xc, [(0, 128, 0x400)], [⟨0, 25, .rw, .weave, 1280, [(1280, 16777216)]⟩]⟩,
  ⟨.WVn_SHIFT, 0x20, [(0, 128, 0x400)], [⟨0, 32, .rw, .plain, 0, []⟩]⟩,
  ⟨.WVn_SC, 0x24, [(0, 128, 0x400)], [⟨0, 32, .rw, .plain, 0, []⟩]⟩,
  ⟨.WVn_CN, 0x28, [(0, 128, 0x400)], [⟨0, 32, .rw, .plain, 0, []⟩]⟩,
  ⟨.WVn_LOOP, 0x2c, [(0, 128, 0x400)], [⟨0, 16, .rw, .plain, 0, []⟩, ⟨16, 16, .rw, .plain, 0, []⟩]⟩,
  ⟨.WVn_TRS, 0x30, [(0, 128, 0x400)], [⟨0, 32, .rw, .plain, 0, []⟩]⟩,
  ⟨.WVn_TRNS, 0x34, [(0, 128, 0x400)], [⟨0, 30, .rw, .plain, 0, [(0, 999999999)]⟩]⟩,
  ⟨.WVn_SHCNT, 0x38, [(0, 128, 0x400)], [⟨0, 6, .ro, .plain, 0, []⟩]⟩,
  ⟨.WVn_PROGs, 0x100, [(0, 128, 0x400), (0, 64, 0x4)], [⟨0, 24, .rw, .weave, 0, []⟩]⟩,
  ⟨.WVn_LANEl, 0x40, [(0, 128, 0x400), (0, 8, 0x4)], [⟨0, 8, .rwl, .weave, 0, []⟩, ⟨8, 3, .rwl, .weave, 7, [(0, 5), (7, 7)]⟩, ⟨11, 1, .rwl, .weave, 0, []⟩, ⟨12, 2, .rwl, .weave, 0, []⟩, ⟨14, 1, .rwl, .weave, 0, []⟩, ⟨15, 1, .rwl, .weave, 0, []⟩]⟩,
  ⟨.WVn_QSTAT, 0x60, [(0, 128, 0x400)], [⟨0, 4, .ro, .plain, 0, []⟩, ⟨4, 4, .ro, .plain, 0, []⟩, ⟨8, 4, .ro, .plain, 0, []⟩, ⟨16, 11, .ro, .plain, 0, []⟩]⟩,
  ⟨.WVn_QCFG, 0x64, [(0, 128, 0x400)], [⟨0, 11, .rwl, .weave, 0, [(0, 1024)]⟩]⟩,
  ⟨.WVn_TXTAG, 0x68, [(0, 128, 0x400)], [⟨0, 8, .rw, .plain, 0, []⟩]⟩,
  ⟨.WVn_TXQ, 0x6c, [(0, 128, 0x400)], [⟨0, 32, .wo, .plain, 0, []⟩]⟩,
  ⟨.WVn_RXT, 0x70, [(0, 128, 0x400)], [⟨0, 8, .ro, .plain, 0, []⟩, ⟨31, 1, .ro, .plain, 0, []⟩]⟩,
  ⟨.WVn_RXD, 0x74, [(0, 128, 0x400)], [⟨0, 32, .rc, .plain, 0, []⟩]⟩,
  ⟨.WVn_STALLS, 0x80, [(0, 128, 0x400)], [⟨0, 32, .rc, .plain, 0, []⟩]⟩,
  ⟨.WVn_TXDROP, 0x84, [(0, 128, 0x400)], [⟨0, 32, .rc, .plain, 0, []⟩]⟩,
  ⟨.WVn_TQDROP, 0x88, [(0, 128, 0x400)], [⟨0, 32, .rc, .plain, 0, []⟩]⟩,
  ⟨.BKm_START, 0x20000, [(0, 16, 0x40)], [⟨0, 8, .wo, .plain, 0, []⟩]⟩,
  ⟨.BKm_STOP, 0x20004, [(0, 16, 0x40)], [⟨0, 8, .wo, .plain, 0, []⟩]⟩,
  ⟨.BKm_CLKRST, 0x20008, [(0, 16, 0x40)], [⟨0, 8, .wo, .plain, 0, []⟩]⟩
]

/-- Registers of class 0x4. -/
def wvMap1 : List Fam := [
  ⟨.BKm_FLAGS, 0x2000c, [(0, 16, 0x40)], [⟨0, 16, .w1c, .plain, 0, []⟩]⟩,
  ⟨.BKm_FSET, 0x20010, [(0, 16, 0x40)], [⟨0, 16, .wo, .plain, 0, []⟩]⟩,
  ⟨.BKm_IRQ, 0x20014, [(0, 16, 0x40)], [⟨0, 4, .wo, .plain, 0, []⟩]⟩,
  ⟨.BKm_STAT, 0x20018, [(0, 16, 0x40)], [⟨0, 8, .ro, .plain, 0, []⟩, ⟨8, 8, .ro, .plain, 0, []⟩]⟩,
  ⟨.BK_GMASKi, 0x21000, [(0, 4, 0x4)], [⟨0, 32, .rw, .plain, 0, []⟩]⟩,
  ⟨.BK_GCTL, 0x21010, [], [⟨0, 1, .wo, .plain, 0, []⟩, ⟨1, 1, .w1s, .plain, 0, []⟩, ⟨2, 1, .wo, .plain, 0, []⟩, ⟨3, 1, .wo, .plain, 0, []⟩, ⟨4, 2, .ro, .plain, 0, []⟩, ⟨6, 1, .ro, .plain, 0, []⟩]⟩,
  ⟨.BK_GTS, 0x21014, [], [⟨0, 32, .rw, .plain, 0, []⟩]⟩,
  ⟨.BK_GTNS, 0x21018, [], [⟨0, 30, .rw, .plain, 0, [(0, 999999999)]⟩]⟩,
  ⟨.BK_LATE, 0x2101c, [], [⟨0, 32, .rc, .plain, 0, []⟩]⟩,
  ⟨.BK_VIO, 0x21020, [], [⟨0, 4, .ro, .plain, 0, []⟩]⟩,
  ⟨.BK_PINi, 0x21100, [(0, 8, 0x4)], [⟨0, 32, .ro, .plain, 0, []⟩]⟩,
  ⟨.WVn_WSRC, 0x10, [(0, 128, 0x400)], [⟨0, 1, .rwl, .weave, 0, []⟩, ⟨1, 1, .rwl, .weave, 0, []⟩, ⟨2, 1, .rwl, .weave, 0, []⟩]⟩
]

/-- The registers of class 0x4. -/
def wvMap : List Fam := wvMap0 ++ wvMap1

/-- Registers of class 0x5. -/
def cfMap0 : List Fam := [
  ⟨.CFk_MODE, 0x0, [(0, 8, 0x8000)], [⟨0, 1, .rw, .weave, 1, []⟩, ⟨1, 2, .rw, .weave, 0, []⟩, ⟨3, 1, .rw, .weave, 1, []⟩, ⟨4, 1, .rw, .weave, 0, []⟩, ⟨5, 1, .rw, .weave, 0, []⟩, ⟨6, 1, .rw, .weave, 0, []⟩, ⟨7, 1, .rw, .weave, 1, []⟩, ⟨8, 1, .rw, .weave, 0, []⟩, ⟨9, 1, .rw, .weave, 0, []⟩, ⟨10, 1, .rw, .weave, 0, []⟩, ⟨11, 1, .wo, .plain, 0, []⟩, ⟨12, 1, .ro, .plain, 1, []⟩]⟩,
  ⟨.CFk_NBT, 0x4, [(0, 8, 0x8000)], [⟨0, 9, .rw, .weave, 1, []⟩, ⟨9, 8, .rw, .weave, 126, []⟩, ⟨17, 7, .rw, .weave, 31, []⟩, ⟨24, 7, .rw, .weave, 31, []⟩]⟩,
  ⟨.CFk_DBT, 0x8, [(0, 8, 0x8000)], [⟨0, 5, .rw, .weave, 1, []⟩, ⟨5, 5, .rw, .weave, 30, []⟩, ⟨10, 4, .rw, .weave, 7, []⟩, ⟨14, 4, .rw, .weave, 7, []⟩]⟩,
  ⟨.CFk_TDC, 0xc, [(0, 8, 0x8000)], [⟨0, 7, .rw, .weave, 0, []⟩, ⟨16, 8, .ro, .plain, 0, []⟩]⟩,
  ⟨.CFk_ERR, 0x10, [(0, 8, 0x8000)], [⟨0, 8, .ro, .plain, 0, []⟩, ⟨8, 8, .ro, .plain, 0, []⟩, ⟨16, 2, .ro, .plain, 0, []⟩, ⟨18, 1, .ro, .plain, 0, []⟩, ⟨19, 4, .ro, .plain, 0, []⟩]⟩,
  ⟨.CFk_TXREQ, 0x14, [(0, 8, 0x8000)], [⟨0, 3, .w1s, .plain, 0, []⟩]⟩,
  ⟨.CFk_TXCAN, 0x18, [(0, 8, 0x8000)], [⟨0, 3, .wo, .plain, 0, []⟩]⟩,
  ⟨.CFk_RXSTAT, 0x1c, [(0, 8, 0x8000)], [⟨0, 7, .ro, .plain, 0, []⟩, ⟨8, 6, .ro, .plain, 0, []⟩]⟩,
  ⟨.CFk_RXACK, 0x20, [(0, 8, 0x8000)], [⟨0, 7, .wo, .plain, 0, []⟩]⟩,
  ⟨.CFk_TXOK, 0x40, [(0, 8, 0x8000)], [⟨0, 32, .rc, .plain, 0, []⟩]⟩,
  ⟨.CFk_RXOK, 0x44, [(0, 8, 0x8000)], [⟨0, 32, .rc, .plain, 0, []⟩]⟩,
  ⟨.CFk_RXOVR, 0x48, [(0, 8, 0x8000)], [⟨0, 32, .rc, .plain, 0, []⟩]⟩,
  ⟨.CFk_RXREJ, 0x4c, [(0, 8, 0x8000)], [⟨0, 32, .rc, .plain, 0, []⟩]⟩,
  ⟨.CFk_ARBLOST, 0x50, [(0, 8, 0x8000)], [⟨0, 32, .rc, .plain, 0, []⟩]⟩,
  ⟨.CFk_LATE, 0x54, [(0, 8, 0x8000)], [⟨0, 32, .rc, .plain, 0, []⟩]⟩,
  ⟨.CFk_LEXP, 0x58, [(0, 8, 0x8000)], [⟨0, 32, .rc, .plain, 0, []⟩]⟩,
  ⟨.CFk_BUSOFF, 0x5c, [(0, 8, 0x8000)], [⟨0, 32, .rc, .plain, 0, []⟩]⟩,
  ⟨.CFk_PXE, 0x60, [(0, 8, 0x8000)], [⟨0, 32, .rc, .plain, 0, []⟩]⟩,
  ⟨.CFk_TBb_ID, 0x100, [(0, 8, 0x8000), (0, 3, 0x100)], [⟨0, 29, .rw, .plain, 0, []⟩, ⟨29, 1, .rw, .plain, 0, []⟩]⟩,
  ⟨.CFk_TBb_CTL, 0x104, [(0, 8, 0x8000), (0, 3, 0x100)], [⟨0, 4, .rw, .plain, 0, []⟩, ⟨4, 1, .rw, .plain, 0, []⟩, ⟨5, 1, .rw, .plain, 0, []⟩, ⟨6, 1, .rw, .plain, 0, []⟩, ⟨7, 1, .rw, .plain, 0, []⟩, ⟨8, 1, .rw, .plain, 0, []⟩]⟩,
  ⟨.CFk_TBb_STAT, 0x108, [(0, 8, 0x8000), (0, 3, 0x100)], [⟨0, 4, .ro, .plain, 0, []⟩, ⟨4, 2, .ro, .plain, 0, []⟩, ⟨6, 2, .ro, .plain, 0, []⟩]⟩,
  ⟨.CFk_TBb_TS, 0x10c, [(0, 8, 0x8000), (0, 3, 0x100)], [⟨0, 32, .ro, .plain, 0, []⟩]⟩,
  ⟨.CFk_TBb_LTS, 0x110, [(0, 8, 0x8000), (0, 3, 0x100)], [⟨0, 32, .rw, .plain, 0, []⟩]⟩,
  ⟨.CFk_TBb_LTNS, 0x114, [(0, 8, 0x8000), (0, 3, 0x100)], [⟨0, 30, .rw, .plain, 0, [(0, 999999999)]⟩]⟩,
  ⟨.CFk_TBb_LTOL, 0x118, [(0, 8, 0x8000), (0, 3, 0x100)], [⟨0, 20, .rw, .plain, 0, [(0, 1000000)]⟩]⟩
]

/-- Registers of class 0x5. -/
def cfMap1 : List Fam := [
  ⟨.CFk_TBb_DATAi, 0x140, [(0, 8, 0x8000), (0, 3, 0x100), (0, 16, 0x4)], [⟨0, 32, .rw, .plain, 0, []⟩]⟩,
  ⟨.CFk_FIDf, 0x400, [(0, 8, 0x8000), (0, 32, 0x10)], [⟨0, 29, .rw, .weave, 0, []⟩]⟩,
  ⟨.CFk_FMASKf, 0x404, [(0, 8, 0x8000), (0, 32, 0x10)], [⟨0, 29, .rw, .weave, 0, []⟩]⟩,
  ⟨.CFk_FCFGf, 0x408, [(0, 8, 0x8000), (0, 32, 0x10)], [⟨0, 1, .rw, .weave, 0, []⟩, ⟨1, 2, .rw, .weave, 0, [(0, 2)]⟩, ⟨3, 1, .rw, .weave, 0, []⟩, ⟨4, 1, .rw, .weave, 0, []⟩]⟩
]

/-- The registers of class 0x5. -/
def cfMap : List Fam := cfMap0 ++ cfMap1

/-- Registers of class 0x6. -/
def usMap : List Fam := [
  ⟨.US_SCTL, 0x0, [], [⟨0, 1, .rwl, .weave, 1, []⟩]⟩,
  ⟨.US_SSTAT, 0x4, [], [⟨0, 3, .ro, .plain, 0, []⟩, ⟨3, 1, .ro, .plain, 0, []⟩, ⟨4, 7, .ro, .plain, 0, []⟩, ⟨11, 1, .ro, .plain, 0, []⟩, ⟨12, 1, .ro, .plain, 0, []⟩]⟩,
  ⟨.US_SOF, 0x8, [], [⟨0, 11, .ro, .plain, 0, []⟩, ⟨11, 3, .ro, .plain, 0, []⟩, ⟨14, 1, .ro, .plain, 0, []⟩]⟩,
  ⟨.US_SOFTICK, 0xc, [], [⟨0, 32, .ro, .plain, 0, []⟩]⟩,
  ⟨.US_WAKE, 0x10, [], [⟨0, 1, .ro, .plain, 0, []⟩, ⟨1, 2, .ro, .plain, 0, []⟩, ⟨3, 1, .ro, .plain, 0, []⟩]⟩,
  ⟨.US_CSTAT, 0x14, [], [⟨0, 2, .ro, .plain, 0, []⟩]⟩,
  ⟨.US_RESETS, 0x40, [], [⟨0, 32, .rc, .plain, 0, []⟩]⟩,
  ⟨.US_RSTABORT, 0x44, [], [⟨0, 32, .rc, .plain, 0, []⟩]⟩,
  ⟨.US_SUSPENDS, 0x48, [], [⟨0, 32, .rc, .plain, 0, []⟩]⟩,
  ⟨.US_WAKES, 0x4c, [], [⟨0, 32, .rc, .plain, 0, []⟩]⟩,
  ⟨.US_BULKDISC, 0x50, [], [⟨0, 32, .rc, .plain, 0, []⟩]⟩,
  ⟨.US_NOTELOST, 0x54, [], [⟨0, 32, .rc, .plain, 0, []⟩]⟩,
  ⟨.US_FPn_CTL, 0x1000, [(0, 4, 0x100)], [⟨0, 1, .rwl, .weave, 0, []⟩, ⟨1, 1, .rw, .weave, 0, []⟩, ⟨2, 3, .rw, .weave, 3, []⟩]⟩,
  ⟨.US_FPn_CFG, 0x1004, [(0, 4, 0x100)], [⟨0, 3, .rw, .weave, 3, []⟩, ⟨4, 8, .rw, .weave, 50, [(1, 255)]⟩]⟩,
  ⟨.US_FPn_STAT, 0x1008, [(0, 4, 0x100)], [⟨0, 3, .ro, .plain, 0, []⟩, ⟨3, 2, .ro, .plain, 0, []⟩, ⟨5, 3, .ro, .plain, 0, []⟩]⟩,
  ⟨.US_FPn_ID, 0x100c, [(0, 4, 0x100)], [⟨0, 16, .ro, .plain, 0, []⟩, ⟨16, 16, .ro, .plain, 0, []⟩]⟩,
  ⟨.US_FPn_LINE, 0x1010, [(0, 4, 0x100)], [⟨0, 24, .rw, .weave, 9600, [(300, 921600)]⟩, ⟨24, 2, .rw, .weave, 0, []⟩]⟩,
  ⟨.US_FPn_TXCTL, 0x1014, [(0, 4, 0x100)], [⟨0, 7, .rw, .plain, 0, [(1, 64)]⟩, ⟨8, 1, .w1s, .plain, 0, []⟩, ⟨9, 1, .ro, .plain, 0, []⟩, ⟨10, 1, .w1c, .plain, 0, []⟩]⟩,
  ⟨.US_FPn_TXDi, 0x1040, [(0, 4, 0x100), (0, 16, 0x4)], [⟨0, 32, .rw, .plain, 0, []⟩]⟩,
  ⟨.US_FPn_CODES, 0x1080, [(0, 4, 0x100)], [⟨0, 32, .rc, .plain, 0, []⟩]⟩,
  ⟨.US_FPn_TRUNC, 0x1084, [(0, 4, 0x100)], [⟨0, 32, .rc, .plain, 0, []⟩]⟩,
  ⟨.US_FPn_OC, 0x1088, [(0, 4, 0x100)], [⟨0, 32, .rc, .plain, 0, []⟩]⟩,
  ⟨.US_FPn_XERR, 0x108c, [(0, 4, 0x100)], [⟨0, 32, .rc, .plain, 0, []⟩]⟩
]

/-- Registers of class 0x7. -/
def bxMap : List Fam := [
  ⟨.BX_LCFG, 0x0, [], [⟨0, 2, .rwl, .weave, 2, [(0, 2)]⟩, ⟨2, 1, .rwl, .weave, 0, []⟩]⟩,
  ⟨.BX_DRTIME, 0x4, [], [⟨0, 16, .rw, .weave, 500, [(50, 50000)]⟩]⟩,
  ⟨.BX_ISTAT, 0x8, [], [⟨0, 1, .w1c, .plain, 0, []⟩, ⟨1, 1, .w1c, .plain, 0, []⟩, ⟨2, 1, .w1c, .plain, 0, []⟩, ⟨3, 1, .w1c, .plain, 0, []⟩, ⟨4, 1, .w1c, .plain, 0, []⟩]⟩,
  ⟨.BX_LATE, 0x10, [], [⟨0, 32, .rc, .plain, 0, []⟩]⟩,
  ⟨.BX_DRDISC, 0x14, [], [⟨0, 32, .rc, .plain, 0, []⟩]⟩,
  ⟨.BX_DRFULL, 0x18, [], [⟨0, 32, .rc, .plain, 0, []⟩]⟩,
  ⟨.BX_PWFULL, 0x1c, [], [⟨0, 32, .rc, .plain, 0, []⟩]⟩,
  ⟨.BX_PERRLOST, 0x20, [], [⟨0, 32, .rc, .plain, 0, []⟩]⟩,
  ⟨.BX_RETRIES, 0x24, [], [⟨0, 32, .rc, .plain, 0, []⟩]⟩,
  ⟨.BX_WAITOUT, 0x28, [], [⟨0, 32, .rc, .plain, 0, []⟩]⟩,
  ⟨.BX_LXBERR, 0x2c, [], [⟨0, 32, .rc, .plain, 0, []⟩]⟩,
  ⟨.BX_WINn_CFG, 0x100, [(0, 8, 0x10)], [⟨0, 1, .rwl, .weave, 0, []⟩, ⟨1, 6, .rwl, .weave, 12, [(12, 32)]⟩, ⟨7, 1, .rwl, .weave, 0, []⟩, ⟨8, 10, .rw, .weave, 64, [(1, 1023)]⟩]⟩,
  ⟨.BX_WINn_BASE, 0x104, [(0, 8, 0x10)], [⟨0, 32, .rwl, .weave, 0, []⟩]⟩,
  ⟨.BX_WINn_STAT, 0x108, [(0, 8, 0x10)], [⟨0, 1, .w1c, .plain, 0, []⟩, ⟨1, 2, .ro, .plain, 0, []⟩]⟩,
  ⟨.BX_FARn_BASEL, 0x200, [(0, 8, 0x10)], [⟨0, 32, .rw, .weave, 0, []⟩]⟩,
  ⟨.BX_FARn_BASEH, 0x204, [(0, 8, 0x10)], [⟨0, 32, .rw, .weave, 0, []⟩]⟩,
  ⟨.BX_FARn_CFG, 0x208, [(0, 8, 0x10)], [⟨0, 1, .rw, .weave, 0, []⟩, ⟨1, 1, .rw, .weave, 0, []⟩, ⟨2, 1, .w1c, .plain, 0, []⟩]⟩,
  ⟨.BX_DRd_STAT, 0x300, [(0, 4, 0x4)], [⟨0, 2, .ro, .plain, 0, []⟩, ⟨2, 2, .ro, .plain, 0, []⟩, ⟨4, 3, .ro, .plain, 0, []⟩, ⟨8, 8, .ro, .plain, 0, []⟩]⟩,
  ⟨.BX_PERRe_ADDR, 0x400, [(0, 16, 0x20)], [⟨0, 32, .ro, .plain, 0, []⟩]⟩,
  ⟨.BX_PERRe_SRC, 0x404, [(0, 16, 0x20)], [⟨0, 12, .ro, .plain, 0, []⟩, ⟨12, 4, .ro, .plain, 0, []⟩, ⟨16, 1, .ro, .plain, 0, []⟩, ⟨17, 2, .ro, .plain, 0, []⟩, ⟨19, 3, .ro, .plain, 0, []⟩, ⟨31, 1, .w1c, .plain, 0, []⟩]⟩,
  ⟨.BX_PERRe_INFO, 0x408, [(0, 16, 0x20)], [⟨0, 7, .ro, .plain, 0, []⟩, ⟨8, 5, .ro, .plain, 0, []⟩, ⟨13, 3, .ro, .plain, 0, []⟩, ⟨16, 8, .ro, .plain, 0, []⟩]⟩,
  ⟨.BX_PERRe_TSEC, 0x40c, [(0, 16, 0x20)], [⟨0, 32, .ro, .plain, 0, []⟩]⟩,
  ⟨.BX_PERRe_TNS, 0x410, [(0, 16, 0x20)], [⟨0, 30, .ro, .plain, 0, []⟩]⟩,
  ⟨.BX_IEN, 0xc, [], [⟨0, 1, .rw, .plain, 0, []⟩, ⟨1, 1, .rw, .plain, 0, []⟩, ⟨2, 1, .rw, .plain, 0, []⟩, ⟨3, 1, .rw, .plain, 0, []⟩, ⟨4, 1, .rw, .plain, 0, []⟩]⟩
]

/-- Registers of class 0x8. -/
def eqMap : List Fam := [
  ⟨.EQ_PUSHi, 0x0, [(0, 4, 0x4)], [⟨0, 32, .wo, .plain, 0, []⟩]⟩,
  ⟨.EQ_POP0, 0x10, [], [⟨0, 32, .ro, .plain, 0, []⟩]⟩,
  ⟨.EQ_POPj, 0x10, [(1, 3, 0x4)], [⟨0, 32, .ro, .plain, 0, []⟩]⟩,
  ⟨.EQ_STAT, 0x20, [], [⟨0, 13, .ro, .plain, 0, []⟩, ⟨13, 1, .ro, .plain, 0, []⟩, ⟨14, 1, .ro, .plain, 0, []⟩, ⟨15, 1, .w1c, .plain, 0, []⟩, ⟨16, 13, .ro, .plain, 0, []⟩]⟩,
  ⟨.EQ_MARKS, 0x24, [], [⟨0, 13, .rw, .weave, 3072, [(1, 4000)]⟩, ⟨16, 13, .rw, .weave, 2048, []⟩]⟩,
  ⟨.EQ_PEAK, 0x28, [], [⟨0, 13, .rc, .plain, 0, []⟩]⟩,
  ⟨.EQ_LOST, 0x40, [], [⟨0, 32, .rc, .plain, 0, []⟩]⟩,
  ⟨.EQ_POISON, 0x44, [], [⟨0, 32, .rc, .plain, 0, []⟩]⟩,
  ⟨.EQ_PUSHREF, 0x48, [], [⟨0, 32, .rc, .plain, 0, []⟩]⟩,
  ⟨.EQ_MERGED, 0x4c, [], [⟨0, 32, .rc, .plain, 0, []⟩]⟩,
  ⟨.EQ_RINGCELL, 0x50, [], [⟨0, 32, .rc, .plain, 0, []⟩]⟩,
  ⟨.EQ_NORING, 0x54, [], [⟨0, 32, .rc, .plain, 0, []⟩]⟩,
  ⟨.EQ_LOSTSRC, 0x60, [], [⟨0, 16, .w1c, .plain, 0, []⟩]⟩,
  ⟨.EQ_RTs, 0x100, [(0, 16, 0x4)], [⟨0, 2, .rw, .weave, 0, [(0, 2)]⟩, ⟨2, 3, .rw, .weave, 4, []⟩, ⟨8, 12, .rw, .weave, 0, []⟩, ⟨20, 4, .rw, .weave, 0, []⟩]⟩
]

/-- Registers of class 0x9. -/
def pwMap : List Fam := [
  ⟨.PW_INSTAT, 0x0, [], [⟨0, 3, .ro, .aon, 0, []⟩, ⟨3, 1, .ro, .aon, 0, []⟩, ⟨4, 2, .ro, .aon, 0, []⟩, ⟨6, 2, .ro, .aon, 0, []⟩, ⟨8, 4, .ro, .aon, 0, []⟩, ⟨12, 2, .ro, .aon, 0, []⟩, ⟨16, 3, .ro, .aon, 0, []⟩]⟩,
  ⟨.PW_INCFG, 0x4, [], [⟨0, 12, .rw, .aon, 1000, [(100, 4000)]⟩, ⟨12, 8, .rw, .aon, 10, [(5, 200)]⟩, ⟨20, 1, .rw, .aon, 0, []⟩, ⟨21, 3, .rw, .aon, 5, [(0, 5)]⟩]⟩,
  ⟨.PW_INTIM, 0x8, [], [⟨0, 9, .rw, .aon, 50, [(1, 500)]⟩, ⟨16, 9, .rw, .aon, 10, [(1, 500)]⟩]⟩,
  ⟨.PW_INPWR, 0xc, [], [⟨0, 10, .rw, .aon, 50, [(5, 1000)]⟩, ⟨16, 16, .rw, .aon, 1000, [(100, 10000)]⟩]⟩,
  ⟨.PW_INVTH, 0x10, [], [⟨0, 10, .rw, .aon, 160, [(150, 550)]⟩, ⟨16, 10, .rw, .aon, 640, [(300, 700)]⟩]⟩,
  ⟨.PW_PFWCFG, 0x14, [], [⟨0, 10, .rw, .aon, 200, [(160, 580)]⟩, ⟨16, 8, .rw, .aon, 0, []⟩]⟩,
  ⟨.PW_PFWSTAT, 0x18, [], [⟨0, 1, .ro, .aon, 0, []⟩]⟩,
  ⟨.PW_ADCc, 0x40, [(0, 11, 0x4)], [⟨0, 16, .ro, .plain, 0, []⟩, ⟨16, 16, .rc, .plain, 0, []⟩]⟩,
  ⟨.PW_LATE, 0x80, [], [⟨0, 32, .rc, .plain, 0, []⟩]⟩,
  ⟨.PW_INFAULTS, 0x84, [], [⟨0, 32, .rc, .plain, 0, []⟩]⟩,
  ⟨.PW_LIMITS, 0x88, [], [⟨0, 32, .rc, .plain, 0, []⟩]⟩,
  ⟨.PW_PFWS, 0x8c, [], [⟨0, 32, .rc, .plain, 0, []⟩]⟩,
  ⟨.PW_OWN, 0xc0, [], [⟨0, 1, .ro, .aon, 0, []⟩, ⟨1, 1, .ro, .aon, 0, []⟩, ⟨2, 2, .ro, .aon, 0, []⟩]⟩,
  ⟨.PW_Bb_CTL, 0x100, [(0, 8, 0x40)], [⟨0, 1, .rw, .aon, 0, []⟩, ⟨1, 3, .rw, .aon, 0, []⟩, ⟨4, 8, .rw, .aon, 10, [(1, 255)]⟩, ⟨12, 1, .wo, .plain, 0, []⟩]⟩,
  ⟨.PW_Bb_STAT, 0x104, [(0, 8, 0x40)], [⟨0, 2, .ro, .aon, 0, []⟩, ⟨2, 3, .ro, .aon, 0, []⟩, ⟨5, 1, .ro, .aon, 0, []⟩, ⟨6, 3, .ro, .aon, 0, []⟩, ⟨9, 21, .ro, .aon, 0, []⟩]⟩,
  ⟨.PW_Bb_LIM, 0x108, [(0, 8, 0x40)], [⟨0, 16, .rw, .aon, 0, [(1000, 65535)]⟩, ⟨16, 12, .rw, .aon, 120, [(1, 3600)]⟩]⟩,
  ⟨.PW_Bb_RSENSE, 0x10c, [(0, 8, 0x40)], [⟨0, 16, .rw, .aon, 1000, [(500, 20000)]⟩]⟩,
  ⟨.PW_Bb_TRIPS, 0x110, [(0, 8, 0x40)], [⟨0, 32, .rc, .plain, 0, []⟩]⟩,
  ⟨.PW_Bb_CURVEk, 0x120, [(0, 8, 0x40), (0, 8, 0x4)], [⟨0, 16, .rw, .aon, 0, []⟩, ⟨16, 12, .rw, .aon, 0, [(1, 4095)]⟩, ⟨28, 4, .rw, .aon, 0, [(0, 9)]⟩]⟩,
  ⟨.PW_SEQ, 0x400, [], [⟨0, 4, .ro, .aon, 0, []⟩, ⟨4, 1, .ro, .aon, 0, []⟩, ⟨5, 2, .ro, .aon, 0, []⟩, ⟨7, 3, .ro, .aon, 0, []⟩, ⟨10, 2, .ro, .aon, 0, []⟩]⟩,
  ⟨.PW_SEQCFG, 0x404, [], [⟨0, 12, .rw, .aon, 1000, [(10, 4000)]⟩]⟩,
  ⟨.PW_RSTCAUSE, 0x408, [], [⟨0, 1, .w1c, .aon, 1, []⟩, ⟨1, 1, .w1c, .aon, 0, []⟩, ⟨2, 1, .w1c, .aon, 0, []⟩, ⟨3, 1, .w1c, .aon, 0, []⟩, ⟨4, 1, .w1c, .aon, 0, []⟩, ⟨5, 1, .w1c, .aon, 0, []⟩, ⟨6, 1, .w1c, .aon, 0, []⟩, ⟨7, 1, .w1c, .aon, 0, []⟩]⟩
]

/-- Registers of class 0xa. -/
def mtMap : List Fam := [
  ⟨.MT_CFG, 0x0, [], [⟨0, 10, .rw, .aon, 10, [(2, 1000)]⟩, ⟨16, 7, .rw, .aon, 10, [(1, 100)]⟩, ⟨24, 1, .rw, .aon, 0, []⟩, ⟨25, 1, .rw, .aon, 0, []⟩]⟩,
  ⟨.MT_PROVE, 0x4, [], [⟨0, 16, .rw, .aon, 1440, []⟩]⟩,
  ⟨.MT_STAT, 0x8, [], [⟨0, 2, .ro, .aon, 0, []⟩, ⟨2, 1, .ro, .aon, 0, []⟩, ⟨3, 1, .ro, .aon, 0, []⟩, ⟨4, 1, .ro, .aon, 0, []⟩, ⟨5, 1, .ro, .aon, 0, []⟩, ⟨6, 2, .ro, .aon, 0, []⟩, ⟨8, 2, .ro, .aon, 0, []⟩, ⟨10, 1, .w1c, .aon, 0, []⟩, ⟨11, 1, .ro, .aon, 0, []⟩]⟩,
  ⟨.MT_MATE, 0xc, [], [⟨0, 2, .ro, .aon, 0, []⟩, ⟨2, 1, .ro, .aon, 0, []⟩, ⟨8, 8, .ro, .aon, 0, []⟩]⟩,
  ⟨.MT_CKSTAT, 0x10, [], [⟨0, 3, .ro, .plain, 0, []⟩, ⟨3, 1, .ro, .plain, 0, []⟩, ⟨4, 2, .ro, .plain, 0, []⟩, ⟨6, 1, .w1c, .plain, 0, []⟩]⟩,
  ⟨.MT_CKSEQ, 0x14, [], [⟨0, 32, .ro, .plain, 0, []⟩]⟩,
  ⟨.MT_PRSTAT, 0x18, [], [⟨0, 7, .ro, .aon, 0, []⟩, ⟨7, 1, .ro, .aon, 0, []⟩, ⟨8, 8, .ro, .aon, 0, []⟩]⟩,
  ⟨.MT_TKTIME, 0x1c, [], [⟨0, 32, .ro, .aon, 0, []⟩]⟩,
  ⟨.MT_LATE, 0x40, [], [⟨0, 32, .rc, .aon, 0, []⟩]⟩,
  ⟨.MT_LINEERR, 0x44, [], [⟨0, 32, .rc, .aon, 0, []⟩]⟩,
  ⟨.MT_TAKEOVERS, 0x48, [], [⟨0, 32, .rc, .aon, 0, []⟩]⟩,
  ⟨.MT_BLOCKED, 0x4c, [], [⟨0, 32, .rc, .aon, 0, []⟩]⟩,
  ⟨.MT_CKFAIL, 0x50, [], [⟨0, 32, .rc, .aon, 0, []⟩]⟩,
  ⟨.MT_REPSKIP, 0x54, [], [⟨0, 32, .rc, .aon, 0, []⟩]⟩
]

/-- Registers of class 0xb. -/
def tlMap : List Fam := [
  ⟨.TL_HEADL, 0x0, [], [⟨0, 32, .ro, .plain, 0, []⟩]⟩,
  ⟨.TL_HEADH, 0x4, [], [⟨0, 32, .ro, .plain, 0, []⟩]⟩,
  ⟨.TL_TAILL, 0x8, [], [⟨0, 32, .ro, .plain, 0, []⟩]⟩,
  ⟨.TL_TAILH, 0xc, [], [⟨0, 32, .ro, .plain, 0, []⟩]⟩,
  ⟨.TL_FETCH, 0x10, [], [⟨0, 9, .ro, .plain, 0, []⟩, ⟨9, 1, .ro, .plain, 0, []⟩]⟩,
  ⟨.TL_FETCHL, 0x14, [], [⟨0, 32, .ro, .plain, 0, []⟩]⟩,
  ⟨.TL_FETCHH, 0x18, [], [⟨0, 32, .ro, .plain, 0, []⟩]⟩,
  ⟨.TL_STORE, 0x1c, [], [⟨0, 1, .ro, .plain, 0, []⟩]⟩,
  ⟨.TL_LOST, 0x40, [], [⟨0, 32, .rc, .plain, 0, []⟩]⟩,
  ⟨.TL_FBi_w, 0x2000, [(0, 256, 0x20), (0, 8, 0x4)], [⟨0, 32, .ro, .plain, 0, []⟩]⟩,
  ⟨.TL_WINk_w, 0x8000, [(0, 1024, 0x20), (0, 8, 0x4)], [⟨0, 32, .ro, .plain, 0, []⟩]⟩
]

/-- Registers of class 0xc. -/
def fwMap : List Fam := [
  ⟨.FW_STAT, 0x0, [], [⟨0, 2, .ro, .plain, 0, []⟩, ⟨2, 3, .ro, .plain, 0, []⟩, ⟨5, 1, .ro, .plain, 0, []⟩, ⟨6, 1, .ro, .plain, 0, []⟩, ⟨7, 1, .ro, .plain, 0, []⟩, ⟨8, 1, .ro, .plain, 0, []⟩, ⟨9, 1, .ro, .plain, 0, []⟩]⟩,
  ⟨.FW_SESSION, 0x4, [], [⟨0, 32, .ro, .plain, 0, []⟩]⟩,
  ⟨.FW_TOTAL, 0x8, [], [⟨0, 32, .ro, .plain, 0, []⟩]⟩,
  ⟨.FW_PROG, 0xc, [], [⟨0, 16, .ro, .plain, 0, []⟩, ⟨16, 16, .ro, .plain, 0, []⟩]⟩,
  ⟨.FW_ERR, 0x10, [], [⟨0, 4, .ro, .plain, 0, []⟩, ⟨4, 3, .ro, .plain, 0, []⟩, ⟨7, 3, .ro, .plain, 0, []⟩, ⟨10, 1, .ro, .plain, 0, []⟩, ⟨16, 16, .ro, .plain, 0, []⟩]⟩,
  ⟨.FW_ERRVAL, 0x14, [], [⟨0, 32, .ro, .plain, 0, []⟩]⟩,
  ⟨.FW_RUNc, 0x40, [(1, 5, 0x4)], [⟨0, 32, .ro, .plain, 0, []⟩]⟩,
  ⟨.FW_SHELF, 0x60, [], [⟨1, 5, .ro, .plain, 0, []⟩]⟩,
  ⟨.FW_BLKBUFi, 0x1000, [(0, 1028, 0x4)], [⟨0, 32, .wo, .plain, 0, []⟩]⟩
]

/-- Registers of class 0xd. -/
def weMap : List Fam := [
  ⟨.WE_STATUS, 0x0, [], [⟨0, 3, .ro, .plain, 0, []⟩, ⟨8, 4, .ro, .plain, 0, []⟩, ⟨16, 1, .ro, .plain, 0, []⟩, ⟨17, 1, .ro, .plain, 0, []⟩, ⟨18, 1, .ro, .plain, 0, []⟩]⟩,
  ⟨.WE_ERRSPL, 0x4, [], [⟨0, 32, .ro, .plain, 0, []⟩]⟩,
  ⟨.WE_ERROFF, 0x8, [], [⟨0, 32, .ro, .plain, 0, []⟩]⟩,
  ⟨.WE_ERRRES, 0xc, [], [⟨0, 8, .ro, .plain, 0, []⟩, ⟨16, 16, .ro, .plain, 0, []⟩]⟩,
  ⟨.WE_ERROWN, 0x10, [], [⟨0, 8, .ro, .plain, 0, []⟩, ⟨8, 8, .ro, .plain, 0, []⟩, ⟨16, 8, .ro, .plain, 0, []⟩, ⟨24, 8, .ro, .plain, 0, []⟩]⟩,
  ⟨.WE_QUIET, 0x14, [], [⟨0, 20, .rw, .plain, 10000, [(100, 1000000)]⟩]⟩,
  ⟨.WE_QSTAT, 0x18, [], [⟨0, 2, .ro, .plain, 0, []⟩]⟩,
  ⟨.WE_LATE, 0x1c, [], [⟨0, 32, .rc, .plain, 0, []⟩]⟩,
  ⟨.WE_LOCKREF, 0x20, [], [⟨0, 32, .rc, .plain, 0, []⟩]⟩,
  ⟨.WE_CLAIMREF, 0x24, [], [⟨0, 32, .rc, .plain, 0, []⟩]⟩,
  ⟨.WE_MGRREF, 0x28, [], [⟨0, 32, .rc, .plain, 0, []⟩]⟩,
  ⟨.WE_REFADR, 0x2c, [], [⟨0, 20, .ro, .plain, 0, []⟩, ⟨20, 8, .ro, .plain, 0, []⟩, ⟨28, 1, .ro, .plain, 0, []⟩, ⟨31, 1, .w1c, .plain, 0, []⟩]⟩,
  ⟨.WE_REFSRC, 0x30, [], [⟨0, 12, .ro, .plain, 0, []⟩, ⟨12, 4, .ro, .plain, 0, []⟩, ⟨16, 1, .ro, .plain, 0, []⟩, ⟨17, 2, .ro, .plain, 0, []⟩]⟩,
  ⟨.WE_IMGVER, 0x34, [], [⟨0, 32, .ro, .plain, 0, []⟩]⟩,
  ⟨.WE_IMGID, 0x38, [], [⟨0, 32, .ro, .plain, 0, []⟩]⟩,
  ⟨.WE_LOADS, 0x3c, [], [⟨0, 32, .ro, .aon, 0, []⟩]⟩,
  ⟨.WE_KEYSLOT, 0x40, [], [⟨0, 2, .ro, .plain, 0, []⟩, ⟨4, 4, .ro, .otp, 0, []⟩, ⟨8, 4, .ro, .otp, 0, []⟩]⟩
]

/-- The registers of a class (R26). -/
def classMap : Nat → List Fam
  | 0 => ncMap
  | 1 => rgMap
  | 2 => tmMap
  | 3 => swMap
  | 4 => wvMap
  | 5 => cfMap
  | 6 => usMap
  | 7 => bxMap
  | 8 => eqMap
  | 9 => pwMap
  | 10 => mtMap
  | 11 => tlMap
  | 12 => fwMap
  | 13 => weMap
  | _ => []

end Sys2Proof.Machine
end

