-- ==== Sys2Proof/Machine/State.lean ====
section
/-! DEFINITION. The state of the hub: its registers, what its units hold besides them, the commands that wait; and the state right after
reset. Plain data throughout. -/

namespace Sys2Proof.Machine

/-! ### What the hub has put out, the event queue, commands and the tally (chapters 13, 17) -/

/-- What the hub puts on its balls or answers to a local master. The list is the model's own record of it. -/
inductive Out where
  /-- the head of a cut-through cell left on a port; its tail follows -/
  | cellHead (p : Nat) (c : Cell)
  /-- the rest of a cut-through cell left; `stomped`: with the error end marker (R101) -/
  | cellTail (p : Nat) (c : Cell) (stomped : Bool)
  /-- a whole cell left on a port -/
  | cell (p : Nat) (c : Cell)
  /-- a frame left on an egress output; `stomped`: its tail was corrupted -/
  | frame (n : Nat) (f : Frame) (stomped : Bool)
  /-- a pause frame left on an edge port: its source address, the classes it names (none: IEEE 802.3x pause) and its quanta -/
  | pause (n mac : Nat) (classes : Option Nat) (quanta : Nat)
  /-- an internal output handed a frame's bytes to its unit, with the launch-table index of its tag (R204) and that entry's time -/
  | toUnit (n : Nat) (bytes : List Byte) (lti sec ns frac : Nat)
  /-- a message left on the mate line (R405) -/
  | mate (type : Nat) (payload : List Byte)
  /-- an answer to a local master: status and data -/
  | answer (m : Src) (st : Status) (data : List Byte)
  /-- the hub's LXB access as master: address phase or one beat -/
  | lxbAddr (cs addr : Nat) (write : Bool) (bl : Nat)
  | lxbBeat (addr : Nat) (be : Nat) (data : List Byte)
  /-- the hub as LXB target ends an access: RDY with data, ERR_N at a beat, or RETRY_N -/
  | lxbReady (data : List Byte)
  | lxbErr (beat : Nat)
  | lxbRetry
  /-- bytes the service port S sends: control data, a STALL, a bulk answer, a notice -/
  | usbData (bytes : List Byte)
  | usbStall
  | usbBulk (bytes : List Byte)
  | usbNotice (bytes : List Byte)
  /-- text handed to the MC0 console (R322) -/
  | console (text : List Byte)
  /-- what the instruction in force shifts out of the test access port: 32 bits of IDCODE, or the single 0 of BYPASS -/
  | jtag (bits : Nat) (width : Nat)
  /-- remote wake signalling on S -/
  | usbWake
  /-- SET_LINE_CODING to a CDC device: BAUD and FORMAT (R334) -/
  | lineCoding (port baud format : Nat)
  /-- bytes sent to a field device -/
  | fieldOut (port : Nat) (bytes : List Byte)
  /-- a frame handed to MC0 with its descriptor: LEN, input port, VID, PCP, STAMPED, SEC and NS (R447) -/
  | ptpToMc0 (len port vid pcp : Nat) (stamped : Bool) (sec ns : Nat) (f : Frame)
  /-- a module management access: port, device, address, write and byte -/
  | i2c (p dev addr : Nat) (write : Bool) (data : Nat)
  /-- an event cell handed to the management unit (R346) -/
  | mgmtCell (c : Cell)
  /-- a CAN controller starts a frame -/
  | can (k : Nat) (f : CanFrame)
  deriving DecidableEq, Repr

/-- An entry of the event queue (R338): its words as stored and the route it was admitted under (R346, R349). -/
structure EqEntry where
  w0 : Word
  w1 : Word
  w2 : Word
  w3 : Word
  needLocal : Bool
  needRing : Bool
  /-- admitted under MODE 2 (R346) -/
  both : Bool
  dring : Nat
  dnode : Nat
  deriving DecidableEq, Repr

/-- The event queue besides its registers. -/
structure EqSt where
  /-- entries held, in order of admission (R341) -/
  entries : List EqEntry
  /-- pop latches by consumer: 0 LXB, 1 MC0, 2 MC1, 3 S; the four words (R344) -/
  latch : Tbl (Word × Word × Word × Word)
  /-- words 0 to 2 of a push as written (R343) -/
  push : Tbl Word
  /-- SEQ of event cells by destination, ring * 4,096 + node (R347) -/
  seq : Tbl Nat
  /-- CAN aggregator's pending events while EQ_HWM_N is asserted (R342): key and entry words, key naming what it stands for -/
  canPend : List (Nat × (Word × Word × Word))
  /-- events of the weaver aggregator and the host engine that wait meanwhile: PRI, SRC, CODE, DETAIL, words 2 and 3 -/
  waits : List (Nat × Nat × Nat × Nat × Nat × Nat)
  deriving DecidableEq, Repr

def EqSt.init : EqSt := { entries := [], latch := [], push := [], seq := [], canPend := [], waits := [] }

/-- A command as the latch takes it (R432, R434): its sender and its eight words. -/
structure Cmd where
  src : Src
  words : List Word
  deriving DecidableEq, Repr

/-- A long command queued or running: its sequence number and itself. -/
structure LongCmd where
  seq : Nat
  cmd : Cmd
  /-- the block that a FW_BLOCK request carried (R456) -/
  block : Option (List Byte)
  /-- boot flash and its read-back serve the command well -/
  ok : Bool
  deriving DecidableEq, Repr

/-- A sender's result slot (R435). -/
structure ResSlot where
  code : Nat
  result : Nat
  seq : Nat
  tag : Nat
  deriving DecidableEq, Repr

def ResSlot.init : ResSlot := { code := 0, result := 0, seq := 0, tag := 0 }

/-- Commands and the tally besides their registers. -/
structure MgSt where
  /-- entries on chip, newest first, at most 1,024 (R440) -/
  tally : List TEntry
  /-- the next sequence number -/
  nextSeq : Nat
  /-- entries not yet written to the store (R440) -/
  toStore : List Nat
  /-- result slots: key 0xFFFF0 + master for the local masters, the index of the management source otherwise -/
  slots : Tbl ResSlot
  /-- long commands, oldest first; the head runs once begun (R434) -/
  longQ : List LongCmd
  /-- the final result of the command that runs, once it has one -/
  longRes : Option Nat
  /-- entries in the fetch buffer (R442) -/
  fetchBuf : List TEntry
  /-- TL_HEAD and TL_TAIL as TL_HEADL latched them (R450) -/
  latchHead : Nat
  latchTail : Nat
  /-- local tick at which the debug unlock ends (R431) -/
  debugUntil : Option Nat
  /-- start count, kept in boot flash (R440) -/
  startCount : Nat
  /-- the first entry after a core start has been made -/
  started : Bool
  /-- the frame buffer words NC_FTXBUF and the words NC_FTXD0 to 3 as written (R448) -/
  ftx : Tbl Word
  deriving DecidableEq, Repr

def MgSt.init : MgSt :=
  { tally := [], nextSeq := 1, toStore := [], slots := [], longQ := [], longRes := none, fetchBuf := [], latchHead := 0, latchTail := 0,
    debugUntil := none, startCount := 0, started := false, ftx := [] }

/-- The clock of the hub: local time and the local tick (R225 to R228). -/
structure ClockSt where
  /-- local time, in units of 2^-39 ns -/
  site : Nat
  /-- the local tick counter, 64 bits -/
  tick : Nat
  deriving DecidableEq, Repr

/-- One management source of the image (R51). -/
structure MgSource where
  ring : Nat
  node : Nat
  rights : Nat
  deriving DecidableEq, Repr

/-- A PINS record (R47). -/
structure PinRec where
  pin : Nat
  weaver : Nat
  role : Nat
  lane : Nat
  drive : Nat
  park : Nat
  reach : Nat
  deriving DecidableEq, Repr

/-- A preset record (R49) and the splint it stands in, numbered in the order of R43 (HEAD 0 to SIGN 11). -/
structure Preset where
  splint : Nat
  cls : Nat
  off : Nat
  value : Nat
  opn : Nat
  /-- byte offset of the record in the image -/
  at' : Nat
  deriving DecidableEq, Repr

/-- A POOL record (R53). -/
structure PoolRec where
  region : Nat
  owner : Nat
  flags : Nat
  first : Nat
  cells : Nat
  deriving DecidableEq, Repr

/-- A CLAM record (R55). -/
structure ClaimRec where
  resource : Nat
  mode : Nat
  oclass : Nat
  oindex : Nat
  first : Nat
  count : Nat
  deriving DecidableEq, Repr

/-- The running weave image: its records, and the bytes they were read from (R64 compares bodies byte for byte). -/
structure Weave where
  bytes : List Byte
  pins : List PinRec
  presets : List Preset
  sources : List MgSource
  pool : List PoolRec
  claims : List ClaimRec
  imgver : Nat
  deriving DecidableEq, Repr

/-! ### Fuses and boot flash (chapters 02, 18) -/

/-- An OTP key slot (R57, R58): the key hash, the provisioned and the revoked fuse. -/
structure KeySlot where
  hash : List Byte
  prov : Bool
  revoked : Bool
  deriving DecidableEq, Repr

/-- The fuses. -/
structure OtpSt where
  fusedId : Nat
  keys : Tbl KeySlot
  debugDisable : Bool
  jtagLock : Bool
  deriving DecidableEq, Repr

def KeySlot.blank : KeySlot := { hash := [], prov := false, revoked := false }

/-! ### Ring links, membership and transactions (chapters 03, 04, 05) -/

/-- A pass-through cell in a transit region, or cutting through it (R106, R107). -/
structure TCell where
  cell : Cell
  /-- its last byte is in, or it cuts through: ready to send (R106) -/
  ready : Bool
  /-- it takes pool cells of the region (a stored cell) -/
  stored : Bool
  /-- its trailer has not come yet -/
  awaits : Bool
  /-- the port it came in on -/
  inPort : Nat
  deriving DecidableEq, Repr

/-- What row of R103 took a cell whose trailer has not come yet; `removed`: rows 6 and 7; `discard`: rows 1 and 3. -/
inductive RxDisp where
  | deliver | copyForward | forward | toUplink | fromUplink | removed | discard
  deriving DecidableEq, Repr

/-- The cell a port is receiving: its header, what R103 says of it, whether it was copied. -/
structure RxCell where
  hdr : Cell
  disp : RxDisp
  /-- the output it was forwarded to -/
  outPort : Nat
  deriving DecidableEq, Repr

/-- The cell a port is sending. -/
structure TxCell where
  cell : Cell
  /-- a cut-through cell whose end has not come yet -/
  awaits : Bool
  inPort : Nat
  deriving DecidableEq, Repr

/-- What one port RPE, RPW or U holds besides its registers. The local queues of a ring port are the queues of its egress output (R204). -/
structure LinkSt where
  /-- local tick at which an acceptable HELLO last came (HEARD, R90) -/
  heardAt : Option Nat
  /-- a PULSE has come since the port entered UP (R78, R137) -/
  pulsed : Bool
  /-- a HELLO of this stay in GREET named a wrong port (R78) -/
  miswired : Bool
  /-- the unwrap hold runs (R137) -/
  holding : Bool
  /-- pass-through cells, oldest first; a class's list is those of its class, in order -/
  transit : List TCell
  /-- credit of classes 0 to 7 (R105) -/
  credit : List Int
  rx : Option RxCell
  tx : Option TxCell
  deriving DecidableEq, Repr

/-- A link port right after reset: nothing received, sent or queued; credit zero (R105). -/
def LinkSt.init : LinkSt :=
  { heardAt := none, pulsed := false, miswired := false, holding := false, transit := [],
    credit := [0, 0, 0, 0, 0, 0, 0, 0], rx := none, tx := none }

/-- POSTABLE cells of one sending held in the open window (R123). -/
structure PosWin where
  gen : Nat
  size : Nat
  /-- (FIRST, entries) of the cells held -/
  held : List (Nat × List Nat)
  deriving DecidableEq, Repr

/-- What membership keeps besides its registers. -/
structure MemSt where
  /-- the ENUMERATE last counted: GEN, ORIGIN, OFFSET (R118) -/
  counted : Option (Nat × Nat × Nat)
  /-- GEN of the last ENUMERATE this hub sent (R117) -/
  sentGen : Nat
  /-- the race of R120 runs for that GEN -/
  awaiting : Bool
  /-- an ENUMERATE has returned and the table for its GEN is being built (R122) -/
  building : Bool
  /-- REPORTs of the sent GEN that came -/
  reports : Nat
  /-- node number to position + 1, as REPORTs and ASSIGNEDs gave it (R122) -/
  built : Tbl Nat
  /-- position + 1 of the identities reported, for ASSIGNED of RESULT 0 (R122) -/
  seen : List (Nat × Nat)
  /-- the POSTABLE sending of this GEN has gone out -/
  sentTable : Bool
  /-- report FIFO, oldest first (R121) -/
  fifo : List (List Byte)
  /-- the adopted position table: node number to position + 1 (R123) -/
  table : Tbl Nat
  tableGen : Option Nat
  /-- the window that collects a sending's cells (R123) -/
  window : Option PosWin
  /-- the membership record of a hub without a store, as boot flash keeps it (R112, R114) -/
  record : Option MemRec
  deriving DecidableEq, Repr

def MemSt.init : MemSt :=
  { counted := none, sentGen := 0, awaiting := false, building := false, reports := 0, built := [], seen := [], sentTable := false,
    fifo := [], table := [], tableGen := none, window := none, record := none }

/-- Who waits for a transaction's result. -/
inductive Waiter where
  /-- a local master's request with its TAG -/
  | master (m : Src)
  /-- delayed-read slot d of the bridge, holding the read of that number (R173) -/
  | slot (d id : Nat)
  /-- a far write of far window n: LXB address and byte count, for the posted-error log (R168) -/
  | farWrite (n addr count : Nat)
  deriving DecidableEq, Repr

/-- A request kept at its source (R141): a non-posted one whole, a posted one without its payload. -/
structure Kept where
  cell : Cell
  posted : Bool
  waiter : Waiter
  /-- first attempt's ring; a resend goes on the other -/
  sentB : Bool
  deriving DecidableEq, Repr

/-- States of a source entry (RG_PSTAT.STATE). -/
inductive PairState where
  | free | active | sync | dead
  deriving DecidableEq, Repr

/-- One entry of the source pair table (R141, R142). -/
structure SrcEntry where
  state : PairState
  pring : Nat
  pnode : Nat
  next : Nat
  kept : List Kept
  race : Nat
  tries : Nat
  timer : Bool
  /-- BASE of the SYNC under way -/
  base : Nat
  /-- ring B was used for the last attempt -/
  lastB : Bool
  /-- requests of a failed window, awaiting SYNCED (R145) -/
  failed : List Kept
  /-- requests waiting for the entry, or for room in its window -/
  waiting : List (Cell × Bool × Waiter)
  deriving DecidableEq, Repr

def SrcEntry.init : SrcEntry :=
  { state := .free, pring := 0, pnode := 0, next := 0, kept := [], race := 0, tries := 0, timer := false, base := 0, lastB := false,
    failed := [], waiting := [] }

/-- One entry of the destination pair table (R141, R143). -/
structure DstEntry where
  used : Bool
  pring : Nat
  pnode : Nat
  expect : Nat
  /-- responses kept for the last 8 sequence numbers, newest first; none while the request is still being applied (R155) -/
  kept : List (Nat × Option Cell)
  /-- a posted write applied and not yet covered by a response (R144) -/
  ackDue : Bool
  /-- copies of the request being applied that wait for its response: true for a SKIP (R155) -/
  copies : List Bool
  deriving DecidableEq, Repr

def DstEntry.init : DstEntry := { used := false, pring := 0, pnode := 0, expect := 0, kept := [], ackDue := false, copies := [] }

/-- Requests that found no free pair entry (R140) and the two pair tables. -/
structure PairSt where
  src : Tbl SrcEntry
  dst : Tbl DstEntry
  /-- requests waiting for a free source entry, oldest first -/
  queue : List (Cell × Bool × Waiter)
  deriving DecidableEq, Repr

def PairSt.init : PairSt := { src := [], dst := [], queue := [] }

/-- Where the answer of a request at the bridge goes: to the sender of a request cell, or to a waiter of this hub. -/
inductive Reply where
  | ring (c : Cell)
  | home (w : Waiter)
  deriving DecidableEq, Repr

/-- A request to an LXB window (R166, R167). -/
structure LxbJob where
  win : Nat
  write : Bool
  /-- first byte's window offset and byte count -/
  off : Nat
  count : Nat
  data : List Byte
  /-- the first beat whose data failed parity, if any (R168) -/
  poisonAt : Option Nat
  posted : Bool
  src : Src
  reply : Reply
  /-- next beat of the request -/
  beat : Nat
  /-- bytes read so far -/
  got : List Byte
  deriving DecidableEq, Repr

/-- Who holds the bus. -/
inductive BusOwner where
  | idle | hub | ext
  deriving DecidableEq, Repr

/-- A delayed-read slot (R173). -/
structure DrSlot where
  state : Nat
  addr : Nat
  bl : Nat
  be : Nat
  data : List Byte
  /-- number of the read the slot serves: a response to another is late (R174) -/
  id : Nat
  deriving DecidableEq, Repr

def DrSlot.init : DrSlot := { state := 0, addr := 0, bl := 0, be := 0, data := [], id := 0 }

/-- The bridge besides its registers (R154 to R175). -/
structure BridgeSt where
  owner : BusOwner
  /-- the external master had the last access (turn taking, R160) -/
  lastExt : Bool
  /-- beats left of the hub's own access -/
  left : Nat
  /-- requests at the bridge, in the order they will go; the head is the one on the bus -/
  jobs : List LxbJob
  /-- posted writes that found the write queue full, oldest first (R154) -/
  held : List LxbJob
  slots : Tbl DrSlot
  /-- reads of a slot whose result was discarded by time: a match is late (R174) -/
  expired : List (Nat × Nat × Nat)
  /-- the number the next delayed read takes -/
  nextId : Nat
  deriving DecidableEq, Repr

def BridgeSt.init : BridgeSt :=
  { owner := .idle, lastExt := false, left := 0, jobs := [], held := [], slots := [], expired := [], nextId := 1 }

/-! ### The slath, the pool, forwarding and egress (chapters 06, 07) -/

/-- What waits at an output: a frame, a ring cell on its way to U, or bytes of an internal unit. -/
inductive Body where
  | frame (f : Frame)
  | cell (c : Cell)
  | raw (bytes : List Byte)
  /-- a frame for MC0 with what its descriptor says: input port, VID, PCP, STAMPED, SEC and NS (R447) -/
  | mc0 (f : Frame) (port vid pcp : Nat) (stamped : Bool) (sec ns : Nat)
  deriving DecidableEq, Repr

/-- A frame or cell queued at an egress output, with the parts of its tag that outlive the slath (R20), and the pool cells and
overflow blocks it holds (R185, R188). -/
structure EItem where
  body : Body
  /-- length L of R208 -/
  len : Nat
  tc : Nat
  dp : Nat
  /-- slath port it entered on -/
  src : Nat
  /-- launch-table index; 0: no launch time -/
  lti : Nat
  poison : Bool
  /-- management asked for a transmit stamp (R448) -/
  tsreq : Bool
  /-- cells of the output's own and shared cells -/
  ded : Nat
  shr : Nat
  /-- its blocks in overflow memory, in order: block number and the seed its chain was placed under (R188, R192) -/
  spill : List (Nat × Nat)
  /-- the copy of a multicast frame it refers to (R183); 0: its own cells -/
  copy : Nat
  /-- a ring cell whose ring R96 chose by FLOW[0] (R191) -/
  byFlow : Bool
  deriving DecidableEq, Repr

/-- The frame an output is sending: when its first bit left (2^-16 ns of local time), the RATE and BURST it latched then (R210), whether
it cuts through, whether its end is still to come, whether that end is stomped, and when its queue's gate closed or will close next
(2^-39 ns of local time; R216). -/
structure Sending where
  item : EItem
  start : Nat
  rate : Nat
  burst : Nat
  cut : Bool
  awaits : Bool
  stomp : Bool
  close : Option Nat
  deriving DecidableEq, Repr

/-- An egress output besides its registers. -/
structure OutSt where
  items : List EItem
  sending : Option Sending
  /-- pointer P of R207 (5 to 0), V, and the deficits of Q0 to Q5 -/
  p : Nat
  v : Bool
  defs : List Nat
  /-- eligible time E of each queue, in 2^-16 ns of local time; none: never refilled (R210) -/
  elig : List (Option Int)
  /-- active list, its start S in 2^-39 ns of local time (R213) -/
  active : Option Nat
  listStart : Nat
  /-- armed list -/
  armed : Option Nat
  /-- output paused; priorities PCP paused (R200) -/
  paused : Bool
  pausedP : Nat
  /-- the hold timer of R202 runs -/
  holding : Bool
  /-- a boot load preset a GLEN other than 0 for list 0, which waits for the first whole second (R218) -/
  bootList : Bool
  deriving DecidableEq, Repr

def OutSt.init : OutSt :=
  { items := [], sending := none, p := 5, v := false, defs := [0, 0, 0, 0, 0, 0, 0, 0],
    elig := [none, none, none, none, none, none, none, none], active := none, listStart := 0, armed := none,
    paused := false, pausedP := 0, holding := false, bootList := false }

/-- Where classification sends a frame (R195). -/
structure RouteTo where
  /-- outputs, as slath ports -/
  outs : List Nat
  /-- also to this ring and node, or (multicast) this group of the own ring -/
  tunnel : Option (Bool × Nat × Nat)
  deriving DecidableEq, Repr

/-- A frame that is coming in at an edge port: its head and what classification said (R195, R179). -/
structure InFrame where
  head : Frame
  vid : Nat
  pcp : Nat
  tc : Nat
  dp : Nat
  route : Option RouteTo
  cut : Bool
  /-- outputs it is being sent on, cut-through -/
  cutOuts : List Nat
  ptp : Bool
  /-- a MAC control frame (R195, R200) -/
  ctl : Bool
  /-- its VLAN does not let it in: dropped, and not learnt (R195) -/
  barred : Bool
  stampSec : Nat
  stampNs : Nat
  deriving DecidableEq, Repr

/-- A frame that internal beats are building at a slath input (R21, R22). -/
structure BeatFrame where
  bytes : List Byte
  route : Nat
  tc : Nat
  dp : Nat
  lti : Nat
  ct : Bool
  /-- SRC of the first beat's tag -/
  src : Nat
  poison : Bool
  /-- the rest of the frame is discarded (R22) -/
  dead : Bool
  /-- outputs that have begun to send it, cut-through -/
  begun : List Nat
  deriving DecidableEq, Repr

/-- A destination of the forwarding database (R194). -/
inductive FdbDst where
  | edge (e : Nat)
  | remote (ring node : Nat)
  | discard
  deriving DecidableEq, Repr

/-- An entry of the forwarding database: key, destination, static flag, age mark (local tick of its last refresh), and its bucket, or none:
the overflow table. -/
structure FdbEntry where
  vid : Nat
  mac : Nat
  dst : FdbDst
  static : Bool
  mark : Nat
  bucket : Option Nat
  deriving DecidableEq, Repr

/-- One copy of a multicast frame in the pool and the references to it (R183). -/
structure McCopy where
  refs : Nat
  cells : Nat
  src : Nat
  deriving DecidableEq, Repr

/-- The slath, the pool and the hashes besides their registers. -/
structure SlathSt where
  inputs : Tbl (Option InFrame)
  beats : Tbl (Option BeatFrame)
  /-- tags of the beats granted of the frame that came last at each input, as they crossed (R20, R21) -/
  granted : Tbl (List Nat)
  /-- dedicated and shared cells in use, by output -/
  ded : Tbl Nat
  shr : Tbl Nat
  /-- pool cells held by frames that entered on a port (R200) -/
  heldBy : Tbl Nat
  copies : Tbl McCopy
  nextCopy : Nat
  fdb : List FdbEntry
  /-- overflow: chain number, next block index and seed of each queue's open chain; blocks in use under seeds 0 and 1 -/
  chains : Tbl (Nat × Nat × Nat)
  nextChain : Nat
  blocks0 : Nat
  blocks1 : Nat
  /-- what overflow memory holds, by block number: the bytes written to each block last (R28, R188) -/
  blocks : Tbl (List Byte)
  /-- block writes per bank group in the present window (R191) -/
  bankWrites : List Nat
  /-- bytes inserted on rings A and B in the window, counting cells whose ring FLOW[0] chose -/
  flowA : Nat
  flowB : Nat
  /-- slots that moved to the new seed, and each slot's last cell, by local tick + 1 (R192) -/
  flowMoved : Tbl Bool
  flowLast : Tbl Nat
  /-- the 1,000 ms have run: slots move at their next cell -/
  flowForce : Bool
  /-- local tick at which the FLOW switch started -/
  flowStart : Nat
  /-- an FDB operation waits for the walk's end (R198) -/
  fdbWaiting : Bool
  deriving DecidableEq, Repr

def SlathSt.init : SlathSt :=
  { inputs := [], beats := [], granted := [], ded := [], shr := [], heldBy := [], copies := [], nextCopy := 1, fdb := [], chains := [], nextChain := 0,
    blocks0 := 0, blocks1 := 0, blocks := [], bankWrites := [0, 0, 0, 0], flowA := 0, flowB := 0, flowMoved := [], flowLast := [], flowForce := false, flowStart := 0,
    fdbWaiting := false }

/-! ### Site time (chapter 08) -/

/-- A launch-table entry: launch time (SEC, NS, FRAC), tolerance in ns, frames that refer to it (R248). -/
structure LaunchE where
  sec : Nat
  ns : Nat
  frac : Nat
  tol : Nat
  refs : Nat
  deriving DecidableEq, Repr

def LaunchE.free : LaunchE := { sec := 0, ns := 0, frac := 0, tol := 0, refs := 0 }

/-- A peer-delay request awaiting its answer (R233): its SEQ and send stamp t1 in units of 2^-16 ns. -/
structure PdPending where
  seq : Nat
  t1 : Nat
  deriving DecidableEq, Repr

/-- The time unit besides its registers. -/
structure TimeSt where
  /-- captures held, oldest first: SEC, NS, falling (R246) -/
  caps : Tbl (List (Nat × Nat × Bool))
  /-- a compare slot has fired since it was armed (R245) -/
  fired : Tbl Bool
  /-- the local tick at which the pulse of a PPS output ends, until it has ended (R247) -/
  pps : Tbl (Option Nat)
  /-- transmit stamps held by edge port: SEC, NS, sequenceId, messageType (R243) -/
  stamps : Tbl (List (Nat × Nat × Nat × Nat))
  launch : Tbl LaunchE
  pdNext : Tbl Nat
  pdWait : Tbl (Option PdPending)
  pdKept : Tbl (List Nat)
  /-- SYNCSEQ the root sent last (R234) -/
  syncSent : Nat
  /-- SYNCSEQ of the copy used last -/
  lastUsed : Option Nat
  /-- the sync race runs (R239); it was lost and the next usable SYNC is late -/
  syncTimer : Bool
  syncLost : Bool
  /-- consecutive offsets within LOCKTHR; above STEPTHR -/
  inLock : Nat
  outStep : Nat
  /-- SYNCSEQ of the last usable ring A copy; consecutive intervals with one (R236) -/
  lastA : Option Nat
  runA : Nat
  /-- the first offset after the core start has been used (R240) -/
  firstUsed : Bool
  /-- clock PLL_T locks to: 0 REFCLK, 1 recovered at RPW, 2 recovered at RPE (R237) -/
  clockSrc : Nat
  deriving DecidableEq, Repr

def TimeSt.init : TimeSt :=
  { caps := [], fired := [], pps := [], stamps := [], launch := [], pdNext := [], pdWait := [], pdKept := [], syncSent := 0, lastUsed := none,
    syncTimer := false, syncLost := false, inLock := 0, outStep := 0, lastA := none, runA := 0, firstUsed := false, clockSrc := 0 }

/-! ### Weavers (chapters 09, 10) -/

/-- What a lane drives: enabled, the level at the ball, and whether it has driven since the last reset of its weaver (R259). The ball shows it
from the tick `since` on, a tick after the drive in a group with reach (R257), and what it was before until then. `acted`: the tick at which a
timed action last drove the lane (R277). -/
structure LaneSt where
  en : Bool
  lvl : Bool
  ever : Bool
  since : Nat
  wasEn : Bool
  wasLvl : Bool
  acted : Option Nat
  deriving DecidableEq, Repr

def LaneSt.off : LaneSt := { en := false, lvl := false, ever := false, since := 0, wasEn := false, wasLvl := false, acted := none }

/-- A paced instruction in progress (R293): its word, bit-times in all, bit-times begun before the divider's present count started, the
index of the next one in that count, bit-times whose drives have been made, groups moved, the levels sampled for SHI; if the count has been
restarted since its last bit-time began, when that began and ended; if since its last group, when that was sampled. -/
structure WvBusy where
  word : Nat
  total : Nat
  i0 : Nat
  k0 : Nat
  shown : Nat
  moved : Nat
  samples : List Byte
  last : Option (Nat × Nat)
  samp : Option Nat
  deriving DecidableEq, Repr

/-- What a weaver waits for or stalls at. -/
inductive WvWait where
  | none
  | pin (word : Nat)
  | flg (word : Nat)
  | irq (word : Nat)
  | tim (word : Nat)
  | sync (word : Nat)
  | cnt (word : Nat)
  | take (word : Nat)
  | give (word : Nat)
  | stamp
  deriving DecidableEq, Repr

/-- A held timed action (R278). -/
structure WvAct where
  sec : Nat
  ns : Nat
  frac : Nat
  value : Nat
  enable : Nat
  actid : Nat
  report : Bool
  deriving DecidableEq, Repr

/-- The last recorded pin event (R279): SEC, NS, falling, lane. -/
structure PinEvent where
  sec : Nat
  ns : Nat
  fall : Bool
  lane : Nat
  deriving DecidableEq, Repr

/-- A weaver besides its registers. -/
structure WvSt where
  lanes : List LaneSt
  busy : Option WvBusy
  wait : WvWait
  /-- slot of the next instruction, and the tick at which it issues -/
  npc : Nat
  free : Nat
  /-- tick at which the divider's count started; the DIV it counts with (R261) -/
  t0 : Nat
  div : Nat
  /-- tick at which its last start takes place (R269) -/
  start : Nat
  /-- tick at which the clock of the bit-time in progress rises (R263) -/
  rise : Option Nat
  /-- TG (R282) -/
  tg : Nat
  /-- first word of a TAKE TR is in -/
  half : Bool
  /-- transmit queue, backlog, receive queue, oldest first: tag and word -/
  tx : List (Nat × Nat)
  back : List (Nat × Nat)
  rx : List (Nat × Nat)
  /-- timed queue in order of T, then of arrival -/
  acts : List WvAct
  last : Option PinEvent
  deriving DecidableEq, Repr

def WvSt.init : WvSt :=
  { lanes := List.replicate 8 LaneSt.off, busy := none, wait := .none, npc := 0, free := 0, t0 := 0,
    div := 1280, start := 0, rise := none, tg := 0, half := false, tx := [], back := [], rx := [], acts := [], last := none }

/-- Weavers and baskets besides their registers: weavers, raised interrupt lines of each basket, BK_VIO shown since the core start, the start of
R275 due after a load. -/
structure WeaversSt where
  w : Tbl WvSt
  irq : Tbl Nat
  vioShown : Bool
  autoDue : Bool
  deriving DecidableEq, Repr

def WeaversSt.init : WeaversSt := { w := [], irq := [], vioShown := false, autoDue := false }


/-! ### CAN FD controllers (chapter 11) -/

/-- A filter as it stood at an SOF: FID, MASK, FCFG (R310). -/
structure CanFilter where
  fid : Nat
  mask : Nat
  cfg : Nat
  deriving DecidableEq, Repr

/-- A CAN FD controller besides its registers. -/
structure CanSt where
  /-- receive entries of software and hardware: the 20 words of R312 -/
  rx : Tbl (List Word)
  /-- SEQ (R312) -/
  seq : Nat
  /-- TEC and REC of R314, above what CFk_ERR shows -/
  tec : Nat
  recv : Nat
  /-- a frame is in progress; INIT waits for its end (R303) -/
  inFrame : Bool
  stopping : Bool
  /-- it waits for 11 recessive bits: after a protocol exception, after an error in restricted operation (R302, R314) -/
  integrating : Bool
  /-- ACTIVE buffer; buffers against which a late cancel is held (R307) -/
  active : Option Nat
  held : Nat
  /-- receive entries of which a word has failed parity (R312) -/
  spoiled : List Nat
  /-- local tick at the last SOF sample point, and the filters as they stood then until its frame has been received -/
  sof : Nat
  filters : Option (List CanFilter)
  deriving DecidableEq, Repr

def CanSt.init : CanSt :=
  { rx := [], seq := 0, tec := 0, recv := 0, inFrame := false, stopping := false, integrating := false, active := none, held := 0, spoiled := [], sof := 0,
    filters := none }

/-! ### USB (chapter 12) -/

/-- A control transfer that has its data and awaits completion (R320, R321): bRequest and data. -/
structure CtlXfer where
  req : Nat
  data : List Byte
  deriving DecidableEq, Repr

/-- A bulk message to the hub (R322). -/
structure BulkMsg where
  op : Nat
  loc : Bool
  count : Nat
  tag : Nat
  addr : Nat
  data : List Byte
  /-- the header is malformed (R323) -/
  bad : Bool
  /-- memory of the hub's own that it reads fails parity (R28) -/
  parityBad : Bool
  deriving DecidableEq, Repr

/-- The code a field port is collecting (R335): bytes, and whether the rest up to the next terminator or gap is discarded. -/
structure CodeSt where
  bytes : List Byte
  skip : Bool
  deriving DecidableEq, Repr

/-- A field port besides its registers. -/
structure FieldSt where
  code : CodeSt
  /-- over-current retries made; a retry waits -/
  tries : Nat
  waiting : Bool
  /-- codes that have ended and wait for the throttle to end (R342): bytes, and whether truncated -/
  ready : List (List Byte × Bool)
  deriving DecidableEq, Repr

def FieldSt.init : FieldSt := { code := { bytes := [], skip := false }, tries := 0, waiting := false, ready := [] }

/-- S and the field ports besides their registers. -/
structure UsbSt where
  /-- notices queued: byte 0 and bytes 8 to 15 as a number (R324) -/
  notices : List (Nat × Nat)
  /-- the transfer awaiting completion -/
  ctl : Option CtlXfer
  /-- the bulk request in progress: it, and whether its response is to be discarded (R330) -/
  busy : Option (BulkMsg × Bool)
  /-- bulk requests not yet started, oldest first -/
  bulk : List BulkMsg
  /-- state of S before suspend -/
  before : Nat
  /-- ENDPOINT_HALT of 0x01, 0x81, 0x82 -/
  halted : List Nat
  fields : Tbl FieldSt
  deriving DecidableEq, Repr

def UsbSt.init : UsbSt :=
  { notices := [], ctl := none, busy := none, bulk := [], before := 0, halted := [], fields := [] }


/-! ### Power path (chapter 14) -/

/-- The power path besides its registers; all of it in the AON domain. -/
structure PowSt where
  /-- committed curves: eight points (I in mA, M, E) (R366) -/
  curves : Tbl (List (Nat × Nat × Nat))
  /-- heat H of each branch in units of 2^-60 (R367) -/
  heat : Tbl Nat
  /-- the inlet's fault timer runs; the power limiter has acted in this run (R355) -/
  timer : Bool
  powered : Bool
  /-- the 1 ms of R358 runs -/
  qual : Bool
  /-- a fault stays latched until cleared (R359) -/
  latched : Bool
  /-- a final checkpoint is in progress (R361, R363) -/
  final : Bool
  /-- branches shed, bit b (R361) -/
  shed : Nat
  /-- TAKE has come: ON is frozen (R372) -/
  frozen : Bool
  /-- the offer timer runs (R372) -/
  offering : Bool
  /-- a weave load has taken place since AON power-on (R350) -/
  loaded : Bool
  deriving DecidableEq, Repr

def PowSt.init : PowSt :=
  { curves := [], heat := [], timer := false, powered := false, qual := false, latched := false, final := false, shed := 0, frozen := false,
    offering := false, loaded := false }


/-! ### Supplies, clocks, resets (chapter 15) -/

/-- The sequencer, the PLLs and the resets besides their registers; in the AON domain. -/
structure SupSt where
  /-- the AON domain is out of power-on reset (R378) -/
  aon : Bool
  /-- a core-start request is present; a core-stop request is present -/
  start : Bool
  stop : Bool
  /-- group whose PG is awaited, 1 to 4; 0: none (R380) -/
  group : Nat
  /-- group whose timeout has won last; 0: none -/
  lateGroup : Nat
  /-- the 1 s before a retry runs; the sequencer stays down until a new INLET_PG -/
  retry : Bool
  spent : Bool
  /-- what holds the core in reset: bit 0 REFCLK, bit 1 TEST_N -/
  held : Nat
  /-- the rails are up and the core is in reset, waiting for the PLLs (step 10) -/
  locking : Bool
  /-- management firmware, or recovery, runs -/
  mcUp : Bool
  /-- the ring reset's writer: ring, node, site time SEC and NS (R389) -/
  writer : Option (Nat × Nat × Nat × Nat)
  /-- alarms to be raised after the restart -/
  alarms : Nat
  /-- a weave load into the running hub is under way: the mark of R70 -/
  loadMark : Bool
  /-- PLLs without lock, bits as NC_PLLSTAT.LOST -/
  unlocked : Nat
  /-- the last reset kept time and the tally (warm or ring reset) -/
  warm : Bool
  deriving DecidableEq, Repr

def SupSt.init : SupSt :=
  { aon := false, start := false, stop := false, group := 0, lateGroup := 0, retry := false, spent := false, held := 0, locking := false,
    mcUp := false, writer := none, alarms := 0, loadMark := false, unlocked := 0, warm := false }


/-! ### The pair and the checkpoint store (chapter 16) -/

/-- The pair besides its registers; in the AON domain. -/
structure PairMtSt where
  /-- the 20 ms of R404 run -/
  listening : Bool
  /-- CK_OWN_REQ_O; the mate's lines CK_OWN_REQ_I and CK_OWN_GNT_I -/
  req : Bool
  reqI : Bool
  gntI : Bool
  /-- the heartbeat timer has won; SURRENDER has come (R416) -/
  timedOut : Bool
  surrender : Bool
  /-- a takeover is under way: cause 0 timer, 1 surrender; ticks of the AON oscillator are not kept -/
  taking : Option Nat
  shelfUsed : Bool
  noRest : Bool
  restored : Nat
  /-- the store is lent by this owner; this non-owner's window is open; LEND has been sent (R415) -/
  lent : Bool
  window : Bool
  lending : Bool
  /-- a proving (1) or verifying (2) run is under way -/
  run : Nat
  /-- the part being written out; whether a checkpoint, or a full one, falls due when it ends or the store comes back -/
  writing : Option CkPart
  due : Bool
  dueFull : Bool
  /-- the part being written is the CHECKPOINT command's, or the final one before a surrender -/
  forCmd : Bool
  yielding : Bool
  /-- slot of the last full checkpoint; none yet -/
  lastSlot : Option Nat
  ready : Bool
  /-- PRCOUNT the mate showed last -/
  matePr : Option Nat
  /-- the final checkpoint of R361 as captured; the next checkpoint is a full one (R414) -/
  finalPart : Option CkPart
  nextFull : Bool
  deriving DecidableEq, Repr

def PairMtSt.init : PairMtSt :=
  { listening := false, req := false, reqI := false, gntI := true, timedOut := false, surrender := false, taking := none, shelfUsed := false,
    noRest := false, restored := 0, lent := false, window := false, lending := false, run := 0, writing := none, due := false,
    dueFull := false, forCmd := false, yielding := false, lastSlot := none, ready := false, matePr := none,
    finalPart := none, nextFull := false }


/-! ### Firmware and the weave loader (chapters 02, 18) -/

/-- Boot flash, staging, and what runs. Boot flash slots: 0 MFW A, 1 MFW B, 2 SDM, 3 UDS, 4 PPT, 5 weave A, 6 weave B. -/
structure FwSt where
  slots : Tbl (List Byte)
  /-- boot record: current MFW and weave slots (0 A, 1 B), trial mark -/
  curMfw : Nat
  curWeave : Nat
  trial : Bool
  /-- staged blocks by index; verified -/
  staging : Tbl (List Byte)
  stComp : Nat
  stTotal : Nat
  verified : Bool
  /-- the source that holds the session -/
  holder : Option Src
  /-- running images of components 1 to 4; none listed: the factory copy -/
  running : Tbl (List Byte)
  /-- FW_BLKBUF as written -/
  blk : Tbl Word
  /-- commands taken in recovery (R453) -/
  recov : Nat
  /-- ends of flash writes that an SDM activation still awaits: ports not yet retrained -/
  sdm : List Nat
  /-- an ACTIVATE of MFW whose completion entry is not yet written: its number and source (R463) -/
  trialCmd : Option (Nat × Src)
  deriving DecidableEq, Repr

def FwSt.init : FwSt :=
  { slots := [], curMfw := 0, curWeave := 0, trial := false, staging := [], stComp := 0, stTotal := 0, verified := false, holder := none,
    running := [], blk := [], recov := 0, sdm := [], trialCmd := none }

/-- The live load between its checks and its switch (R64): the image, its boot flash slot, and whether an ACTIVATE with ROLLBACK named
that slot. -/
structure LiveLoad where
  image : List Byte
  slot : Nat
  deriving DecidableEq, Repr

/-- The loader besides its registers. -/
structure LoaderSt where
  live : Option LiveLoad
  /-- the quiet timeout has won: a quiet point is late (R66) -/
  quietLost : Bool
  deriving DecidableEq, Repr

def LoaderSt.init : LoaderSt := { live := none, quietLost := false }


/-! ### The whole machine -/

/-- The state of the hub. -/
structure State where
  /-- commands that wait, first in first out -/
  pending : List Instr
  /-- software-visible registers that differ from their reset values, by key (class * 2^20 + offset) -/
  regs : Tbl Word
  /-- what the hub has put out, oldest first -/
  out : List Out
  /-- cells delivered to the node's own units and not yet taken: the port each came in on (R97) -/
  inbox : List (Nat × Cell)
  /-- the model's own counter for free values -/
  freeCtr : Nat
  clock : ClockSt
  otp : OtpSt
  weave : Option Weave
  eq : EqSt
  mg : MgSt
  links : Tbl LinkSt
  mem : MemSt
  pair : PairSt
  bridge : BridgeSt
  slath : SlathSt
  outs : Tbl OutSt
  tm : TimeSt
  usb : UsbSt
  wv : WeaversSt
  can : Tbl CanSt
  pow : PowSt
  sup : SupSt
  store : StoreSt
  mt : PairMtSt
  fw : FwSt
  we : LoaderSt
  /-- instruction of the test access port (R490, R491) -/
  jtag : JtagInstr
  deriving DecidableEq, Repr

/-- Why a run stops in a fault: never, in this model. -/
inductive Fault where
  /-- Raised by no command: the block has no access that the machine itself cannot answer. Safe. -/
  | none
  deriving DecidableEq, Repr

/-- Why a command is refused. -/
inductive Refusal where
  /-- A row of the table without a meaning in this model; no row is left without one. Safe. -/
  | notModelled (mnemonic : String)
  /-- Raised by JTAG_INSTRUCTION alone: a debug instruction that the port serves acts on the debug unit, whose registers and instructions the
  spec does not give. Safe: the model says nothing of what it does. -/
  | jtagDebug
  deriving DecidableEq, Repr

/-- The machine right after the always-on domain of a blank card has powered up (R350, R378): every register at its reset value, no
command waiting, nothing queued anywhere (assumptions 1 and 8). -/
def State.reset : State :=
  { pending := [], regs := [], out := [], inbox := [], freeCtr := 0, clock := { site := 0, tick := 0 },
    otp := { fusedId := 0, keys := [], debugDisable := false, jtagLock := false }, weave := none,
    eq := EqSt.init, mg := MgSt.init, links := [], mem := MemSt.init, pair := PairSt.init, bridge := BridgeSt.init,
    slath := SlathSt.init, outs := [], tm := TimeSt.init, usb := UsbSt.init, wv := WeaversSt.init, can := [], pow := PowSt.init, sup := SupSt.init,
    store := StoreSt.init, mt := PairMtSt.init, fw := FwSt.init, we := LoaderSt.init, jtag := .idcode }


end Sys2Proof.Machine
end

