-- ==== Sys2Proof/Machine/Tbl.lean ====
section
/-! DEFINITION. Sparse tables in one canonical form: indices strictly rising, no entry equal to the default. Reading and writing are
the only two operations. -/

namespace Sys2Proof.Machine

/-- The value at an index: the listed one, or the default. -/
def Tbl.get {α : Type} (d : α) (k : Nat) : Tbl α → α
  | [] => d
  | (j, v) :: t => if j = k then v else Tbl.get d k t

/-- The table without the index. -/
def Tbl.erase {α : Type} (k : Nat) : Tbl α → Tbl α
  | [] => []
  | (j, v) :: t => if j = k then Tbl.erase k t else (j, v) :: Tbl.erase k t

/-- A pair placed before the first larger index. -/
def Tbl.place {α : Type} (k : Nat) (v : α) : Tbl α → Tbl α
  | [] => [(k, v)]
  | (j, w) :: t => if k < j then (k, v) :: (j, w) :: t else (j, w) :: Tbl.place k v t

/-- The table with the value at the index; writing the default removes the entry. -/
def Tbl.put {α : Type} [DecidableEq α] (d : α) (k : Nat) (v : α) (t : Tbl α) : Tbl α :=
  if v = d then Tbl.erase k t else Tbl.place k v (Tbl.erase k t)

/-- Every index is above a bound, they rise strictly, and no value is the default of its index. -/
def Tbl.wfFrom {α : Type} [DecidableEq α] (d : Nat → α) (lo : Nat) : Tbl α → Bool
  | [] => true
  | (j, v) :: t => decide (lo ≤ j) && !decide (v = d j) && Tbl.wfFrom d (j + 1) t

/-- The canonical form. -/
def Tbl.wf {α : Type} [DecidableEq α] (d : Nat → α) (t : Tbl α) : Bool := Tbl.wfFrom d 0 t

end Sys2Proof.Machine
end

