-- ==== Sys2Proof/Machine/Ops.lean ====
section
/-! DEFINITION. The named operations over registers, time, the event queue, alarms and the tally that every unit uses. -/

namespace Sys2Proof.Machine

/-! ### Registers -/

/-- The indices that an offset, relative to an array's base, spells; none where it falls on no element. -/
def dimIdx : List (Nat × Nat × Nat) → Nat → Option (List Nat)
  | [], r => if r = 0 then some [] else none
  | (first, count, stride) :: ds, r =>
    let i := min (r / stride) (first + count - 1)
    if i < first then none else (dimIdx ds (r - i * stride)).map (i :: ·)

/-- The register of a class at an offset, with its indices (R7). -/
def findFam : List Fam → Nat → Option (Fam × List Nat)
  | [], _ => none
  | f :: fs, off =>
    if f.base ≤ off then
      match dimIdx f.dims (off - f.base) with
      | some is => some (f, is)
      | none => findFam fs off
    else findFam fs off

/-- The register at a class and offset. -/
def regAt (cls off : Nat) : Option (Fam × List Nat) := findFam (classMap cls) off

/-- The key a register is held under. -/
def keyOf (cls off : Nat) : Nat := cls * 0x100000 + off

/-- The value that the fields of a register spell at reset (R11, R69, R350). -/
def fieldsReset : List FieldSpec → Nat
  | [] => 0
  | f :: fs => f.rst * 2 ^ f.lo + fieldsReset fs

/-- The reset value of a register; RGp_CTL and RGp_QUOTA3 differ by index (R110). -/
def famReset (f : Fam) (is : List Nat) : Nat :=
  match f.id, is with
  | .RGp_CTL, [p] => if p = 2 then 0 else 1
  | .RGp_QUOTAi, [_, i] => if i = 3 then 24 * 65536 + 8 else 0
  | _, _ => fieldsReset f.fields

/-- What a key reads as before anything has written it. -/
def regReset (key : Nat) : Word :=
  match regAt (key / 0x100000) (key % 0x100000) with
  | some (f, is) => BitVec.ofNat 32 (famReset f is)
  | none => 0

/-- The register at a key. -/
def State.reg (s : State) (key : Nat) : Word := Tbl.get (regReset key) key s.regs

/-- The register at a key takes a value. -/
def State.setReg (s : State) (key : Nat) (v : Word) : State := { s with regs := Tbl.put (regReset key) key v s.regs }

/-- A field of a register. -/
def State.rd (s : State) (f : Fld) : Nat := bitsOf (s.reg f.key).toNat f.lo f.width

/-- A field takes a value (its low bits); the rest of the register stays. -/
def State.wr (s : State) (f : Fld) (v : Nat) : State :=
  s.setReg f.key (BitVec.ofNat 32 (setBits (s.reg f.key).toNat f.lo f.width v))

/-- A one-bit field as a condition. -/
def State.on (s : State) (f : Fld) : Bool := s.rd f == 1

/-- An event counter: it rises by n and stops at the top (R10). -/
def State.bumpBy (s : State) (f : Fld) (n : Nat) : State := s.wr f (min (s.rd f + n) (2 ^ f.width - 1))

/-- An event counter rises by one (R10). -/
def State.bump (s : State) (f : Fld) : State := s.bumpBy f 1

/-- A field that shows the highest value since it was last read. -/
def State.peak (s : State) (f : Fld) (v : Nat) : State := if s.rd f < v then s.wr f v else s

/-! ### Free values -/

/-- The next free value. -/
def State.freeW (s : State) : Word := Config.freeWord s.freeCtr

/-- The next free bit. -/
def State.freeB (s : State) : Bool := Config.freeBit s.freeCtr

/-- The counter moves past a free value that was used. -/
def State.used (s : State) : State := { s with freeCtr := s.freeCtr + 1 }

/-! ### Local time (R224 to R228) -/

/-- Units of 2^-39 ns in a nanosecond. -/
def nsUnit : Nat := 2 ^ 39

/-- A second, in ns. -/
def secNs : Nat := 1000000000

/-- Local time in whole ns since the epoch. -/
def State.nowNs (s : State) : Nat := s.clock.site / nsUnit

/-- SEC48 (R226). -/
def State.sec48 (s : State) : Nat := s.nowNs / secNs % 2 ^ 48

/-- SEC (R224). -/
def State.sec (s : State) : Nat := s.sec48 % 2 ^ 32

/-- NS (R224). -/
def State.ns (s : State) : Nat := s.nowNs % secNs

/-- FRAC, in 2^-16 ns (R224). -/
def State.frac (s : State) : Nat := s.clock.site % nsUnit / 2 ^ 23

/-- Local time in 2^-16 ns. -/
def State.now16 (s : State) : Nat := s.clock.site / 2 ^ 23

/-- What one local tick adds to local time (R228). -/
def State.tickStep (s : State) : Nat := (2 * (nsUnit : Int) + toSigned 32 (s.rd F.TM_RATE_RATE)).toNat

/-- n local ticks pass. -/
def State.ticks (s : State) (n : Nat) : State :=
  { s with clock := { site := s.clock.site + n * s.tickStep, tick := s.clock.tick + n } }

/-- Signed difference of a site time from local time, in 2^-39 ns (R225). -/
def State.until (s : State) (sec ns frac : Nat) : Int :=
  toSigned 32 (ofSigned 32 ((sec : Int) - s.sec)) * (secNs * nsUnit : Nat) + ((ns : Int) - s.ns) * (nsUnit : Nat)
    + ((frac : Int) * (2 ^ 23 : Nat) - (s.clock.site % nsUnit : Nat))

/-- A site time is not later than local time. -/
def State.reached (s : State) (sec ns frac : Nat) : Bool := decide (s.until sec ns frac ≤ 0)

/-- Ticks pass until a site time is reached: none if it already is (assumption 4). -/
def State.reach (s : State) (sec ns frac : Nat) : State :=
  if s.reached sec ns frac then s else s.ticks (((s.until sec ns frac).toNat + s.tickStep - 1) / s.tickStep)

/-- Ticks pass until local time, in ns, is a multiple of a period beyond the present ns. -/
def State.reachMultiple (s : State) (ns : Nat) : State :=
  if ns = 0 then s
  else
    let target := (s.nowNs / ns + 1) * ns * nsUnit
    s.ticks ((target - s.clock.site + s.tickStep - 1) / s.tickStep)

/-! ### What the hub puts out -/

/-- PLL n runs in lock (R384): 0 T, 1 S, 2 E, 3 D, 4 U, 5 L. -/
def State.clocked (s : State) (n : Nat) : Bool := bitsOf s.sup.unlocked n 1 == 0

/-- The PLL that feeds the edge an output leaves on; none: no PLL of R383 feeds it. -/
def Out.pll : Out → Option Nat
  | .cellHead .. | .cellTail .. | .cell .. => some 1
  | .frame n .. => if 3 ≤ n && n ≤ 18 then some 2 else none
  | .pause .. => some 2
  | .lxbAddr .. | .lxbBeat .. | .lxbReady .. | .lxbErr .. | .lxbRetry => some 5
  | .usbData .. | .usbStall | .usbBulk .. | .usbNotice .. | .usbWake | .lineCoding .. | .fieldOut .. => some 4
  | .can .. => some 0
  | .toUnit .. | .mate .. | .answer .. | .console .. | .jtag .. | .ptpToMc0 .. | .i2c .. | .mgmtCell .. => none

/-- The core is powered, out of reset, and ROLE is high (R403). -/
def State.roleHigh (s : State) : Bool := s.on F.PW_SEQ_CORE && decide (11 ≤ s.rd F.PW_SEQ_STEP) && s.rd F.MT_STAT_ROLE == 1

/-- An output that a hub whose ROLE is low does not drive: transmitters of the ring, the uplink and the edge, the LXB, CAN (R403, R478). -/
def Out.held : Out → Bool
  | .cellHead .. | .cellTail .. | .cell .. | .pause .. | .lxbAddr .. | .lxbBeat .. | .lxbReady .. | .lxbErr .. | .lxbRetry | .can .. => true
  | .frame n .. => 3 ≤ n && n ≤ 18
  | _ => false

/-- What reaches the hub's balls: an output whose PLL runs, and that ROLE does not hold. -/
def State.sends (s : State) (o : Out) : Bool := o.pll.all (fun n => s.clocked n) && (!o.held || s.roleHigh)

/-- An output leaves; until a PLL relocks, the edge that it feeds sends nothing (R384), and while ROLE is low the outputs of R403 do not. -/
def State.emit (s : State) (o : Out) : State := { s with out := s.out ++ if s.sends o then [o] else [] }

/-! ### The event queue: admission and the watermarks (R341, R342, R348) -/

/-- PRI of an entry's word 0. -/
def EqEntry.pri (e : EqEntry) : Nat := bitsOf e.w0.toNat 27 3

/-- Word 0 of an entry (R338). -/
def eqWord0 (pri src code detail : Nat) : Word :=
  BitVec.ofNat 32 (2 ^ 31 + pri % 8 * 2 ^ 27 + src % 16 * 2 ^ 23 + code % 128 * 2 ^ 16 + detail % 65536)

/-- Entries held for local service. -/
def EqSt.localCount (e : EqSt) : Nat := (e.entries.filter (·.needLocal)).length

/-- The registers that show the queue, after an admission, a removal or a write to EQ_MARKS (R348). -/
def State.eqSync (s : State) : State :=
  let occ := s.eq.entries.length
  let loc := s.eq.localCount
  let hwm := if s.rd F.EQ_MARKS_HWM ≤ occ then 1 else if occ ≤ s.rd F.EQ_MARKS_LWM then 0 else s.rd F.EQ_STAT_HWMACT
  ((((s.wr F.EQ_STAT_OCC occ).wr F.EQ_STAT_HWMACT hwm).wr F.EQ_STAT_NE (if loc = 0 then 0 else 1)).wr F.EQ_STAT_LOCAL loc).peak
    F.EQ_PEAK_OCC occ

/-- The throttle of R342: EQ_HWM_N is asserted. -/
def State.throttled (s : State) : Bool := s.on F.EQ_STAT_HWMACT

/-- The hub has no node number, or the site route table makes a ring unreachable (R347; MODE 3 for another ring counts as 0, R130). -/
def State.noRing (s : State) (dring : Nat) : Bool :=
  !s.on F.RG_SELF_ASSIGNED || (dring != s.rd F.RG_SELF_RING && (s.rd (F.RG_RTn_MODE dring) == 0 || s.rd (F.RG_RTn_MODE dring) == 3))

/-- An entry joins the queue with the route its source has now (R346, R349); a ring entry that cannot go to the ring is served as a local
one and counted (R347). -/
def State.eqPut (s : State) (src : Nat) (w0 w2 w3 : Word) : State :=
  let mode := s.rd (F.EQ_RTs_MODE src)
  let dring := s.rd (F.EQ_RTs_DRING src)
  let ring := mode == 1 || mode == 2
  let lost := ring && s.noRing dring
  let e : EqEntry :=
    { w0 := w0, w1 := BitVec.ofNat 32 s.ns, w2 := w2, w3 := w3, needLocal := mode == 0 || mode == 2 || lost, needRing := ring && !lost,
      both := mode == 2, dring := dring, dnode := s.rd (F.EQ_RTs_DNODE src) }
  let s := if lost then s.bump F.EQ_NORING_COUNT else s
  State.eqSync { s with eq := { s.eq with entries := s.eq.entries ++ [e] } }

/-- An internal producer's entry: admitted below 4,096 entries, otherwise lost and counted (R342). -/
def State.admitEntry (s : State) (pri src code detail : Nat) (w2 w3 : Nat) : State :=
  if s.eq.entries.length < 4096 then
    s.eqPut src (eqWord0 pri src code detail) (BitVec.ofNat 32 w2) (BitVec.ofNat 32 w3)
  else
    (s.bump F.EQ_LOST_COUNT).wr F.EQ_LOSTSRC_SRC (s.rd F.EQ_LOSTSRC_SRC ||| 2 ^ src)

/-- An event of the weaver aggregator or the host engine: it waits while EQ_HWM_N is asserted (R342). -/
def State.laterEvent (s : State) (pri src code detail w2 w3 : Nat) : State :=
  if s.throttled then { s with eq := { s.eq with waits := s.eq.waits ++ [(pri, src, code, detail, w2, w3)] } }
  else s.admitEntry pri src code detail w2 w3

/-- An event of a source whose priority is EQ_RTs.PRI (R340). -/
def State.event (s : State) (src code detail w2 w3 : Nat) : State := s.admitEntry (s.rd (F.EQ_RTs_PRI src)) src code detail w2 w3

/-- A ring event (SRC 6). -/
def State.ringEvent (s : State) (code detail w2 w3 : Nat) : State := s.event 6 code detail w2 w3

/-- A time event (SRC 7). -/
def State.timeEvent (s : State) (code detail w2 w3 : Nat) : State := s.event 7 code detail w2 w3

/-- A pool event (SRC 8). -/
def State.poolEvent (s : State) (code detail w2 w3 : Nat) : State := s.event 8 code detail w2 w3

/-- A management event (SRC 10, R446). -/
def State.mgmtEvent (s : State) (code detail w2 w3 : Nat) : State := s.event 10 code detail w2 w3

/-! ### Notices, alarms (R324, R445) -/

/-- The interface of S is configured, suspended or not. -/
def State.usbConfigured (s : State) : Bool :=
  s.rd F.US_SSTAT_STATE == 4 || (s.rd F.US_SSTAT_STATE == 5 && s.usb.before == 4)

/-- A notice for the interrupt endpoint: queued up to 32 while the interface is configured, otherwise counted or not queued (R324). An alarm
or an urgent entry that comes while S is suspended is latched in US_WAKE.PEND (R327). -/
def State.notice (s : State) (kind num : Nat) : State :=
  let s := if s.rd F.US_SSTAT_STATE = 5 && (kind == 1 || kind == 2) then s.wr F.US_WAKE_PEND 1 else s
  if s.usbConfigured then
    if s.usb.notices.length < 32 then { s with usb := { s.usb with notices := s.usb.notices ++ [(kind, num)] } }
    else s.bump F.US_NOTELOST_COUNT
  else s

/-- An alarm's condition starts: its NC_ALARM bit, a management event, a notice; nothing while the condition already stands (R445). -/
def State.alarm (s : State) (bit : Nat) : State :=
  if bitsOf (s.rd F.NC_ALMCOND_COND) bit 1 = 1 then s
  else
    let s := s.wr F.NC_ALMCOND_COND (s.rd F.NC_ALMCOND_COND ||| 2 ^ bit)
    let s := s.wr F.NC_ALARM_ALARM (s.rd F.NC_ALARM_ALARM ||| 2 ^ bit)
    (s.mgmtEvent 1 bit (s.rd F.NC_ALMCOND_COND) 0).notice 1 bit

/-- An alarm's condition ends. -/
def State.alarmEnd (s : State) (bit : Nat) : State :=
  s.wr F.NC_ALMCOND_COND (setBits (s.rd F.NC_ALMCOND_COND) bit 1 0)

/-- An alarm whose condition is a passing event: raised, and ended at once. -/
def State.alarmOnce (s : State) (bit : Nat) : State := (s.alarm bit).alarmEnd bit

end Sys2Proof.Machine
end

