-- ==== Sys2Proof/Machine/Cells.lean ====
section
/-! DEFINITION. Ring cells: their header words, checks and lengths (R74, R87 to R95, R102), and the hub's own numbers on them. -/

namespace Sys2Proof.Machine

/-! ### Header words and checks -/

/-- W0 of a header (R88). -/
def Cell.w0 (c : Cell) : Nat :=
  c.type.toNat * 2 ^ 28 + c.cls.toNat * 2 ^ 25 + c.dp.toNat * 2 ^ 23 + b2n c.poison * 2 ^ 22 + b2n c.ring * 2 ^ 21
    + c.wraps.toNat * 2 ^ 19 + b2n c.mcast * 2 ^ 18 + b2n c.lt * 2 ^ 17 + b2n c.link * 2 ^ 16 + c.op.toNat * 2 ^ 12 + c.hops.toNat

/-- W1. -/
def Cell.w1 (c : Cell) : Nat := c.dring.toNat * 2 ^ 28 + c.dnode.toNat * 2 ^ 16 + c.sring.toNat * 2 ^ 12 + c.snode.toNat

/-- W2. -/
def Cell.w2 (c : Cell) : Nat := c.seq.toNat * 2 ^ 16 + c.rsv2.toNat * 2 ^ 12 + c.len.toNat

/-- W3 and the upper half of W4: CORR; the lower half: FLOW. -/
def Cell.w3 (c : Cell) : Nat := c.corr.toNat / 2 ^ 16

def Cell.w4 (c : Cell) : Nat := c.corr.toNat % 2 ^ 16 * 2 ^ 16 + c.flow.toNat

/-- Header bytes 0 to 21, most significant byte of each word first (R87). -/
def Cell.headBytes (c : Cell) : List Byte :=
  beBytes c.w0 4 ++ beBytes c.w1 4 ++ beBytes c.w2 4 ++ beBytes c.w3 4 ++ beBytes c.w4 4 ++ beBytes c.rsv5.toNat 2

/-- HEC (R91). -/
def Cell.hec (c : Cell) : BitVec 16 := crc16 c.headBytes

/-- The trailer (R92): CRC-32C over the header with HOPS, RING, WRAPS, CORR and HEC taken as zero, and the payload. -/
def Cell.trailer (c : Cell) : Word :=
  crc32c (({ c with hops := 0, ring := false, wraps := 0, corr := 0 } : Cell).headBytes ++ [0, 0] ++ c.payload)

/-- The header that six words spell, without payload. -/
def cellOfWords (w0 w1 w2 w3 w4 w5 : Word) : Cell :=
  { type := w0.extractLsb' 28 4, cls := w0.extractLsb' 25 3, dp := w0.extractLsb' 23 2, poison := w0.getLsbD 22, ring := w0.getLsbD 21,
    wraps := w0.extractLsb' 19 2, mcast := w0.getLsbD 18, lt := w0.getLsbD 17, link := w0.getLsbD 16, op := w0.extractLsb' 12 4,
    hops := w0.extractLsb' 0 12, dring := w1.extractLsb' 28 4, dnode := w1.extractLsb' 16 12, sring := w1.extractLsb' 12 4,
    snode := w1.extractLsb' 0 12, seq := w2.extractLsb' 16 16, rsv2 := w2.extractLsb' 12 4, len := w2.extractLsb' 0 12,
    corr := BitVec.ofNat 48 (w3.toNat * 2 ^ 16 + w4.toNat / 2 ^ 16), flow := w4.extractLsb' 0 16, rsv5 := w5.extractLsb' 16 16,
    payload := [] }

/-- The cell that bytes spell: header, payload, trailer. -/
def cellOfBytes (b : List Byte) : Cell :=
  let w (i : Nat) : Word := BitVec.ofNat 32 (beAt b (4 * i) 4)
  let h := cellOfWords (w 0) (w 1) (w 2) (w 3) (w 4) (w 5)
  { h with payload := slice b 24 h.len.toNat }

/-- Bytes of a whole cell: header, payload, trailer. -/
def Cell.size (c : Cell) : Nat := 28 + c.len.toNat

/-- The bytes of a cell as they stand on the wire and in the pool: header, payload, trailer (R87, R92). -/
def Cell.bytes (c : Cell) : List Byte := c.headBytes ++ beBytes c.hec.toNat 2 ++ c.payload ++ leBytes c.trailer.toNat 4

/-- Wire bytes W(L) (R74). -/
def Cell.wire (c : Cell) : Nat := c.size + 20

/-- Pool cells a stored cell takes (R107). -/
def Cell.poolCells (c : Cell) : Nat := (c.size + 255) / 256

/-- The classes R89 allows a TYPE; none for a reserved TYPE. -/
def classOk (type cls : Nat) : Bool :=
  match type with
  | 1 => cls == 4
  | 2 => cls == 4
  | 3 => cls == 3
  | 4 => decide (cls ≤ 2)
  | 5 => cls == 6
  | 6 => cls == 5
  | 7 => cls == 7
  | _ => false

/-- An OP its TYPE does not reserve (R102): R151 for TYPE 2, R346, R232, R250, R90 and R115. -/
def opOk (type op : Nat) : Bool :=
  match type with
  | 1 => true
  | 2 => op ∈ [0, 1, 2, 3, 8, 9, 10]
  | 3 => op == 0
  | 4 => op == 0
  | 5 => decide (op ≤ 2)
  | 6 => decide (op ≤ 1)
  | 7 => decide (op ≤ 9)
  | _ => false

/-- The header check of R102 after a good HEC. -/
def Cell.headOk (c : Cell) : Bool :=
  classOk c.type.toNat c.cls.toNat && c.dp != 3 && (!c.lt || c.type == 4) && decide (c.len.toNat ≤ 2048) && opOk c.type.toNat c.op.toNat

/-! ### Building cells -/

/-- A cell with no field set. -/
def Cell.blank : Cell :=
  { type := 0, cls := 0, dp := 0, poison := false, ring := false, wraps := 0, mcast := false, lt := false, link := false, op := 0,
    hops := 0, dring := 0, dnode := 0, sring := 0, snode := 0, seq := 0, rsv2 := 0, len := 0, corr := 0, flow := 0, rsv5 := 0, payload := [] }

/-- The hub's own ring: its ring number, or the provisional one while unassigned (RG_SELF.RING, R119). -/
def State.ownRing (s : State) : Nat := s.rd F.RG_SELF_RING

/-- The hub's own node number. -/
def State.ownNode (s : State) : Nat := s.rd F.RG_SELF_NODE

/-- The hub holds a node number (R112). -/
def State.isAssigned (s : State) : Bool := s.on F.RG_SELF_ASSIGNED

/-- A cell of the hub's own: TYPE, CLASS, OP, destination, SEQ and payload; source and length filled in. -/
def State.mkCell (s : State) (type cls op dring dnode seq : Nat) (payload : List Byte) : Cell :=
  { Cell.blank with
    type := BitVec.ofNat 4 type, cls := BitVec.ofNat 3 cls, op := BitVec.ofNat 4 op, dring := BitVec.ofNat 4 dring,
    dnode := BitVec.ofNat 12 dnode, sring := BitVec.ofNat 4 s.ownRing, snode := BitVec.ofNat 12 s.ownNode, seq := BitVec.ofNat 16 seq,
    len := BitVec.ofNat 12 payload.length, payload := payload }

/-- A broadcast ring-control cell of the own ring (R115). -/
def State.mkBroadcast (s : State) (op : Nat) (payload : List Byte) : Cell :=
  { s.mkCell 7 7 op s.ownRing 4095 0 payload with mcast := true }

/-- A link-local cell: source, destination, SEQ, FLOW and HOPS zero (R90). -/
def linkCell (type cls op : Nat) (payload : List Byte) : Cell :=
  { Cell.blank with
    type := BitVec.ofNat 4 type, cls := BitVec.ofNat 3 cls, op := BitVec.ofNat 4 op, link := true,
    len := BitVec.ofNat 12 payload.length, payload := payload }

/-! ### The flow hash (R95, R190, R192) -/

/-- A hash of R190: CRC-32C over the four seed bytes and the key. -/
def hashOf (seed : Nat) (key : List Byte) : Nat := (crc32c (beBytes seed 4 ++ key)).toNat

/-- The bytes of a frame from the destination MAC to the last data byte, without FCS. -/
def Frame.bytes (f : Frame) : List Byte :=
  beBytes f.dst.toNat 6 ++ beBytes f.src.toNat 6 ++
    (match f.tag with
      | some (pcp, dei, vid) => beBytes 0x8100 2 ++ beBytes (pcp.toNat * 8192 + b2n dei * 4096 + vid.toNat) 2
      | none => []) ++ beBytes f.etype.toNat 2 ++ f.data

/-- The part of a TYPE 0x4 payload after its launch block (R93). -/
def Cell.frameBytes (c : Cell) : List Byte := if c.lt then c.payload.drop 12 else c.payload

/-- The FLOW key of a cell (R95, R190): for TYPE 0x4 also the frame's MAC addresses and VLAN ID. -/
def Cell.flowKey (c : Cell) : List Byte :=
  beBytes (c.w1 % 2 ^ 16) 2 ++ beBytes (c.w1 / 2 ^ 16) 2 ++ [BitVec.ofNat 8 c.cls.toNat] ++
    (if c.type = 4 then slice c.frameBytes 0 12 ++ beBytes (beAt c.frameBytes 14 2 % 4096) 2 else [])

/-- The seed of hash h with index i. -/
def State.seed (s : State) (h i : Nat) : Nat := s.rd (F.SW_SEEDh_s_SEED h i)

/-- The seed index hash h uses now. -/
def State.sel (s : State) (h : Nat) : Nat := bitsOf (s.rd F.SW_HASHCTL_SEL) h 1

/-- Hash h is switching. -/
def State.switching (s : State) (h : Nat) : Bool := bitsOf (s.rd F.SW_HASHCTL_SWITCHING) h 1 == 1

/-- FLOW of a cell the hub builds, and the slot bookkeeping of a switch in progress (R192). -/
def State.withFlow (s : State) (c : Cell) : State × Cell :=
  let new := hashOf (s.seed 2 (s.sel 2)) c.flowKey
  if s.switching 2 then
    let old := hashOf (s.seed 2 (1 - s.sel 2)) c.flowKey
    let slot := old % 4096
    let last := max (Tbl.get 0 slot s.slath.flowLast) s.slath.flowStart
    let idle := decide (s.rd F.SW_FLOWGAP_GAP * 500 ≤ s.clock.tick - last)
    let was := Tbl.get false slot s.slath.flowMoved
    let moves := was || idle || s.slath.flowForce
    let s := if !was && !idle && s.slath.flowForce then s.bump F.SW_FLOWFORCE_COUNT else s
    let s := { s with slath := { s.slath with
      flowMoved := Tbl.put false slot moves s.slath.flowMoved, flowLast := Tbl.put 0 slot s.clock.tick s.slath.flowLast } }
    (s, { c with flow := BitVec.ofNat 16 (if moves then new else old) })
  else (s, { c with flow := BitVec.ofNat 16 new })


end Sys2Proof.Machine
end

