-- ==== Sys2Proof/Machine/Queues.lean ====
section
/-! DEFINITION. The buffer pool, overflow memory, the launch table's reference counts, pause, and the queues of the slath outputs: how a
frame or cell is admitted, held, freed and flushed (R183 to R188, R200 to R202, R248). -/

namespace Sys2Proof.Machine

/-! ### Claims and the carve (R53, R54, R59, R184) -/

/-- A resource is claimed (own) by a unit of a class with an index (R59, R493). -/
def State.claims (s : State) (resource idx cls oindex : Nat) : Bool :=
  match s.weave with
  | none => false
  | some w => w.claims.any fun r =>
      r.resource == resource && r.mode == 0 && r.oclass == cls && r.oindex == oindex && decide (r.first ≤ idx) && decide (idx < r.first + r.count)

/-- A resource has an own claim, and whose: class and index (R244). -/
def State.holder (s : State) (resource idx : Nat) : Option (Nat × Nat) :=
  match s.weave with
  | none => none
  | some w => (w.claims.find? fun r =>
      r.resource == resource && r.mode == 0 && decide (r.first ≤ idx) && decide (idx < r.first + r.count)).map fun r => (r.oclass, r.oindex)

/-- A pin is claimed by a weaver, own or listen (R60). -/
def State.listens (s : State) (pin weaver : Nat) : Bool :=
  match s.weave with
  | none => false
  | some w => w.claims.any fun r =>
      r.resource == 1 && r.oclass == 4 && r.oindex == weaver && decide (r.first ≤ pin) && decide (pin < r.first + r.count)

/-- A lane register's fields but INV, as its PINS record gives them (R280); of a DRIVE that R47 ignores, the
lowest bit. -/
def PinRec.laneValue (r : PinRec) : Nat := r.pin + r.role * 2 ^ 8 + r.drive % 2 * 2 ^ 11 + r.park * 2 ^ 12 + r.reach * 2 ^ 14

/-- Cells that the records of a region and owner give. -/
def carveCells (rs : List PoolRec) (region owner : Nat) : Nat :=
  ((rs.filter fun r => r.region == region && r.owner == owner).map (·.cells)).sum

/-- The carve in force; a bare hub carves for itself (R69): 9 cells for each of outputs 0, 1, 2 and 19 to 26 (assumption 12). -/
def State.carve (s : State) : List PoolRec :=
  match s.weave with
  | some w => w.pool
  | none => [0, 1, 2, 19, 20, 21, 22, 23, 24, 25, 26].map fun n => { region := 0, owner := n, flags := 0, first := 768 + 16 * n, cells := 9 }

/-- Dedicated cells of an output. -/
def State.dedCells (s : State) (n : Nat) : Nat := carveCells s.carve 0 n

/-- Shared cells (OWNER 0xFF). -/
def State.shrCells (s : State) : Nat := carveCells s.carve 0 255

/-- Overflow memory is fitted, trained, and allowed to the output by a POOL record (R53, R187). -/
def State.overflowOk (s : State) (n : Nat) : Bool :=
  s.on F.SW_OVCFG_FITTED && s.on F.SW_OVCFG_TRAINED &&
    s.carve.any fun r => r.region == 0 && (r.owner == n || r.owner == 255) && r.flags % 2 == 1

/-- Blocks the fitted overflow memory holds (R188). -/
def State.totalBlocks (s : State) : Nat := 2 ^ (23 + s.rd F.SW_OVCFG_SIZE)

/-! ### Outputs -/

/-- An output's queues. -/
def State.outOf (s : State) (n : Nat) : OutSt := Tbl.get OutSt.init n s.outs

def State.setOut (s : State) (n : Nat) (o : OutSt) : State := { s with outs := Tbl.put OutSt.init n o s.outs }

/-- Items of queue q, in order of admission. -/
def OutSt.queue (o : OutSt) (q : Nat) : List EItem := o.items.filter (·.tc == q)

/-- The head of queue q. -/
def OutSt.head (o : OutSt) (q : Nat) : Option EItem := o.items.find? (·.tc == q)

/-- The items without the first of queue q. -/
def dropHead (q : Nat) : List EItem → List EItem
  | [] => []
  | i :: is => if i.tc = q then is else i :: dropHead q is

/-- The occupancy registers of the shared cells and of overflow memory follow what is held (R203). -/
def State.sharedSync (s : State) : State :=
  let shared := (s.slath.shr.map (·.2)).sum
  let s := (s.wr F.SW_SHOCC_OCC shared).peak F.SW_SHOCC_PEAK shared
  s.wr F.SW_OVOCC_BLOCKS (s.slath.blocks0 + s.slath.blocks1)

/-- The occupancy registers of an output follow too. -/
def State.poolSync (s : State) (n : Nat) : State :=
  let held := Tbl.get 0 n s.slath.ded + Tbl.get 0 n s.slath.shr
  ((s.wr (F.SW_OCCn_OCC n) held).peak (F.SW_OCCn_PEAK n) held).sharedSync

/-! ### Pause (R200) -/

/-- Slath port n is an edge port. -/
def isEdge (n : Nat) : Bool := decide (3 ≤ n) && decide (n ≤ 18)

/-- A pause leaves an edge port, from SW_MACH and SW_MACL: IEEE 802.3x, or priority pause for all eight priorities with PFC = 1. -/
def State.sendPause (s : State) (n quanta : Nat) : State :=
  s.emit (.pause n (s.rd F.SW_MACH_MAC * 2 ^ 32 + s.rd F.SW_MACL_MAC) (if s.on (F.SW_PCFGn_PFC n) then some 255 else none) quanta)

/-- The count of pool cells held by frames that entered on an edge port has changed: XOFF sends pause, XON ends it (R200). -/
def State.pauseCheck (s : State) (n : Nat) : State :=
  if isEdge n && s.on (F.SW_PCFGn_PAUSETX n) then
    let held := Tbl.get 0 n s.slath.heldBy
    if !s.on (F.SW_PSTATn_XOFF n) && s.rd (F.SW_FCn_XOFF n) != 0 && decide (s.rd (F.SW_FCn_XOFF n) ≤ held) then
      (s.wr (F.SW_PSTATn_XOFF n) 1).sendPause n 0xFFFF
    else if s.on (F.SW_PSTATn_XOFF n) && decide (held ≤ s.rd (F.SW_FCn_XON n)) then
      (s.wr (F.SW_PSTATn_XOFF n) 0).sendPause n 0
    else s
  else s

/-- Cells are taken (or, negative, given back) by frames that entered on a port. -/
def State.holdFor (s : State) (src : Nat) (k : Int) : State :=
  let s := { s with slath := { s.slath with
    heldBy := Tbl.put 0 src (((Tbl.get 0 src s.slath.heldBy : Nat) : Int) + k).toNat s.slath.heldBy } }
  s.pauseCheck src

/-! ### Taking cells (R185, R188) -/

/-- Bytes of a frame from the destination address through the FCS (R208). -/
def Frame.size (f : Frame) : Nat := 18 + f.data.length + (if f.tag.isSome then 4 else 0)

/-- Length L of what an item carries (R208). -/
def Body.size : Body → Nat
  | .frame f => f.size
  | .cell c => c.size
  | .raw bs => bs.length
  | .mc0 f _ _ _ _ _ _ => f.size

/-- Pool cells that a body takes. -/
def Body.cells (b : Body) : Nat := (b.size + 255) / 256

/-- The first block from one on that is not in use, going round; the first number bounds the search. -/
def nextBlock (used : List Nat) (total : Nat) : Nat → Nat → Nat
  | 0, b => b
  | k + 1, b => if b ∈ used then nextBlock used total k ((b + 1) % total) else b

/-- Blocks of overflow memory that queued frames hold. -/
def State.usedBlocks (s : State) : List Nat := s.outs.flatMap fun o => o.2.items.flatMap fun i => i.spill.map (·.1)

/-- The cells of a body written to overflow memory one by one: the queue's chain goes on, a full chain starts a new one under the seed now
in use, and each write is counted in its bank group (R188, R190, R191). Which free block a cell goes to the spec does not say: a free value
(assumption 9). The result: the state, and the blocks taken. -/
def State.spillBlocks (n q : Nat) : List (List Byte) → State × List (Nat × Nat) → State × List (Nat × Nat)
  | [], r => r
  | cell :: cells, (s, got) =>
    let key := n * 8 + q
    let (ch, ix, sd) := Tbl.get (0, 256, 0) key s.slath.chains
    let fresh := decide (256 ≤ ix)
    let chain := if fresh then s.slath.nextChain else ch
    let idx := if fresh then 0 else ix
    let sel := if fresh then s.sel 0 else sd
    let h := hashOf (s.seed 0 sel) (beBytes n 1 ++ beBytes q 1 ++ beBytes chain 4 ++ beBytes idx 1)
    let grp := h / 4 % 4
    let total := s.totalBlocks
    let used := got.map (·.1) ++ s.usedBlocks
    let blk := nextBlock used total used.length (s.freeW.toNat % total)
    let sl := { s.slath with
      chains := Tbl.put (0, 256, 0) key (chain, idx + 1, sel) s.slath.chains
      blocks := Tbl.put [] blk cell s.slath.blocks
      nextChain := if fresh then s.slath.nextChain + 1 else s.slath.nextChain
      bankWrites := s.slath.bankWrites.set grp (s.slath.bankWrites.getD grp 0 + 1)
      blocks0 := s.slath.blocks0 + (if sel = 0 then 1 else 0)
      blocks1 := s.slath.blocks1 + (if sel = 0 then 0 else 1) }
    State.spillBlocks n q cells (({ s with slath := sl } : State).used, got ++ [(blk, sel)])

/-- A queue is spilled: part of it is in overflow memory (R188). -/
def OutSt.spilled (o : OutSt) (q : Nat) : Bool := (o.queue q).any fun i => !i.spill.isEmpty

/-- What a body looks like in the pool. -/
def Body.bytes : Body → List Byte
  | .frame f => f.bytes
  | .cell c => c.bytes
  | .raw bs => bs
  | .mc0 f _ _ _ _ _ _ => f.bytes

/-- The pool cells of a body from cell a on, k of them. -/
def Body.cellsFrom (b : Body) (a : Nat) : Nat → List (List Byte)
  | 0 => []
  | k + 1 => slice b.bytes (256 * a) 256 :: Body.cellsFrom b (a + 1) k

/-- Blocks held under seed 0. -/
def underSeed0 (l : List (Nat × Nat)) : Nat := (l.filter fun b => b.2 == 0).length

/-- Shared cells that a frame of drop precedence dp may still take: below 50, 75 or 100 per cent (R185). -/
def State.shrRoom (s : State) (dp : Nat) : Nat :=
  let total := s.shrCells
  let pct := if dp = 2 then 50 else if dp = 1 then 75 else 100
  (total * pct + 99) / 100 - (s.slath.shr.map (·.2)).sum

/-- A unicast item takes its cells for output n: from the output's own cells, from the shared ones, from overflow; none if it must be
dropped, and then the counter of R185 or R188. -/
def State.takeCells (s : State) (n : Nat) (i : EItem) : Sum State (State × EItem) :=
  let free := s.totalBlocks - (s.slath.blocks0 + s.slath.blocks1)
  let k := i.body.cells
  if (s.outOf n).spilled i.tc then
    if k ≤ free then
      let (s, l) := State.spillBlocks n i.tc (i.body.cellsFrom 0 k) (s, [])
      .inr (s, { i with spill := l })
    else .inl (s.bump F.SW_OVDROP_COUNT)
  else
    let a := min k (s.dedCells n - Tbl.get 0 n s.slath.ded)
    let b := min (k - a) (min (s.shrRoom i.dp) (s.rd F.SW_SHMAX_CELLS - Tbl.get 0 n s.slath.shr))
    let c := k - a - b
    let take (s : State) : State := { s with slath := { s.slath with
      ded := Tbl.put 0 n (Tbl.get 0 n s.slath.ded + a) s.slath.ded, shr := Tbl.put 0 n (Tbl.get 0 n s.slath.shr + b) s.slath.shr } }
    if c = 0 then .inr (take s, { i with ded := a, shr := b })
    else if s.overflowOk n then
      if c ≤ free then
        let (s, l) := State.spillBlocks n i.tc (i.body.cellsFrom (a + b) c) (take s, [])
        .inr (s, { i with ded := a, shr := b, spill := l })
      else .inl (s.bump F.SW_OVDROP_COUNT)
    else .inl (s.bump (F.SW_QDROPn_COUNT n))

/-! ### Launch table references (R248) -/

/-- The launch entry with an index. -/
def State.launchE (s : State) (lti : Nat) : LaunchE := Tbl.get LaunchE.free lti s.tm.launch

/-- A launch entry takes a value; TM_LTOCC follows. -/
def State.setLaunch (s : State) (lti : Nat) (e : LaunchE) : State :=
  let s := { s with tm := { s.tm with launch := Tbl.put LaunchE.free lti e s.tm.launch } }
  (s.wr F.TM_LTOCC_OCC s.tm.launch.length).peak F.TM_LTOCC_PEAK s.tm.launch.length

/-- One more, or one less, frame refers to a launch entry; the entry is freed with the last. -/
def State.launchRef (s : State) (lti : Nat) (d : Int) : State :=
  if lti = 0 then s
  else
    let e := s.launchE lti
    let r := ((e.refs : Int) + d).toNat
    s.setLaunch lti (if r = 0 then LaunchE.free else { e with refs := r })

/-- The lowest free launch entry from an index on; the number of tries bounds the search. -/
def freeLti (t : Tbl LaunchE) : Nat → Nat → Option Nat
  | 0, _ => none
  | k + 1, i => if i < 4096 then if Tbl.get LaunchE.free i t = LaunchE.free then some i else freeLti t k (i + 1) else none

/-- A frame takes a free launch entry (R248, R249); none free is counted in TM_LTFULL. -/
def State.launchTake (s : State) (sec ns frac tol : Nat) : State × Option Nat :=
  match freeLti s.tm.launch (s.tm.launch.length + 1) 1 with
  | none => (s.bump F.TM_LTFULL_COUNT, none)
  | some i => (s.setLaunch i { sec := sec, ns := ns, frac := frac, tol := tol, refs := 1 }, some i)

/-! ### Freeing, admitting, flushing -/

/-- What an item held goes back: its own cells, its overflow blocks, its reference to a multicast copy, its launch reference. -/
def State.freeItem (s : State) (n : Nat) (i : EItem) : State :=
  let s := s.launchRef i.lti (-1)
  if i.copy = 0 then
    let s := { s with slath := { s.slath with
      ded := Tbl.put 0 n (Tbl.get 0 n s.slath.ded - i.ded) s.slath.ded
      shr := Tbl.put 0 n (Tbl.get 0 n s.slath.shr - i.shr) s.slath.shr
      blocks0 := s.slath.blocks0 - underSeed0 i.spill, blocks1 := s.slath.blocks1 - (i.spill.length - underSeed0 i.spill) } }
    (s.poolSync n).holdFor i.src (-((i.ded + i.shr : Nat) : Int))
  else
    let c := Tbl.get { refs := 0, cells := 0, src := 0 } i.copy s.slath.copies
    let dflt : McCopy := { refs := 0, cells := 0, src := 0 }
    if c.refs ≤ 1 then
      let s := { s with slath := { s.slath with
        copies := Tbl.put dflt i.copy dflt s.slath.copies
        shr := Tbl.put 0 255 (Tbl.get 0 255 s.slath.shr - c.cells) s.slath.shr } }
      s.sharedSync.holdFor c.src (-(c.cells : Int))
    else { s with slath := { s.slath with copies := Tbl.put dflt i.copy { c with refs := c.refs - 1 } s.slath.copies } }

/-- A new item, holding nothing yet. -/
def mkItem (b : Body) (tc dp src lti : Nat) : EItem :=
  { body := b, len := b.size, tc := tc, dp := dp, src := src, lti := lti, poison := false, tsreq := false, ded := 0, shr := 0,
    spill := [], copy := 0, byFlow := false }

/-- An output drops everything routed to it: FLUSHING, or not enabled (R202). -/
def State.outFlushing (s : State) (n : Nat) : Bool :=
  decide (2 ≤ n) && decide (n ≤ 18) && (s.on (F.SW_PSTATn_FLUSHING n) || !s.on (F.SW_PCFGn_ENABLE n))

/-- A launched frame's deadline has passed (R221). -/
def State.pastDeadline (s : State) (lti : Nat) : Bool :=
  if lti = 0 then false
  else
    let e := s.launchE lti
    s.reached (e.sec + (e.ns + e.tol) / secNs) ((e.ns + e.tol) % secNs) e.frac

/-- An item whose cells are held joins output n's queue; one past its deadline is a late arrival (R221). -/
def State.join (s : State) (n : Nat) (i : EItem) : State :=
  if isEdge n && s.pastDeadline i.lti then (s.bump (F.SW_LLATEn_COUNT n)).freeItem n i
  else
    let o := s.outOf n
    (s.setOut n { o with items := o.items ++ [i] })

/-- A unicast frame or cell is admitted at output n, or dropped whole (R185); one for a flushing or disabled port is dropped before it
takes a cell (R202). -/
def State.enqueue (s : State) (n : Nat) (i : EItem) : State :=
  if s.outFlushing n then (s.bump (F.SW_FLUSHn_COUNT n)).launchRef i.lti (-1)
  else
    match s.takeCells n i with
    | .inl s => s.launchRef i.lti (-1)
    | .inr (s, i) => ((s.poolSync n).holdFor i.src ((i.ded + i.shr : Nat) : Int)).join n i

/-- Frames routed to flushing or disabled ports are dropped and counted (R202). -/
def State.flushRouted (s : State) : List (Nat × EItem) → State
  | [] => s
  | (n, i) :: r => State.flushRouted ((s.bump (F.SW_FLUSHn_COUNT n)).launchRef i.lti (-1)) r

/-- The references of one multicast copy join their outputs. -/
def State.joinAll (s : State) : List (Nat × EItem) → State
  | [] => s
  | (n, i) :: r => State.joinAll (s.join n i) r

/-- A frame routed to several outputs takes one copy of shared cells under rule 2 of R185, held until the last output has done with it
(R183). The launch entry a frame refers to has one reference when it comes here, and one for each output when it is queued. -/
def State.enqueueMulti (s : State) (items : List (Nat × EItem)) : State :=
  match items with
  | [] => s
  | [(n, i)] => s.enqueue n i
  | (_, i) :: _ =>
    let s := s.launchRef i.lti ((items.length : Int) - 1)
    let s := s.flushRouted (items.filter fun x => s.outFlushing x.1)
    let items := items.filter fun x => !s.outFlushing x.1
    let k := (items.map fun x => x.2.body.cells).foldl max 0
    if items.isEmpty then s
    else if k ≤ s.shrRoom i.dp then
      let id := s.slath.nextCopy
      let dflt : McCopy := { refs := 0, cells := 0, src := 0 }
      let s := { s with slath := { s.slath with
        nextCopy := id + 1
        copies := Tbl.put dflt id { refs := items.length, cells := k, src := i.src } s.slath.copies
        shr := Tbl.put 0 255 (Tbl.get 0 255 s.slath.shr + k) s.slath.shr } }
      State.joinAll (s.sharedSync.holdFor i.src (k : Int)) (items.map fun (n, i) => (n, { i with copy := id }))
    else (s.bump F.SW_MCDROP_COUNT).launchRef i.lti (-(items.length : Int))

/-- Items dropped one after the other, each counted. -/
def State.dropItems (s : State) (n : Nat) (count : Fld) : List EItem → State
  | [] => s
  | i :: is => State.dropItems ((s.bump count).freeItem n i) n count is

/-- Every queued frame of output n is dropped and counted in SW_FLUSHn (R202). -/
def State.flushOut (s : State) (n : Nat) : State :=
  let items := (s.outOf n).items
  State.dropItems (s.setOut n { s.outOf n with items := [] }) n (F.SW_FLUSHn_COUNT n) items

/-- A link of an edge port or U falls: the frame on the wire is lost, the hold starts; with HOLD = 0 the timer wins at once (R202). -/
def State.linkLost (s : State) (n : Nat) : State :=
  if s.on (F.SW_PSTATn_LINK n) then
    let s := s.wr (F.SW_PSTATn_LINK n) 0
    let o := s.outOf n
    let s := match o.sending with
      | some x => ((s.bump (F.SW_LINKLOSTn_COUNT n)).setOut n { o with sending := none }).freeItem n x.item
      | none => s
    if s.rd (F.SW_HOLDn_HOLD n) = 0 then
      ((s.wr (F.SW_PSTATn_HOLDOUT n) 2).wr (F.SW_PSTATn_FLUSHING n) 1).flushOut n
    else s.setOut n { s.outOf n with holding := true }
  else s

/-- The link of an edge port or U is up again: it wins the hold race, or is a late arrival that clears FLUSHING (R202). -/
def State.linkBack (s : State) (n : Nat) : State :=
  if s.on (F.SW_PSTATn_LINK n) then s
  else
    let s := s.wr (F.SW_PSTATn_LINK n) 1
    if (s.outOf n).holding then
      (s.wr (F.SW_PSTATn_HOLDOUT n) 1).setOut n { s.outOf n with holding := false }
    else if s.on (F.SW_PSTATn_FLUSHING n) then
      (s.bump (F.SW_LATEn_COUNT n)).wr (F.SW_PSTATn_FLUSHING n) 0
    else s

end Sys2Proof.Machine
end

