-- ==== Sys2Proof/Machine/Egress.lean ====
section
/-! DEFINITION. Egress: eligibility and service order, shapers, time gates, launch times, pause and the port-down hold (chapter 07; R199
to R202). -/

namespace Sys2Proof.Machine

/-! ### Rates and shapers (R208 to R211) -/

/-- The rate of an output in Mb/s: SW_PSTATn.SPEED for an edge port, R of R73 for U and the ring ports. -/
def State.outMbps (s : State) (n : Nat) : Nat :=
  if n ≤ 2 then if s.on (F.RGp_LSTAT_RATEACT n) then 10000 else 25000
  else match s.rd (F.SW_PSTATn_SPEED n) with
    | 0 => 10
    | 1 => 100
    | 2 => 1000
    | _ => 2500

/-- 32 ns of the timing wheel, in 2^-16 ns. -/
def wheel16 : Int := 32 * 65536

/-- The release instant of an eligible time: the first multiple of 32 ns at or after it (R211). -/
def release16 (e : Int) : Int := (e + wheel16 - 1) / wheel16 * wheel16

/-- The shaper of queue q allows it now (rule 3 of R206). -/
def State.shaperOk (s : State) (n q : Nat) : Bool :=
  decide (18 < n) || s.rd (F.SW_QRATEn_q_RATE n q) == 0 ||
    match (s.outOf n).elig.getD q none with
    | none => true
    | some e => decide (release16 e ≤ s.now16)

/-- The refill at the end of a frame of L bytes of queue q that started at t16 with the RATE and BURST it latched (R210): a rate in kb/s
is bits per ms, so L bytes take L * 8 * 10^6 / RATE ns. -/
def State.refill (s : State) (n q len t16 rate burst : Nat) : State :=
  if rate = 0 then s
  else
    let o := s.outOf n
    let b : Int := (burst * 8 * 1000000 * 65536 / rate : Nat)
    let base : Int := match o.elig.getD q none with
      | none => t16 - b
      | some e => if e < t16 - b - wheel16 then t16 - b else e
    s.setOut n { o with elig := o.elig.set q (some (base + (len * 8 * 1000000 * 65536 / rate : Nat))) }

/-! ### Time gates (R212 to R219) -/

/-- The entries (STATE, INTERVAL) of list l of output n within its GLEN. -/
def State.gateList (s : State) (n l : Nat) : List (Nat × Nat) :=
  (List.range (s.rd (F.SW_GLENn_l_LEN n l))).map fun e => (s.rd (F.SW_GSn_l_e_STATE n l e), s.rd (F.SW_GIn_l_e_INTERVAL n l e))

/-- Cycle time C of a list (R212). -/
def cycleOf (l : List (Nat × Nat)) : Nat := (l.map (·.2)).sum

/-- The entry that stands at an offset into a cycle: its number, and how long it has run. -/
def entryAt : List (Nat × Nat) → Nat → Nat → Nat × Nat
  | [], k, off => (k, off)
  | (_, iv) :: es, k, off => if off < iv then (k, off) else entryAt es (k + 1) (off - iv)

/-- Sum of the leading intervals whose entries hold bit q. -/
def openRun (q : Nat) : List (Nat × Nat) → Nat
  | [] => 0
  | (st, iv) :: es => if bitsOf st q 1 = 1 then iv + openRun q es else 0

/-- Where the active list stands: its entries with their intervals in 2^-39 ns, the entry number and how long that entry has run; none with
no list active. -/
def State.gatePos (s : State) (n : Nat) : Option (List (Nat × Nat) × Nat × Nat) :=
  match (s.outOf n).active with
  | none => none
  | some l =>
    let es := (s.gateList n l).map fun e => (e.1, e.2 * nsUnit)
    let c := cycleOf es
    if c = 0 then none else some (es, entryAt es 0 (((s.clock.site : Int) - (s.outOf n).listStart) % c).toNat)

/-- The armed swap time, in 2^-39 ns of local time. -/
def State.swapAt (s : State) (n : Nat) : Nat :=
  ((s.clock.site : Int) + s.until (s.rd (F.SW_GSWAPSn_SEC n)) (s.rd (F.SW_GSWAPNSn_NS n)) 0).toNat

/-- Time until the active list closes queue q at output n, in 2^-39 ns; none: it never does. -/
def State.listLeft (s : State) (n q : Nat) : Option Nat :=
  match s.gatePos n with
  | none => none
  | some (es, k, ran) =>
    if es.all fun e => bitsOf e.1 q 1 == 1 then none else some (openRun q (es.drop k ++ es.take k) - ran)

/-- Open time left for queue q at output n, in 2^-39 ns; none: without end (R214). -/
def State.openLeft (s : State) (n q : Nat) : Option Nat :=
  if (s.outOf n).armed.isSome then
    let t := s.swapAt n - s.clock.site
    match s.listLeft n q with
    | none => some t
    | some o => some (min o t)
  else s.listLeft n q

/-- The gate of queue q is open now. -/
def State.gateOpen (s : State) (n q : Nat) : Bool :=
  match s.gatePos n with
  | none => true
  | some (es, k, _) => bitsOf (es.getD k (255, 0)).1 q 1 == 1

/-- A length fits the open time left (R214). -/
def State.gateFits (s : State) (n q len : Nat) : Bool :=
  match s.openLeft n q with
  | none => true
  | some o => decide (len * 8 * 1000 * nsUnit ≤ o * s.outMbps n)

/-- The next instant at which the active list closes queue q, in 2^-39 ns of local time. -/
def State.closeAt (s : State) (n q : Nat) : Option Nat := (s.listLeft n q).map (s.clock.site + ·)

/-- Local time is later than a close plus the preamble time, 8 × 8 / rate (R214, R216). -/
def State.overran (s : State) (n : Nat) (close : Option Nat) : Bool :=
  match close with
  | none => false
  | some c => decide (64 * 1000 * nsUnit < (s.clock.site - c) * s.outMbps n)

/-- The close that a frame in progress meets once the active list has changed: the one it has passed, or that of the new list (R216). -/
def State.newClose (s : State) (n : Nat) (start : Nat) (x : Sending) : Option Nat :=
  let fresh := if s.gateOpen n x.item.tc then s.closeAt n x.item.tc else some start
  match x.close with
  | none => fresh
  | some c => if c < start then some c else fresh

/-- The longest window of queue q in a list (R219): the longest cyclic run of entries with its bit set. -/
def gwmax (es : List (Nat × Nat)) (q : Nat) : Nat :=
  if es.all fun e => bitsOf e.1 q 1 == 1 then 0xFFFFFFFF
  else ((List.range es.length).map fun k => openRun q (es.drop k ++ es.take k)).foldl max 0

/-- GSTAT.STATE and ENTRY follow the active list. -/
def State.gateShow (s : State) (n : Nat) : State :=
  match s.gatePos n with
  | none => (s.wr (F.SW_GSTATn_STATE n) 255).wr (F.SW_GSTATn_ENTRY n) 0
  | some (es, k, _) => (s.wr (F.SW_GSTATn_STATE n) (es.getD k (255, 0)).1).wr (F.SW_GSTATn_ENTRY n) k

/-- GWMAX of every queue is recomputed for the list now active (R216, R219). -/
def State.gateMaxima (s : State) (n : Nat) : List Nat → State
  | [] => s
  | q :: qs =>
    State.gateMaxima (s.wr (F.SW_GWMAXn_q_WMAX n q)
      (match (s.outOf n).active with
        | none => 0xFFFFFFFF
        | some l => gwmax (s.gateList n l) q)) n qs

/-- A list becomes active at S, in 2^-39 ns of local time, or none does (R213, R216). -/
def State.gateActivate (s : State) (n : Nat) (l : Option Nat) (start : Nat) : State :=
  let s := s.setOut n { s.outOf n with active := l, listStart := start }
  let s := s.wr (F.SW_GSTATn_ACTIVE n) (match l with | none => 0 | some k => k + 1)
  let s := s.wr (F.SW_GCYCn_CYCLE n) (match l with | none => 0 | some k => cycleOf (s.gateList n k))
  let s := s.setOut n { s.outOf n with sending := (s.outOf n).sending.map fun x => { x with close := s.newClose n start x } }
  (s.gateMaxima n [0, 1, 2, 3, 4, 5, 6, 7]).gateShow n

/-- ARM names a list that may be armed (R215). -/
def State.gateArmOk (s : State) (n l : Nat) : Bool :=
  let es := s.gateList n l
  (s.outOf n).active != some l && !es.isEmpty && es.all (fun e => decide (32 ≤ e.2) && decide (e.2 ≤ secNs)) && decide (cycleOf es ≤ secNs)

/-- An armed swap is taken back. -/
def State.gateUnarm (s : State) (n : Nat) : State :=
  ((s.setOut n { s.outOf n with armed := none }).wr (F.SW_GSTATn_ARMED n) 0).wr (F.SW_GCTLn_ARM n) 0

/-- The swap wins: the armed list becomes active from entry 0 (R216, R217). -/
def State.gateSwapNow (s : State) (n start : Nat) : State :=
  match (s.outOf n).armed with
  | none => s
  | some l => (((s.gateUnarm n).wr (F.SW_GSTATn_SWAPOUT n) 2).gateActivate n (some l) start)

/-- ARM is set for a list; a swap time not later than local time swaps at the next tick (R215, R217). -/
def State.gateArm (s : State) (n l : Nat) : State :=
  let s := ((s.setOut n { s.outOf n with armed := some l }).wr (F.SW_GSTATn_ARMED n) 1).wr (F.SW_GCTLn_ARM n) 1
  if s.reached (s.rd (F.SW_GSWAPSn_SEC n)) (s.rd (F.SW_GSWAPNSn_NS n)) 0 then
    let s := ((s.wr (F.SW_GSTATn_LATESWAP n) 1).bump (F.SW_GLATEn_COUNT n)).ticks 1
    s.gateSwapNow n s.clock.site
  else s.wr (F.SW_GSTATn_LATESWAP n) 0

/-- DISARM: it wins while a swap is armed; after a swap that won it is late (R217). -/
def State.gateDisarm (s : State) (n : Nat) : State :=
  if (s.outOf n).armed.isSome then (s.gateUnarm n).wr (F.SW_GSTATn_SWAPOUT n) 1
  else if s.rd (F.SW_GSTATn_SWAPOUT n) = 2 then s.bump (F.SW_GLATEn_COUNT n)
  else s

/-- OFF: any armed swap is disarmed, no list is active, every gate open (R215). -/
def State.gateOff (s : State) (n : Nat) : State :=
  let s := if (s.outOf n).armed.isSome then (s.gateUnarm n).wr (F.SW_GSTATn_SWAPOUT n) 1 else s
  s.gateActivate n none s.clock.site

/-- The head of queue q fits no window of the active list (R219). -/
def State.unsendable (s : State) (n q : Nat) : Bool :=
  match (s.outOf n).head q with
  | none => false
  | some h =>
    s.rd (F.SW_GWMAXn_q_WMAX n q) != 0xFFFFFFFF && decide (s.rd (F.SW_GWMAXn_q_WMAX n q) * s.outMbps n < h.len * 8 * 1000)

/-! ### Eligibility and service (R206, R207) -/

/-- The head has no launch time, or it has been reached (rule 4 of R206; edge ports only). -/
def State.launchOk (s : State) (n : Nat) (h : EItem) : Bool :=
  !isEdge n || h.lti == 0 || let e := s.launchE h.lti; s.reached e.sec e.ns e.frac

/-- A priority that maps to queue q under SW_PCPMAPn is paused (R200). -/
def State.queuePaused (s : State) (n q : Nat) : Bool :=
  (List.range 8).any fun p => bitsOf (s.outOf n).pausedP p 1 == 1 && bitsOf (s.rd (F.SW_PCPMAPn_MAP n)) (3 * p) 3 == q

/-- Queue q is not paused (rule 2). -/
def State.notPaused (s : State) (n q : Nat) : Bool := !(s.outOf n).paused && ((s.outOf n).pausedP == 0 || !s.queuePaused n q)

/-- Queue q of output n is eligible now (R206). -/
def State.eligible (s : State) (n q : Nat) : Bool :=
  match (s.outOf n).head q with
  | none => false
  | some h =>
    h.spill.isEmpty && s.notPaused n q && s.shaperOk n q && s.launchOk n h &&
      (decide (n < 2) || decide (18 < n) || (s.gateOpen n q && s.gateFits n q h.len))

/-- The deficit round robin of R207 over Q5 to Q0; the first number bounds its visits. -/
def State.drr (s : State) (n : Nat) : Nat → OutSt → OutSt × Option Nat
  | 0, o => (o, none)
  | k + 1, o =>
    let q := o.p
    let nxt (o : OutSt) : OutSt := { o with p := if q = 0 then 5 else q - 1, v := false }
    match o.head q with
    | none => State.drr s n k (nxt { o with defs := o.defs.set q 0 })
    | some h =>
      if s.eligible n q then
        let d := o.defs.getD q 0 + (if o.v then 0 else s.rd (F.SW_QCFGn_q_QUANTUM n q))
        if h.len ≤ d then ({ o with v := true, defs := o.defs.set q (d - h.len) }, some q)
        else State.drr s n k (nxt { o with defs := o.defs.set q d })
      else State.drr s n k (nxt o)

/-- The queue that sends next: R207 at U and the edge ports, strict from Q7 down at an internal output (R204). -/
def State.choose (s : State) (n : Nat) : OutSt × Option Nat :=
  let o := s.outOf n
  if 18 < n then (o, [7, 6, 5, 4, 3, 2, 1, 0].find? (s.eligible n ·))
  else if s.eligible n 7 then (o, some 7)
  else if s.eligible n 6 then (o, some 6)
  else if [0, 1, 2, 3, 4, 5].any (s.eligible n ·) then s.drr n 1200 o
  else (o, none)

/-- Poisoned heads leave the queues: a poisoned frame is never sent as good (R23, R186). -/
def State.dropPoisoned (s : State) (n : Nat) : State :=
  let o := s.outOf n
  State.dropItems (s.setOut n { o with items := o.items.filter fun i => !i.poison }) n (F.SW_POISONn_COUNT n) (o.items.filter (·.poison))

/-- What an output latches of a frame as its first bit leaves (R210, R216). -/
def State.starting (s : State) (n : Nat) (i : EItem) (cut : Bool) : Sending :=
  { item := i, start := s.now16, rate := s.rd (F.SW_QRATEn_q_RATE n i.tc), burst := s.rd (F.SW_QCFGn_q_BURST n i.tc), cut := cut,
    awaits := cut, stomp := false, close := if n ≤ 18 then s.closeAt n i.tc else none }

/-- The frame boundary of U, an edge port or an internal output: the next frame starts, latching its shaper's values (R207, R210, R221). One
whose first beat fails parity as it is read from the pool is dropped: nothing of it has left (R23, R186). -/
def State.frameBoundary (s : State) (n : Nat) (parityBad : Bool) : State :=
  if (s.outOf n).sending.isSome || (decide (n ≤ 18) && !s.on (F.SW_PSTATn_LINK n)) || (isEdge n && !s.clocked 2) then s
  else
    let s := s.dropPoisoned n
    let (o, pick) := s.choose n
    let s := s.setOut n o
    match pick with
    | none => s
    | some q =>
      match o.head q with
      | none => s
      | some h =>
        let rest := { o with items := dropHead q o.items }
        if parityBad then ((s.setOut n rest).bump (F.SW_POISONn_COUNT n)).freeItem n h
        else
          let s := s.setOut n { rest with sending := some (s.starting n h false) }
          if isEdge n && h.lti != 0 then s.wr (F.SW_LSTATn_OUTCOME n) 1 else s

/-- A transmit stamp joins its port's FIFO of four, or is lost and counted (R243). -/
def State.txStamp (s : State) (e : Nat) (t : Nat × Nat × Nat × Nat) : State :=
  let q := Tbl.get [] e s.tm.stamps
  if q.length < 4 then { s with tm := { s.tm with stamps := Tbl.put [] e (q ++ [t]) s.tm.stamps } } else s.bump F.TM_TXTSLOST_COUNT

/-- Bytes of an IP header: as IPv4's own length field says, or the 40 of IPv6. -/
def Frame.ipLen (f : Frame) : Nat := if f.etype = 0x86DD then 40 else 4 * (beAt f.data 0 1 % 16)

/-- The UDP port a frame is for, over IPv4 or IPv6; 0 for any other frame. -/
def Frame.udpPort (f : Frame) : Nat :=
  if (f.etype == 0x0800 && beAt f.data 9 1 == 17) || (f.etype == 0x86DD && beAt f.data 6 1 == 17) then beAt f.data (f.ipLen + 2) 2 else 0

/-- The bytes of an IEEE 1588 message, from its messageType on: the data over EtherType 0x88F7, what follows the UDP header otherwise. -/
def Frame.ptpHead (f : Frame) : List Byte := if f.etype = 0x88F7 then f.data else f.data.drop (f.ipLen + 8)

/-- A frame that the stamp unit recognises (R243): an event message, messageType 0x0 to 0x3, over EtherType 0x88F7 or UDP port 319. -/
def Frame.isEvent (f : Frame) : Bool := (f.etype == 0x88F7 || f.udpPort == 319) && decide (beAt f.ptpHead 0 1 % 16 ≤ 3)

/-- What leaves an output, as it is put out; a stomped cell ends with the error end marker (R181). An internal output hands its unit the
frame and its launch time (R204). -/
def State.leaves (s : State) (n : Nat) (i : EItem) (stomp : Bool) : Out :=
  let unit (bs : List Byte) : Out :=
    let e := if i.lti = 0 then LaunchE.free else s.launchE i.lti
    .toUnit n bs i.lti e.sec e.ns e.frac
  if 18 < n then
    match i.body with
    | .mc0 f p v q b sc ns => .ptpToMc0 f.bytes.length p v q b sc ns f
    | b => unit b.bytes
  else
    match i.body with
    | .frame f => .frame n f stomp
    | .cell c => if stomp then .cellTail n c true else .cell n c
    | b => unit b.bytes

/-- The frame in progress ends: it has left, its shaper is refilled, its cells go back, its stamp is taken, an overrun of its gate is
counted (R210, R216, R243). A parity failure in a beat read from the pool after the first makes the output stomp it (R23, R186). -/
def State.frameEnd (s : State) (n : Nat) (parityBad : Bool) : State :=
  match (s.outOf n).sending with
  | none => s
  | some x =>
    if x.awaits then s
    else
      let q := x.item.tc
      let s := if parityBad && !x.stomp then s.bump (F.SW_STOMPn_COUNT n) else s
      let s := s.emit (s.leaves n x.item (x.stomp || parityBad))
      let s := if n = 2 then s.bump (F.RGp_TXCELL_COUNT 2) else s
      let s := if x.cut then s.bump (F.SW_CTn_COUNT n) else s
      let s := if s.overran n x.close then s.bump (F.SW_GOVRn_COUNT n) else s
      let s := s.refill n q x.item.len x.start x.rate x.burst
      let s := s.setOut n { s.outOf n with sending := none }
      let s := match x.item.tsreq, x.item.body with
        | true, .frame f =>
          let t := x.start / 65536 + s.rd (F.TM_EDLYn_TX (n - 3)) / 16
          s.txStamp (n - 3) (t / secNs % 2 ^ 32, t % secNs, beAt f.ptpHead 30 2, beAt f.ptpHead 0 1 % 16)
        | _, _ => s
      s.freeItem n x.item

/-! ### Commands: service, shapers, gates -/

/-- EGRESS_FRAME_BOUNDARY (R204, R207): U is output 2, En is 3 + n, the internal outputs are 19 to 26. -/
def execEgressFrameBoundary (n : Fin 25) (parityBad : Bool) (s : State) : Host.Outcome State Fault Refusal :=
  .next (s.frameBoundary (n.val + 2) parityBad)

/-- FRAME_SENT (R210). -/
def execFrameSent (n : Fin 25) (parityBad : Bool) (s : State) : Host.Outcome State Fault Refusal :=
  .next (s.frameEnd (n.val + 2) parityBad)

/-- SHAPER_RELEASE (R211): local time reaches the queue's release instant. -/
def execShaperRelease (n : Fin 19) (q : Fin 8) (s : State) : Host.Outcome State Fault Refusal :=
  .next (match (s.outOf n.val).elig.getD q.val none with
    | none => s
    | some e =>
      if release16 e ≤ s.now16 then s
      else s.ticks ((((release16 e).toNat * 2 ^ 23 - s.clock.site) + s.tickStep - 1) / s.tickStep))

/-- GATE_ENTRY (R213): the next entry of the active list starts at the first tick at or after its time. -/
def execGateEntry (n : Fin 17) (s : State) : Host.Outcome State Fault Refusal :=
  .next (match s.gatePos (n.val + 2) with
    | none => s
    | some (es, k, ran) =>
      (s.ticks (((es.getD k (0, 0)).2 - ran + s.tickStep - 1) / s.tickStep)).gateShow (n.val + 2))

/-- GATE_SWAP (R216, R217): the swap time is reached and wins. -/
def execGateSwap (n : Fin 17) (s : State) : Host.Outcome State Fault Refusal :=
  let p := n.val + 2
  .next (if (s.outOf p).armed.isSome then
      let start := s.swapAt p
      (s.reach (s.rd (F.SW_GSWAPSn_SEC p)) (s.rd (F.SW_GSWAPNSn_NS p)) 0).gateSwapNow p start
    else s)

/-- After a boot load list 0 of each output whose preset GLEN is not 0 becomes active at the first whole second (R218). -/
def State.bootLists (s : State) : List Nat → State
  | [] => s
  | n :: ns =>
    State.bootLists (if (s.outOf n).bootList then
        (s.setOut n { s.outOf n with bootList := false }).gateActivate n (some 0) (s.nowNs / secNs * secNs * nsUnit)
      else s) ns

/-- GATE_LIST_BOOT_START (R218). -/
def execGateListBootStart (s : State) : Host.Outcome State Fault Refusal :=
  .next ((s.reachMultiple secNs).bootLists ((List.range 17).map (· + 2)))

/-- UNSENDABLE_TIMEOUT (R219): a head still unsendable after one cycle is discarded, counted and reported. -/
def execUnsendableTimeout (n : Fin 17) (q : Fin 8) (s : State) : Host.Outcome State Fault Refusal :=
  let p := n.val + 2
  .next (match (s.outOf p).head q.val with
    | none => s
    | some h =>
      if s.unsendable p q.val then
        let o := s.outOf p
        let s := (s.setOut p { o with items := dropHead q.val o.items }).bump (F.SW_GLONGn_COUNT p)
        (s.event 9 1 (p + q.val * 32) h.len 0).freeItem p h
      else s)

/-! ### Commands: launch times (R220, R221) -/

/-- LAUNCH_TIME: the launch time of an entry is reached. -/
def execLaunchTime (n : Fin 16) (lti : BitVec 12) (s : State) : Host.Outcome State Fault Refusal :=
  let e := s.launchE lti.toNat
  .next (if (s.outOf (n.val + 3)).items.any fun i => i.lti == lti.toNat && lti.toNat != 0 then s.reach e.sec e.ns e.frac else s)

/-- Items of an output that refer to a launch entry are discarded, each counted in SW_LEXPn. -/
def State.expire (s : State) (n lti : Nat) : State :=
  let o := s.outOf n
  let gone := o.items.filter (·.lti == lti)
  State.dropItems ((s.setOut n { o with items := o.items.filter (·.lti != lti) }).wr (F.SW_LSTATn_OUTCOME n) 2) n (F.SW_LEXPn_COUNT n) gone

/-- LAUNCH_DEADLINE (R221): the deadline wins before the frame starts. -/
def execLaunchDeadline (n : Fin 16) (lti : BitVec 12) (s : State) : Host.Outcome State Fault Refusal :=
  let p := n.val + 3
  let e := s.launchE lti.toNat
  .next (if (s.outOf p).items.any fun i => i.lti == lti.toNat && lti.toNat != 0 then
      (s.reach (e.sec + (e.ns + e.tol) / secNs) ((e.ns + e.tol) % secNs) e.frac).expire p lti.toNat
    else s)

/-! ### Commands: pause (R200) -/

/-- PSTAT.PAUSED follows the pause state of the output. -/
def State.setPaused (s : State) (n : Nat) (all : Bool) (mask : Nat) : State :=
  (s.setOut n { s.outOf n with paused := all, pausedP := mask }).wr (F.SW_PSTATn_PAUSED n) (if all || mask != 0 then 1 else 0)

/-- A PAUSE frame: counted; with PAUSERX = 1 and PFC = 0 it stops the output from starting frames, quanta 0 lets it go on. -/
def State.pauseIn (s : State) (n quanta : Nat) : State :=
  let s := s.bump (F.SW_PAUSERXn_COUNT n)
  if s.on (F.SW_PCFGn_PAUSERX n) && !s.on (F.SW_PCFGn_PFC n) then s.setPaused n (quanta != 0) (s.outOf n).pausedP else s

/-- PAUSE. -/
def execPause (e : Fin 16) (quanta : BitVec 16) (s : State) : Host.Outcome State Fault Refusal := .next (s.pauseIn (e.val + 3) quanta.toNat)

/-- The priorities paused once a priority pause has come: each one it names is paused, or with quanta 0 freed. -/
def pauseMask (classes : Nat) (quanta : List Nat) : List Nat → Nat → Nat
  | [], m => m
  | p :: ps, m => pauseMask classes quanta ps (if bitsOf classes p 1 = 1 then setBits m p 1 (if quanta.getD p 0 = 0 then 0 else 1) else m)

/-- A priority pause frame: counted; with PFC = 1 it pauses, or with quanta 0 frees, each priority it names; a queue stays paused while a
paused priority maps to it. -/
def State.priorityPauseIn (s : State) (n classes : Nat) (quanta : List Nat) : State :=
  let s := s.bump (F.SW_PAUSERXn_COUNT n)
  if s.on (F.SW_PCFGn_PFC n) then
    s.setPaused n (s.outOf n).paused (pauseMask classes quanta [0, 1, 2, 3, 4, 5, 6, 7] (s.outOf n).pausedP)
  else s

/-- PRIORITY_PAUSE. -/
def execPriorityPause (e : Fin 16) (classes : Byte) (quanta : List (BitVec 16)) (s : State) : Host.Outcome State Fault Refusal :=
  .next (s.priorityPauseIn (e.val + 3) classes.toNat (quanta.map (·.toNat)))

/-- The priorities that do not map to a queue. -/
def State.unmapped (s : State) (n q : Nat) : List Nat → Nat → Nat
  | [], m => m
  | p :: ps, m => State.unmapped s n q ps (if bitsOf (s.rd (F.SW_PCPMAPn_MAP n)) (3 * p) 3 = q then setBits m p 1 0 else m)

/-- PAUSE_EXPIRY: the pause time of the output, or of one queue, has run out. -/
def execPauseExpiry (e : Fin 16) (queue : Option (Fin 8)) (s : State) : Host.Outcome State Fault Refusal :=
  let n := e.val + 3
  .next (match queue with
    | none => s.setPaused n false (s.outOf n).pausedP
    | some q => s.setPaused n (s.outOf n).paused (s.unmapped n q.val [0, 1, 2, 3, 4, 5, 6, 7] (s.outOf n).pausedP))

/-- PAUSE_REPEAT: while the count stays above XON the pause is sent again. -/
def execPauseRepeat (e : Fin 16) (s : State) : Host.Outcome State Fault Refusal :=
  let n := e.val + 3
  .next (if s.on (F.SW_PSTATn_XOFF n) && decide (s.rd (F.SW_FCn_XON n) < Tbl.get 0 n s.slath.heldBy) then s.sendPause n 0xFFFF else s)

/-! ### Commands: the port-down hold (R201, R202) -/

/-- The speed at which an edge port comes up, as SW_PSTATn.SPEED codes it: the PHY's of 10, 100 or 1,000 Mb/s for SGMII, else the mode's own
(R199). -/
def modeSpeed (mode speed : Nat) : Option Nat :=
  match mode with
  | 0 => if speed ≤ 2 then some speed else none
  | 1 => some 2
  | 2 => some 3
  | _ => none

/-- EDGE_LINK_UP: the link returns, at a speed the partner states; `full`: it offers full duplex, without which the link never comes up
(R199). U's link is up while its STATE is UP and at no other time (R201). -/
def execEdgeLinkUp (n : Fin 17) (speed : BitVec 2) (full : Bool) (s : State) : Host.Outcome State Fault Refusal :=
  let p := n.val + 2
  .next (if p = 2 then if s.rd (F.RGp_LSTAT_STATE 2) = 4 then s.linkBack 2 else s
    else if !full || !s.on (F.SW_PCFGn_ENABLE p) then s
    else match modeSpeed (s.rd (F.SW_PCFGn_MODE p)) speed.toNat with
      | some v => (s.wr (F.SW_PSTATn_SPEED p) v).linkBack p
      | none => s)

/-- PORT_HOLD_TIMEOUT: the hold timer wins and the queues are flushed. -/
def execPortHoldTimeout (n : Fin 17) (s : State) : Host.Outcome State Fault Refusal :=
  let p := n.val + 2
  .next (if (s.outOf p).holding then
      let s := s.setOut p { s.outOf p with holding := false }
      ((s.wr (F.SW_PSTATn_HOLDOUT p) 2).wr (F.SW_PSTATn_FLUSHING p) 1).flushOut p
    else s)

end Sys2Proof.Machine
end

