-- ==== Sys2Proof/Machine/Ring.lean ====
section
/-! DEFINITION. The two rings at a node: choice of ring and route (R96, R130), transit and insertion (R103 to R107), wrap and unwrap
(R133, R134, R137). -/

namespace Sys2Proof.Machine

/-- What a port holds. -/
def State.link (s : State) (p : Nat) : LinkSt := Tbl.get LinkSt.init p s.links

def State.setLink (s : State) (p : Nat) (l : LinkSt) : State := { s with links := Tbl.put LinkSt.init p l s.links }

/-- STATE of a port (R78): 0 DOWN, 1 ACQUIRE, 2 LOCK, 3 GREET, 4 UP, 5 FAULT. -/
def State.linkState (s : State) (p : Nat) : Nat := s.rd (F.RGp_LSTAT_STATE p)

/-- The port is in UP. -/
def State.isUp (s : State) (p : Nat) : Bool := s.linkState p == 4

/-- The node is wrapped at ring port p (RG_WRAP). -/
def State.wrapped (s : State) (p : Nat) : Bool := if p = 0 then s.on F.RG_WRAP_WRAPE else s.on F.RG_WRAP_WRAPW

def State.setWrapped (s : State) (p v : Nat) : State := if p = 0 then s.wr F.RG_WRAP_WRAPE v else s.wr F.RG_WRAP_WRAPW v

/-- The other ring port. -/
def other (p : Nat) : Nat := 1 - p

/-- A cell turned onto the other ring at a wrap (R103, R133). -/
def Cell.turned (c : Cell) : Cell := { c with ring := !c.ring, hops := 0, wraps := c.wraps + 1 }

/-! ### Transit (R107) -/

/-- Pool cells in use in a transit region. -/
def transitOcc (l : List TCell) : Nat := ((l.filter (·.stored)).map fun t => t.cell.poolCells).sum

/-- The region's occupancy by classes 2 to 0. -/
def transitLow (l : List TCell) : Nat := ((l.filter fun t => t.stored && decide (t.cell.cls.toNat ≤ 2)).map fun t => t.cell.poolCells).sum

/-- RGp_TRANSIT follows the region. -/
def State.transitShow (s : State) (p : Nat) : State :=
  let occ := transitOcc (s.link p).transit
  (s.wr (F.RGp_TRANSIT_OCC p) occ).peak (F.RGp_TRANSIT_PEAK p) occ

/-- The limit of classes 2 to 0 for a drop precedence: 128 for high, 160 for medium, 192 for low. -/
def dpLimit (dp : Nat) : Nat := if dp = 2 then 128 else if dp = 1 then 160 else 192

/-- A cell joins the transit region of port p; a stored one may be dropped, and counted (R107). A class 2 to 0 cell within its DP limit that
the full region cannot hold is dropped and counted in RGp_TDROP too: R107 gives that case no counter of its own, and this one is the
model's choice (assumption 29). -/
def State.transitAdd (s : State) (p : Nat) (t : TCell) : State :=
  let l := s.link p
  let k := t.cell.poolCells
  let full := decide (256 < transitOcc l.transit + k)
  if t.stored && (decide (t.cell.cls.toNat ≤ 2) && (full || decide (dpLimit t.cell.dp.toNat < transitLow l.transit + k))) then
    s.bump (F.RGp_TDROP_COUNT p)
  else if t.stored && (decide (3 ≤ t.cell.cls.toNat) && full) then (s.bump (F.RGp_TOVER_COUNT p)).ringEvent 4 p 0 0
  else (s.setLink p { l with transit := l.transit ++ [t] }).transitShow p

/-! ### Choosing the next cell (R105, R106, R205) -/

/-- The head of transit[c], if it is ready to send. -/
def transitReady (l : List TCell) (c : Nat) : Option TCell :=
  match l.find? fun t => t.cell.cls.toNat == c with
  | some t => if t.ready then some t else none
  | none => none

/-- The cell an item carries. -/
def EItem.cell (i : EItem) : Cell :=
  match i.body with
  | .cell c => c
  | .frame f => cellOfBytes f.bytes
  | .raw bs => cellOfBytes bs
  | .mc0 f _ _ _ _ _ _ => cellOfBytes f.bytes

/-- The head of local queue Q[c]; absent while its shaper makes it ineligible (R205), or while part of it is in overflow memory (R188). -/
def State.localHead (s : State) (p c : Nat) : Option EItem := if s.eligible p c then (s.outOf p).head c else none

/-- What R106 sends next at a ring port. -/
inductive Pick where
  | entitled (c : Nat)
  | pass (c : Nat)
  | gap (c : Nat)
  | nothing
  deriving DecidableEq, Repr

/-- The loop of R106 from a class downwards. -/
def State.pick (s : State) (p : Nat) : Nat → Pick
  | 0 => .nothing
  | k + 1 =>
    let c := k
    let l := s.link p
    let room := decide (18 ≤ 256 - transitOcc l.transit)
    let h := s.localHead p c
    if h.isSome && decide (0 < l.credit.getD c 0) && room then .entitled c
    else if (transitReady l.transit c).isSome then .pass c
    else if decide (c ≤ 2) && h.isSome && room then .gap c
    else State.pick s p k

/-- Local time with 32-bit seconds, in 2^-16 ns. -/
def State.native16 (s : State) : Nat := (s.sec * secNs + s.ns) * 65536 + s.frac

/-- ORIGIN of a SYNC payload, in 2^-16 ns (R232). -/
def origin16 (pay : List Byte) : Nat := (beAt pay 0 4 * secNs + beAt pay 4 4) * 65536 + beAt pay 8 2

/-- A difference of two native site times, taken as R225 takes it: the seconds modulo 2^32, signed. In 2^-16 ns. -/
def wrapSite (d : Int) : Int :=
  let w : Int := (2 ^ 32 * secNs * 65536 : Nat)
  (d + w / 2) % w - w / 2

/-- The root's SYNC takes CORR = send stamp - ORIGIN as its header leaves (R234); every other cell leaves as it is. -/
def State.syncCorr (s : State) (c : Cell) : Cell :=
  if c.type = 5 && c.op == 0 && c.mcast then { c with corr := BitVec.ofInt 48 (wrapSite ((s.native16 : Int) - origin16 c.payload)) } else c

/-- What port p puts out of a whole cell: the cell, or its head and, stomped, its tail. -/
def State.cellLeaves (s : State) (p : Nat) (c : Cell) (stomp : Bool) : State :=
  if stomp then (((s.bump (F.SW_STOMPn_COUNT p)).emit (.cellHead p c)).emit (.cellTail p c true)) else s.emit (.cell p c)

/-- A local cell leaves port p (R105): counted, and its shaper refilled (R210). One whose first bytes fail parity as they are read from the
pool is dropped; one that fails later is stomped (R23, R186). -/
def State.sendLocal (s : State) (p c : Nat) (gap : Bool) (pool : PoolRead) : State :=
  match (s.outOf p).head c with
  | none => s
  | some i =>
    let o := s.outOf p
    let s := s.setOut p { o with items := dropHead c o.items }
    if pool = .first then (s.bump (F.SW_POISONn_COUNT p)).freeItem p i
    else
      let cell := s.syncCorr i.cell
      let l := s.link p
      let credit := if gap then l.credit else l.credit.set c (l.credit.getD c 0 - (cell.wire : Int))
      let s := s.setLink p { l with credit := credit, tx := some { cell := cell, awaits := false, inPort := 3 } }
      let s := (s.bump (F.RGp_TXCELL_COUNT p)).bump (F.RGp_INSERT_COUNT p)
      let s := if gap then s.bump (F.RGp_GAPINS_COUNT p) else s
      let s := if i.byFlow then
          { s with slath := { s.slath with
            flowA := s.slath.flowA + (if p = 0 then cell.wire else 0), flowB := s.slath.flowB + (if p = 0 then 0 else cell.wire) } }
        else s
      let s := s.refill p c cell.size s.now16 (s.rd (F.SW_QRATEn_q_RATE p c)) (s.rd (F.SW_QCFGn_q_BURST p c))
      (s.cellLeaves p cell (pool = .later)).freeItem p i

/-- The ready head of transit[c] leaves port p; a stored one is read from the pool (R186). -/
def State.sendPass (s : State) (p c : Nat) (pool : PoolRead) : State :=
  match transitReady (s.link p).transit c with
  | none => s
  | some t =>
    let l := s.link p
    let rest := dropFirst (fun x => x.cell.cls.toNat == c) l.transit
    if t.stored && pool = .first then ((s.setLink p { l with transit := rest, tx := none }).bump (F.SW_POISONn_COUNT p)).transitShow p
    else
      let s := s.setLink p { l with transit := rest, tx := some { cell := t.cell, awaits := t.awaits, inPort := t.inPort } }
      let s := (s.bump (F.RGp_TXCELL_COUNT p)).transitShow p
      let s := if t.stored then s else s.bump (F.SW_CTn_COUNT p)
      if t.awaits then s.emit (.cellHead p t.cell) else s.cellLeaves p t.cell (t.stored && pool = .later)

/-- A cell boundary of ring port p (R106): nothing while the port is out of UP or wrapped (R78, R133), or while a cut-through cell still
awaits its end. -/
def State.boundary (s : State) (p : Nat) (pool : PoolRead) : State :=
  if !s.isUp p || s.wrapped p then s
  else if (match (s.link p).tx with | some x => x.awaits | none => false) then s
  else
    let s := s.dropPoisoned p
    match s.pick p 8 with
    | .entitled c => s.sendLocal p c false pool
    | .pass c => s.sendPass p c pool
    | .gap c => s.sendLocal p c true pool
    | .nothing => s.setLink p { s.link p with tx := none }

/-! ### Choosing ring and route (R96, R130, R134) -/

/-- Position + 1 of a node in the adopted table; 0 for none. -/
def State.posOf (s : State) (node : Nat) : Nat := Tbl.get 0 node s.mem.table

/-- Hops to a node on ring A, if the position table gives them (R123). -/
def State.hopsA (s : State) (node : Nat) : Option Nat :=
  let size := s.rd F.RG_POS_SIZE
  let a := s.posOf node
  let o := s.posOf s.ownNode
  if s.on F.RG_POS_VALID && a != 0 && o != 0 && size != 0 then some ((a + size - o) % size) else none

/-- The ring R96 chooses for a cell and its target: ring B or not, and whether FLOW[0] chose it. -/
def State.ringFor (s : State) (c : Cell) (target : Nat) : Bool × Bool :=
  let byFlow := (c.flow.getLsbD 0, true)
  if c.mcast then byFlow
  else
    match s.hopsA target with
    | none => byFlow
    | some dA =>
      let dB := s.rd F.RG_POS_SIZE - dA
      if absDiff dA dB ≤ s.rd F.RG_SPREAD_MARGIN then byFlow else (decide (dB < dA), false)

/-- An ENUMERATE (R115). -/
def Cell.isEnum (c : Cell) : Bool := c.type == 7 && c.op == 3 && c.mcast

/-- A local cell for ring port p joins that port's queue; where the port is wrapped it leaves on the other, re-marked (R133), but an ENUMERATE
for a wrapped RPE goes no further and is counted (R118). With both ring ports out of UP it is discarded and counted (R134). Where p waits in
UP for its unwrap and the other port is out of UP, the cell waits at p for the end of the hold: the spec names no port for it (assumption 20). -/
def State.ringJoin (s : State) (p : Nat) (i : EItem) : State :=
  if !s.isUp 0 && !s.isUp 1 then (s.bump F.RG_WRAPLOST_COUNT).launchRef i.lti (-1)
  else if s.wrapped p then
    if p = 0 && i.cell.isEnum then (s.bump F.RG_ENUMLOST_COUNT).launchRef i.lti (-1)
    else if s.isUp (other p) then s.enqueue (other p) { i with body := .cell i.cell.turned }
    else s.enqueue p i
  else s.enqueue p i

/-- A local cell is inserted on a ring (R96), from the slath port it enters on. -/
def State.insertOn (s : State) (c : Cell) (ringB byFlow : Bool) (src : Nat) : State :=
  s.ringJoin (if ringB then 1 else 0) { mkItem (.cell { c with ring := ringB }) c.cls.toNat c.dp.toNat src 0 with byFlow := byFlow }

/-- A cell joins U's egress queue of its CLASS (R131). -/
def State.toUplink (s : State) (c : Cell) (src : Nat) : State := s.enqueue 2 (mkItem (.cell c) c.cls.toNat c.dp.toNat src 0)

/-- MODE of the route for a ring; MODE 3 for another ring than the own counts as 0 (R130). -/
def State.routeMode (s : State) (ring : Nat) : Nat :=
  let m := s.rd (F.RG_RTn_MODE ring)
  if m = 3 then 0 else m

/-- The target of R96 for a destination ring and node: itself on the own ring, the exit otherwise; none where there is no route over
this ring. -/
def State.targetOf (s : State) (dring dnode : Nat) : Option Nat :=
  if dring = s.ownRing then some dnode
  else if s.routeMode dring = 1 then some (s.rd (F.RG_RTn_EXIT dring))
  else none

/-- A destination is out of reach: another ring with MODE 0 (R130, R347). -/
def State.unreachable (s : State) (dring : Nat) : Bool := dring != s.ownRing && s.routeMode dring == 0

/-- Where a cell built at this node leaves (R29, R96, R130): at U; on a ring, and whether FLOW[0] chose it; or nowhere. -/
inductive Way where
  | up
  | ring (b byFlow : Bool)
  | none
  deriving DecidableEq, Repr

/-- The way of a cell; a retry gives the ring. -/
def State.way (s : State) (c : Cell) (force : Option Bool) : Way :=
  if !c.mcast && c.dring.toNat != s.ownRing && s.routeMode c.dring.toNat == 2 then .up
  else
    match (if c.mcast then some 0 else s.targetOf c.dring.toNat c.dnode.toNat), force with
    | none, _ => .none
    | some _, some b => .ring b false
    | some t, none => .ring (s.ringFor c t).1 (s.ringFor c t).2

/-- A cell whose FLOW is set leaves, entering the slath on port src. Answers the ring used too. -/
def State.sendBuilt (s : State) (c : Cell) (force : Option Bool) (src : Nat) : State × Bool :=
  match s.way c force with
  | .up => (s.toUplink c src, false)
  | .none => (s.bump F.RG_NOROUTE_COUNT, false)
  | .ring b f => (s.insertOn c b f src, b)

/-- The source builds a cell, setting its FLOW once (R95), and sends it. -/
def State.send (s : State) (c : Cell) (force : Option Bool) (src : Nat) : State × Bool :=
  let (s, c) := s.withFlow c
  s.sendBuilt c force src

/-! ### Wrap and unwrap (R133 to R137) -/

/-- Moved transit cells join the other port's transit one by one. An ENUMERATE that would be turned at RPE is removed and counted instead
(R118). A cell with WRAPS = 2 moves too, becoming WRAPS 3: R133 moves every cell of the region, and row 7 of R103 speaks of an arriving cell;
that reading is the model's (assumption 20). -/
def State.moveTransit (s : State) (q : Nat) : List TCell → State
  | [] => s
  | t :: ts =>
    State.moveTransit
      (if q = 1 && t.cell.isEnum then s.bump F.RG_ENUMLOST_COUNT
       else s.transitAdd q { t with cell := t.cell.turned, stored := true, ready := !t.awaits }) q ts

/-- A queued local cell moves from the queues of port p to those of port q, with the pool cells it holds. -/
def State.moveLocal (s : State) (p q : Nat) : List EItem → State
  | [] => s
  | i :: is =>
    State.moveLocal
      (if p = 0 && i.cell.isEnum then (s.bump F.RG_ENUMLOST_COUNT).freeItem p i
       else
        let s := { s with slath := { s.slath with
          ded := Tbl.put 0 p (Tbl.get 0 p s.slath.ded - i.ded) s.slath.ded, shr := Tbl.put 0 p (Tbl.get 0 p s.slath.shr - i.shr) s.slath.shr } }
        let s := { s with slath := { s.slath with
          ded := Tbl.put 0 q (Tbl.get 0 q s.slath.ded + i.ded) s.slath.ded, shr := Tbl.put 0 q (Tbl.get 0 q s.slath.shr + i.shr) s.slath.shr } }
        let s := (s.poolSync p).poolSync q
        s.setOut q { s.outOf q with items := (s.outOf q).items ++ [{ i with body := .cell i.cell.turned }] }) p q is

/-- A cell that port p was receiving ends here: what of it waits at the other port is dropped, and if it has begun to leave there it is
stomped (R101). -/
def State.abandonRx (s : State) (p q : Nat) : State :=
  let l := s.link q
  let rest := l.transit.filter fun t => !(t.awaits && t.inPort == p)
  match l.tx with
  | some x =>
    if x.awaits && x.inPort == p then
      ((s.setLink q { l with transit := rest, tx := some { x with awaits := false } }).bump (F.SW_STOMPn_COUNT q)).emit (.cellTail q x.cell true)
    else (s.setLink q { l with transit := rest }).transitShow q
  | none => (s.setLink q { l with transit := rest }).transitShow q

/-- The node wraps at ring port p: what its queues and transit hold moves to the other port, re-marked; the cell it was sending and the one
it was receiving are lost. A cell that the other port is still receiving for it is stored there from now on. With the other port out of UP
too the moved cells are discarded and counted. -/
def State.wrapAt (s : State) (p : Nat) : State :=
  let q := other p
  let l := s.link p
  let local' := (s.outOf p).items
  let transit := l.transit.filter fun t => !(t.awaits && t.inPort == p)
  let lost := (if l.tx.isSome then 1 else 0) + (if l.rx.isSome then 1 else 0)
  let s := s.bumpBy F.RG_WRAPLOST_COUNT lost
  let s := if s.wrapped p then s else ((s.setWrapped p 1).bump F.RG_WRAPS_COUNT).ringEvent 3 (p + 4) 0 0
  let s := if l.rx.isSome then s.abandonRx p q else s
  let s := (s.setLink p { l with transit := [], tx := none, rx := none, holding := false, pulsed := false }).transitShow p
  let s := s.setOut p { s.outOf p with items := [] }
  if s.isUp q then
    let s := s.setLink q { s.link q with rx := (s.link q).rx.map fun r => if r.outPort = p then { r with outPort := q } else r }
    (s.moveTransit q transit).moveLocal p q local'
  else State.dropItems (s.bumpBy F.RG_WRAPLOST_COUNT transit.length) p F.RG_WRAPLOST_COUNT local'

/-- The port unwraps (R137, R138). -/
def State.unwrapAt (s : State) (p : Nat) : State :=
  ((s.setLink p { s.link p with holding := false }).setWrapped p 0).ringEvent 3 p 0 0

/-- PLL_T's source after a change of a ring port's state (R237): at the root REFCLK, elsewhere the clock recovered at RPW, at RPE, or
REFCLK. -/
def State.clockUpdate (s : State) : State :=
  let src := if s.on F.RG_ROLE_ROOT then 0 else if s.isUp 1 then 1 else if s.isUp 0 then 2 else 0
  { s with tm := { s.tm with clockSrc := src } }

/-! ### Commands: rounds, boundaries, unwrap -/

/-- CELL_BOUNDARY (R106). -/
def execCellBoundary (p : PortR) (pool : PoolRead) (s : State) : Host.Outcome State Fault Refusal := .next (s.boundary p.val pool)

/-- QUOTA of a class (R105). -/
def State.quota (s : State) (p c : Nat) : Nat := if c % 2 = 0 then s.rd (F.RGp_QUOTAi_LOW p (c / 2)) else s.rd (F.RGp_QUOTAi_HIGH p (c / 2))

/-- A ring port's credits at a round start (R105). -/
def State.refillCredits (s : State) (p : Nat) : State :=
  let l := s.link p
  s.setLink p { l with credit := (List.range 8).map fun c => min (l.credit.getD c 0 + (s.quota p c : Int)) (s.quota p c : Int) }

/-- The next site time whose ns field is a multiple of the round period, or the carry into seconds (R104), in ns. -/
def State.nextRound (s : State) : Nat :=
  let per := s.rd F.RG_ROUND_PERIOD * 1000
  if per = 0 then s.nowNs
  else s.nowNs - s.ns + min ((s.ns / per + 1) * per) secNs

/-- ROUND_START (R104, R105): local time reaches the next round and both ring ports refill. -/
def execRoundStart (s : State) : Host.Outcome State Fault Refusal :=
  let s := s.ticks ((s.nextRound * nsUnit - s.clock.site + s.tickStep - 1) / s.tickStep)
  .next ((s.refillCredits 0).refillCredits 1)

/-- UNWRAP_HOLD_END (R137): the hold wins. -/
def execUnwrapHoldEnd (p : PortR) (s : State) : Host.Outcome State Fault Refusal :=
  .next (if (s.link p.val).holding then (s.wr F.RG_WRAP_HOLDOUT 1).unwrapAt p.val else s)

end Sys2Proof.Machine
end

