-- ==== Sys2Proof/Machine/Links.lean ====
section
/-! DEFINITION. The links: states, keepalive, optics, and the handling of an arriving cell's header and trailer (chapter 03). -/

namespace Sys2Proof.Machine

/-! ### Sending an ENUMERATE (R117) -/

/-- An ENUMERATE leaves on ring A from RPE with GEN one above the sender's last; its return is awaited (R115, R117, R120). -/
def State.enumSend (s : State) : State :=
  let gen := (s.mem.sentGen + 1) % 65536
  let s := { s with mem := { s.mem with
    sentGen := gen, awaiting := true, building := false, reports := 0, built := Tbl.put 0 0 1 [], seen := [], sentTable := false } }
  let s := s.wr F.RG_ENUM_GEN gen
  let pay := beBytes gen 2 ++ beBytes (s.rd F.RG_POS_POS) 2 ++ beBytes 0 4 ++ beBytes s.otp.fusedId 8
  let (s, c) := s.withFlow (s.mkBroadcast 3 pay)
  s.insertOn c false false 19

/-! ### States (R78, R79, R81) -/

/-- STATE changes; a change to FAULT or UP writes a ring event (R79). -/
def State.setLinkState (s : State) (p st : Nat) : State :=
  let s := s.wr (F.RGp_LSTAT_STATE p) st
  if st = 4 || st = 5 then s.ringEvent 1 (p + st * 4 + s.rd (F.RGp_LSTAT_CAUSE p) * 256) 0 0 else s

/-- What leaving UP does: a ring port wraps, and a hold in progress is lost to the fault (R133, R137); U's link falls (R201); PLL_T looks
for its source (R237). -/
def State.leaveUp (s : State) (p : Nat) : State :=
  if s.isUp p then
    if p = 2 then
      (s.setLink 2 { s.link 2 with pulsed := false, rx := none }).linkLost 2
    else
      let s := if (s.link p).holding then s.wr F.RG_WRAP_HOLDOUT 2 else s
      s.wrapAt p
  else s

/-- The port enters ACQUIRE: RATE and FEC are latched (R76, R78). -/
def State.toAcquire (s : State) (p : Nat) : State :=
  let s := (s.wr (F.RGp_LSTAT_RATEACT p) (s.rd (F.RGp_CTL_RATE p))).wr (F.RGp_LSTAT_FECACT p) (s.rd (F.RGp_CTL_FEC p))
  ((s.wr (F.RGp_LSTAT_SIGNAL p) 0).wr (F.RGp_LSTAT_BLOCK p) 0).setLinkState p 1

/-- The port declares a fault: FAULT with its cause, counted, LINKDOWN sent once; what leaving UP does follows (R78, R81 to R83). -/
def State.toFault (s : State) (p cause : Nat) : State :=
  let was := s.isUp p
  let s := (s.wr (F.RGp_LSTAT_CAUSE p) cause).bump (F.RGp_FAULTS_COUNT p)
  let s := s.emit (.cell p (linkCell 7 7 2 []))
  if was then ((s.leaveUp p).setLinkState p 5).clockUpdate else s.setLinkState p 5

/-- The port goes to DOWN, from UP or GREET with LINKDOWN and cause 6 (R78). -/
def State.toDown (s : State) (p : Nat) : State :=
  let st := s.linkState p
  let s := if st = 4 || st = 3 then (s.wr (F.RGp_LSTAT_CAUSE p) 6).emit (.cell p (linkCell 7 7 2 [])) else s
  ((s.leaveUp p).setLinkState p 0).clockUpdate

/-- The port reaches UP: MISWIRED clears, U's link comes up, the root with both ring ports in UP sends an ENUMERATE (R78, R117). -/
def State.toUp (s : State) (p : Nat) : State :=
  let s := (s.wr (F.RGp_LSTAT_MISWIRED p) 0).setLinkState p 4
  let s := s.setLink p { s.link p with pulsed := false }
  let s := if p = 2 then s.linkBack 2 else s.clockUpdate
  if p != 2 && s.on F.RG_ROLE_ROOT && s.isUp 0 && s.isUp 1 then s.enumSend else s

/-- RETRAIN (R78): no effect while ENABLE = 0. -/
def State.linkRetrain (s : State) (p : Nat) : State := if s.on (F.RGp_CTL_ENABLE p) then (s.toDown p).toAcquire p else s

/-- ENABLE has been written, `was` before (R78): from 0 to 1 it moves the port from DOWN to ACQUIRE; 0 takes it down. -/
def State.linkEnable (s : State) (was : Bool) (p : Nat) : State :=
  if s.on (F.RGp_CTL_ENABLE p) then if s.linkState p = 0 && !was then s.toAcquire p else s
  else if s.linkState p = 0 then s else s.toDown p

/-! ### Commands: bringing a link up -/

/-- CLOCK_LOCK: the SerDes clock runs (R383). -/
def execClockLock (p : PortU) (s : State) : Host.Outcome State Fault Refusal :=
  .next (if s.linkState p.val = 1 && s.clocked 1 then (s.wr (F.RGp_LSTAT_SIGNAL p.val) 1).setLinkState p.val 2 else s)

/-- ACQ_TIMEOUT: the port restarts ACQUIRE. -/
def execAcqTimeout (p : PortU) (s : State) : Host.Outcome State Fault Refusal :=
  .next (if s.linkState p.val = 1 then s.toAcquire p.val else s)

/-- BLOCK_LOCK. -/
def execBlockLock (p : PortU) (s : State) : Host.Outcome State Fault Refusal :=
  .next (if s.linkState p.val = 2 then
      let s := s.setLink p.val { s.link p.val with miswired := false }
      (s.wr (F.RGp_LSTAT_BLOCK p.val) 1).setLinkState p.val 3
    else s)

/-- LOCK_TIMEOUT: no lock within 1 ms, or signal lost. -/
def execLockTimeout (p : PortU) (s : State) : Host.Outcome State Fault Refusal :=
  .next (if s.linkState p.val = 2 then s.toAcquire p.val else s)

/-- HEARD of R90: an acceptable HELLO within the last 30 µs (15,000 ticks). -/
def State.heard (s : State) (p : Nat) : Bool :=
  match (s.link p).heardAt with
  | some t => decide (s.clock.tick - t ≤ 15000)
  | none => false

/-- The HELLO a port sends (R90). -/
def State.helloCell (s : State) (p : Nat) : Cell :=
  linkCell 7 7 1 (beBytes p 1 ++ beBytes (b2n s.isAssigned + 2 * b2n (s.heard p)) 1
    ++ beBytes (if s.isAssigned then s.ownRing * 4096 + s.ownNode else 0) 2 ++ beBytes s.otp.fusedId 8 ++ beBytes 0 4)

/-- HELLO_SEND: in GREET, and in UP until the first PULSE. -/
def execHelloSend (p : PortU) (s : State) : Host.Outcome State Fault Refusal :=
  .next (if s.linkState p.val = 3 || (s.linkState p.val = 4 && !(s.link p.val).pulsed) then s.emit (.cell p.val (s.helloCell p.val)) else s)

/-- The PORT that should face a receiver: RPE faces RPW, U faces U (R78). -/
def facing (p : Nat) : Nat := if p = 0 then 1 else if p = 1 then 0 else 2

/-- A link-local cell is taken from the cells delivered. -/
def State.takeCell (s : State) (c : Cell) : State := { s with inbox := dropFirst (fun x => x.2 == c) s.inbox }

/-- The peer registers take a HELLO's identity and address (R78, R90). -/
def State.peerFrom (s : State) (p : Nat) (pay : List Byte) : State :=
  let s := (s.wr (F.RGp_PEERH_IDENT p) (beAt pay 4 4)).wr (F.RGp_PEERL_IDENT p) (beAt pay 8 4)
  (s.wr (F.RGp_PEERADR_ADDR p) (beAt pay 2 2)).wr (F.RGp_PEERADR_ASSIGNED p) (beAt pay 1 1 % 2)

/-- HELLO (R78, R79, R90). After one that named a wrong port the port stays in GREET until the timeout. -/
def execHello (p : PortU) (c : Cell) (s : State) : Host.Outcome State Fault Refusal :=
  let s := s.takeCell c
  let pay := c.payload
  let good := beAt pay 0 1 == facing p.val
  .next (if s.linkState p.val = 3 then
      if good then
        let s := (s.setLink p.val { s.link p.val with heardAt := some s.clock.tick }).peerFrom p.val pay
        if beAt pay 1 1 / 2 % 2 = 1 && !(s.link p.val).miswired && s.clocked 1 then s.toUp p.val else s
      else
        let s := s.setLink p.val { s.link p.val with miswired := true }
        if s.on (F.RGp_LSTAT_MISWIRED p.val) then s
        else (s.wr (F.RGp_LSTAT_MISWIRED p.val) 1).ringEvent 2 p.val (beAt pay 8 4) (beAt pay 4 4)
    else if s.linkState p.val = 4 then
      (if good then s.setLink p.val { s.link p.val with heardAt := some s.clock.tick } else s).peerFrom p.val pay
    else s)

/-- GREET_TIMEOUT: FAULT with cause 7. -/
def execGreetTimeout (p : PortU) (s : State) : Host.Outcome State Fault Refusal :=
  .next (if s.linkState p.val = 3 then s.toFault p.val 7 else s)

/-! ### Commands: keepalive and faults (R80 to R83) -/

/-- PULSE_SEND. -/
def execPulseSend (p : PortU) (s : State) : Host.Outcome State Fault Refusal :=
  .next (if s.isUp p.val then s.emit (.cell p.val (linkCell 7 7 0 [])) else s)

/-- PULSE: it wins the keepalive race in UP, the first one starting a ring port's unwrap hold; in FAULT it is late (R82, R137). -/
def execPulse (p : PortU) (s : State) : Host.Outcome State Fault Refusal :=
  let s := s.takeCell (linkCell 7 7 0 [])
  .next (if s.isUp p.val then
      let s := s.wr (F.RGp_LSTAT_KAOUT p.val) 1
      let l := s.link p.val
      if l.pulsed then s else s.setLink p.val { l with pulsed := true, holding := p.val != 2 && s.wrapped p.val }
    else if s.linkState p.val = 5 then s.bump (F.RGp_LATE_COUNT p.val)
    else s)

/-- KEEPALIVE_TIMEOUT: fault with cause 1 (R82). -/
def execKeepaliveTimeout (p : PortU) (s : State) : Host.Outcome State Fault Refusal :=
  .next (if s.isUp p.val then (s.wr (F.RGp_LSTAT_KAOUT p.val) 2).toFault p.val 1 else s)

/-- CAUSE of a loss (R110). -/
def lossCode : LossCause → Nat
  | .signal => 2
  | .lock => 3
  | .highBer => 4

/-- LINK_FAULT_DETECTED (R81). -/
def execLinkFaultDetected (p : PortU) (cause : LossCause) (s : State) : Host.Outcome State Fault Refusal :=
  .next (if s.isUp p.val then
      let s := if cause = .signal then s.wr (F.RGp_LSTAT_SIGNAL p.val) 0 else s
      let s := if cause = .highBer then s else s.wr (F.RGp_LSTAT_BLOCK p.val) 0
      s.toFault p.val (lossCode cause)
    else s)

/-- LINKDOWN: FAULT with cause 5 (R81). -/
def execLinkdown (p : PortU) (s : State) : Host.Outcome State Fault Refusal :=
  let s := s.takeCell (linkCell 7 7 2 [])
  .next (if s.isUp p.val then s.toFault p.val 5 else s)

/-- HOLDOFF_END: ACQUIRE under autonomous policy, DOWN under directed (R78, R444). -/
def execHoldoffEnd (p : PortU) (s : State) : Host.Outcome State Fault Refusal :=
  .next (if s.linkState p.val = 5 then
      if s.on F.NC_MODE_POLICY || !s.on (F.RGp_CTL_ENABLE p.val) then s.setLinkState p.val 0 else s.toAcquire p.val
    else s)

/-! ### Commands: optics (R84 to R86) -/

/-- OPTICS_POLL: A2h bytes 96 to 105, or a read that did not complete. -/
def execOpticsPoll (p : PortR) (data : Option (List Byte)) (s : State) : Host.Outcome State Fault Refusal :=
  .next (match data with
    | none => s.wr (F.RGp_OPT2_VALID p.val) 0
    | some b =>
      let s := (s.wr (F.RGp_OPT0_TEMP p.val) (beAt b 0 2)).wr (F.RGp_OPT0_VCC p.val) (beAt b 2 2)
      let s := (s.wr (F.RGp_OPT2_TXBIAS p.val) (beAt b 4 2)).wr (F.RGp_OPT1_TXPWR p.val) (beAt b 6 2)
      (s.wr (F.RGp_OPT1_RXPWR p.val) (beAt b 8 2)).wr (F.RGp_OPT2_VALID p.val) 1)

/-- The raw access that the register describes starts (R85). -/
def State.i2cStart (s : State) (p : Nat) : State :=
  (s.wr (F.RGp_I2C_BUSY p) 1).emit (.i2c p (if s.on (F.RGp_I2C_DEV p) then 0xA2 else 0xA0) (s.rd (F.RGp_I2C_ADDR p)) (s.on (F.RGp_I2C_WR p))
    (s.rd (F.RGp_I2C_WDATA p)))

/-- I2C_TRANSFER_DONE. -/
def execI2cTransferDone (p : PortR) (ack : Bool) (data : Byte) (s : State) : Host.Outcome State Fault Refusal :=
  .next (if s.on (F.RGp_I2C_BUSY p.val) then
      let s := (s.wr (F.RGp_I2C_BUSY p.val) 0).wr (F.RGp_I2C_ERR p.val) (if ack then 0 else 1)
      if ack && !s.on (F.RGp_I2C_WR p.val) then s.wr (F.RGp_I2CDAT_RDATA p.val) data.toNat else s
    else s)

/-- I2C_STRETCH_TIMEOUT: the transfer is lost, ended with a stop condition, and ERR is set (R85). -/
def execI2cStretchTimeout (p : PortR) (s : State) : Host.Outcome State Fault Refusal :=
  .next (if s.on (F.RGp_I2C_BUSY p.val) then (s.wr (F.RGp_I2C_BUSY p.val) 0).wr (F.RGp_I2C_ERR p.val) 1 else s)

/-- MODULE_SIGNAL: the module's pins are reported; loss of signal is a fault cause in UP (R86). -/
def execModuleSignal (p : PortR) (present los txFault : Bool) (s : State) : Host.Outcome State Fault Refusal :=
  let s := (s.wr (F.RGp_LSTAT_MODPRES p.val) (b2n present)).wr (F.RGp_LSTAT_MODLOS p.val) (b2n los)
  let s := s.wr (F.RGp_LSTAT_MODTXF p.val) (b2n txFault)
  .next (if los && s.isUp p.val then s.toFault p.val 2 else s)

/-! ### Arriving cells (R97 to R103) -/

/-- The node is a member of a multicast group (R182): of 4,095 whenever it is assigned. -/
def State.member (s : State) (g : Nat) : Bool := if g = 4095 then s.isAssigned else s.on (F.SW_GRPg_MEMBER g)

/-- A broadcast the hub reads while it forwards it: ENUMERATE, ASSIGN, POSTABLE and DUPCHECK (R116), and SYNC (R235). -/
def Cell.isRead (c : Cell) : Bool :=
  c.mcast && ((c.type == 7 && (c.op == 3 || c.op == 5 || c.op == 8 || c.op == 9)) || (c.type == 5 && c.op == 0))

/-- The row of R103 that takes a pass-through cell at a ring port, the counter it adds to, and (row 8, 9) the output. A node without a
number uses rows 1, 2, 3 and 9 (R30). -/
def State.removalRow (s : State) (p : Nat) (c : Cell) : RxDisp × Option Fld :=
  let out := other p
  let own := s.isAssigned && c.sring.toNat == s.ownRing && c.snode.toNat == s.ownNode
  if s.isAssigned && !c.mcast && c.dring.toNat == s.ownRing && c.dnode.toNat == s.ownNode then (.deliver, none)
  else if s.isAssigned && !c.mcast && c.dring.toNat != s.ownRing && s.routeMode c.dring.toNat == 2 then (.toUplink, none)
  else if own then
    if c.mcast then (if c.type == 7 && (c.op == 3 || c.op == 9) then .deliver else .removed, none)
    else (.removed, some (F.RGp_NODEST_COUNT p))
  else if s.isAssigned && (decide (s.rd F.RG_HOPLIM_LIMIT ≤ c.hops.toNat) || (s.wrapped out && c.wraps == 2)) then
    (.removed, some (F.RGp_HOPDROP_COUNT p))
  else if p = 1 && c.type == 7 && c.op == 3 && c.mcast && s.wrapped out then (.deliver, some F.RG_ENUMLOST_COUNT)
  else if (s.isAssigned && c.mcast && s.member c.dnode.toNat) || c.isRead then (.copyForward, none)
  else (.forward, none)

/-- A pass-through cell joins the transit of its output: cut-through if every condition of R98, R178 and R179 holds now, else stored. One
that the node copies too (row 8) is stored (R178). -/
def State.passThrough (s : State) (p : Nat) (c : Cell) (copied : Bool) : State × Nat :=
  let turn := s.wrapped (other p)
  let q := if turn then p else other p
  let c := if turn then c.turned else { c with hops := c.hops + 1 }
  let cut : TCell := { cell := c, ready := true, stored := false, awaits := true, inPort := p }
  let try1 := s.setLink q { s.link q with transit := (s.link q).transit ++ [cut] }
  let free := !s.on (F.RGp_CTL_CHECKED p) && !copied && !turn && !s.wrapped q && (s.link q).tx.isNone && s.isUp q &&
    (s.link q).transit.all (fun t => t.cell.cls != c.cls) && decide (try1.pick q 8 = .pass c.cls.toNat)
  if free then (try1, q) else (s.transitAdd q { cut with ready := false, stored := true }, q)

/-- CELL_HEADER (R101 to R103, R107). -/
def execCellHeader (p : PortU) (w0 w1 w2 w3 w4 w5 : Word) (s : State) : Host.Outcome State Fault Refusal :=
  let c := cellOfWords w0 w1 w2 w3 w4 w5
  let q := p.val
  let set (s : State) (d : RxDisp) (out : Nat) : State := s.setLink q { s.link q with rx := some { hdr := c, disp := d, outPort := out } }
  let count (s : State) (f : Option Fld) : State := match f with | some f => s.bump f | none => s
  .next (if !s.isUp q && s.linkState q != 3 then s
    else if c.hec != w5.extractLsb' 0 16 then set (s.bump (F.RGp_HECERR_COUNT q)) .discard q
    else
      let s := if c.link then s else s.bump (F.RGp_RXCELL_COUNT q)
      if !c.headOk then set (s.bump (F.RGp_BADCELL_COUNT q)) .discard q
      else if c.link then set s .deliver q
      else if !s.isUp q then set s .discard q
      else if q = 2 then set s .fromUplink q
      else
        let (d, f) := s.removalRow q c
        let s := count s f
        if d = .forward || d = .copyForward then
          let (s, out) := s.passThrough q c (d = .copyForward)
          set s d out
        else set s d q)

/-- The trailer's verdict on a cell (R97, R101, R102). -/
inductive Verdict where
  | good | crcBad | stomped | lenBad
  deriving DecidableEq, Repr

/-- What the end of a cell shows: the error end marker or POISON, a wrong length, a failed trailer. A cell with several of them is counted
for the first in that order alone: R97, R101 and R102 give no order, so this one is the model's choice (assumption 20). -/
def verdict (c : Cell) (crc : Word) (errorEnd : Bool) : Verdict :=
  if errorEnd || c.poison then .stomped
  else if c.payload.length != c.len.toNat then .lenBad
  else if c.trailer != crc then .crcBad
  else .good

/-- The transit entries of a port with the one that awaited its end now whole and ready. -/
def endTransit (inPort : Nat) (pay : List Byte) : List TCell → List TCell
  | [] => []
  | t :: ts =>
    if t.awaits && t.inPort == inPort then { t with cell := { t.cell with payload := pay }, awaits := false, ready := true } :: ts
    else t :: endTransit inPort pay ts

/-- The end of a forwarded cell at an output: a stored one becomes ready or, found bad, is dropped; a cut-through one that has begun to
leave ends, stomped if bad. Answers whether the cell had begun. -/
def State.endForward (s : State) (inPort q : Nat) (pay : List Byte) (good : Bool) : State × Bool :=
  let l := s.link q
  let keep := if good then endTransit inPort pay l.transit else dropFirst (fun t => t.awaits && t.inPort == inPort) l.transit
  match l.tx with
  | some x =>
    if x.awaits && x.inPort == inPort then
      let c := { x.cell with payload := pay }
      let s := s.setLink q { l with tx := some { x with cell := c, awaits := false } }
      let s := if good then s else s.bump (F.SW_STOMPn_COUNT q)
      (s.emit (.cellTail q c (!good)), true)
    else ((s.setLink q { l with transit := keep }).transitShow q, false)
  | none => ((s.setLink q { l with transit := keep }).transitShow q, false)

/-- FEC blocks that Clause 74 corrected, and those it could not, since the last cell: counted while the port runs with FEC (R75, R110). -/
def State.fecCount (s : State) (p cor unc : Nat) : State :=
  if s.on (F.RGp_LSTAT_FECACT p) then (s.bumpBy (F.RGp_FECCOR_COUNT p) cor).bumpBy (F.RGp_FECUNC_COUNT p) unc else s

/-- CELL_TRAILER (R97, R99, R101, R102). -/
def execCellTrailer (p : PortU) (payload : List Byte) (crc : Word) (errorEnd : Bool) (fecCor fecUnc : Byte) (s : State) :
    Host.Outcome State Fault Refusal :=
  let q := p.val
  let s := s.fecCount q fecCor.toNat fecUnc.toNat
  .next (match (s.link q).rx with
    | none => s
    | some r =>
      let s := s.setLink q { s.link q with rx := none }
      if r.disp = .discard then s
      else
        let c := { r.hdr with payload := payload }
        let v := verdict c crc errorEnd
        let fwd := r.disp = .forward || r.disp = .copyForward
        let dlv := r.disp != .forward && r.disp != .removed
        let (s, begun) := if fwd then s.endForward q r.outPort payload (v = .good) else (s, false)
        match v with
        | .good =>
          if r.disp = .toUplink then s.toUplink c q
          else if dlv then { s with inbox := s.inbox ++ [(q, c)] }
          else s
        | .stomped => s.bump (F.RGp_RXSTOMP_COUNT q)
        | .lenBad => s.bump (F.RGp_BADCELL_COUNT q)
        | .crcBad => if dlv || (fwd && !begun) then s.bump (F.RGp_CRCERR_COUNT q) else s)

end Sys2Proof.Machine
end

