-- ==== Sys2Proof/Machine/Tally.lean ====
section
/-! DEFINITION. Rights of management sources (R52) and the making of tally entries (R438 to R440). -/

namespace Sys2Proof.Machine

/-! ### Rights (R51, R52, R69) -/

/-- The union of the rights of every record that matches. -/
def unionRights : List MgSource → (MgSource → Bool) → Nat
  | [], _ => 0
  | m :: ms, f => (if f m then m.rights else 0) ||| unionRights ms f

/-- The rights of a source: every right for MC0, MC1 and S; the records of the image for the LXB and the ring; bare, node 0 of the hub's
own ring has every right (R69). -/
def State.rightsOf (s : State) (src : Src) : Nat :=
  match src with
  | .mc0 => 31
  | .mc1 => 31
  | .s => 31
  | .lxb =>
    match s.weave with
    | none => 0
    | some w => unionRights w.sources fun m => m.ring == 255 && m.node == 0
  | .ring r n =>
    match s.weave with
    | none => if r.toNat = s.ownRing && n.toNat = 0 then 31 else 0
    | some w => unionRights w.sources fun m => m.ring == r.toNat && (m.node == n.toNat || m.node == 0xFFFF)

/-- A source holds a right: 0 read, 1 write, 2 commands, 3 firmware, 4 debug (R51). -/
def State.hasRight (s : State) (src : Src) (bit : Nat) : Bool := bitsOf (s.rightsOf src) bit 1 == 1

/-! ### Tally entries -/

/-- SOURCE of a tally entry and its LOCAL flag (R438). -/
def srcField : Src → Nat × Nat
  | .ring r n => (r.toNat * 4096 + n.toNat, 0)
  | .lxb => (0, 1)
  | .mc0 => (1, 1)
  | .mc1 => (2, 1)
  | .s => (3, 1)

/-- The sequence number the next entry takes is inside a reserved block; with a store a new block of 256 is recorded first (R440). -/
def State.reserveSeq (s : State) : State :=
  if s.on F.TL_STORE_PRESENT && decide (s.store.reserved < s.mg.nextSeq) then
    { s with store := { s.store with reserved := s.mg.nextSeq / 256 * 256 + 255 } }
  else s

/-- An entry is made with the next sequence number: kept on chip (the last 1,024), due for the store where there is one; an urgent one
gives a management event and a notice (R438, R440). `flags` without LOCAL and UNSYNCED, which are filled in. A standby in a run can record no
block of numbers in the store, which it only reads (R409), so it makes no entries (assumption 54). -/
def State.tallyAdd (s : State) (src : Src) (code result flags digest detail : Nat) : State :=
  if s.mt.run != 0 then s
  else
  let s := s.reserveSeq
  let (source, loc) := srcField src
  let seq := s.mg.nextSeq
  let uns := if s.rd F.TM_DSTAT_STATE = 2 then 0 else 16
  let e : TEntry :=
    { seq := seq, sec := s.sec, ns := s.ns, source := source, code := code, result := result, flags := flags + loc + uns, digest := digest,
      detail := detail }
  let s := { s with mg := { s.mg with
    tally := (e :: s.mg.tally).take 1024, nextSeq := seq + 1,
    toStore := if s.on F.TL_STORE_PRESENT then s.mg.toStore ++ [seq] else s.mg.toStore } }
  if flags / 2 % 2 = 1 then (s.mgmtEvent 4 code (seq % 2 ^ 32) (seq / 2 ^ 32)).notice 2 seq else s

/-- An internal entry (R439): INTERNAL set, DIGEST as given. -/
def State.tallyInternal (s : State) (src : Src) (code result : Nat) (urgent : Bool) (digest detail : Nat) : State :=
  s.tallyAdd src code result (8 + (if urgent then 2 else 0)) digest detail

/-- Newest sequence number (TL_HEAD). -/
def State.tallyHead (s : State) : Nat := s.mg.nextSeq - 1

/-- Oldest entry readable (TL_TAIL): of the last 65,536 with a store, of those on chip without one. -/
def State.tallyTail (s : State) : Nat :=
  if s.on F.TL_STORE_PRESENT then max 1 (s.mg.nextSeq - 65536)
  else match s.mg.tally.getLast? with
    | some e => e.seq
    | none => 0

end Sys2Proof.Machine
end

