-- ==== Sys2Proof/Machine/Complete.lean ====
section
/-! DEFINITION. How a request of this hub's own ends: the answer to the master, the delayed-read slot, the posted-error log (R152, R168,
R169, R173, R322). -/

namespace Sys2Proof.Machine

/-- STATUS (R152). -/
def Status.code : Status → Nat
  | .ok => 0
  | .addrErr => 1
  | .refused => 2
  | .locked => 3
  | .claimed => 4
  | .lxbErr => 5
  | .lxbWait => 6
  | .poison => 7
  | .badOp => 0x0A
  | .timeout => 0x10
  | .restarted => 0x11
  | .unreachable => 0x12
  | .noRoute => 0x12
  | .busy => 0x0A

/-- The STATUS of a response as a master sees it. -/
def statusOf (n : Nat) : Status :=
  match n with
  | 0 => .ok
  | 1 => .addrErr
  | 2 => .refused
  | 3 => .locked
  | 4 => .claimed
  | 5 => .lxbErr
  | 6 => .lxbWait
  | 7 => .poison
  | _ => .badOp

/-- The lowest free entry of the posted-error log. -/
def State.perrFree (s : State) : Option Nat := (List.range 16).find? fun e => !s.on (F.BX_PERRe_SRC_VALID e)

/-- A failure enters the posted-error log, or is counted where the log is full; the event and ISTAT follow in both cases (R168, R169). `src`
as BX_PERRe_SRC gives it, CS included. An event without an entry names none the spec states: a free value. -/
def State.perrLog (s : State) (addr src count beat cause status : Nat) : State :=
  let info := count % 128 + beat % 32 * 2 ^ 8 + cause % 8 * 2 ^ 13 + status % 256 * 2 ^ 16
  match s.perrFree with
  | some e =>
    let s := (s.setReg (F.BX_PERRe_ADDR_ADDR e).key (BitVec.ofNat 32 addr)).setReg (F.BX_PERRe_SRC_NODE e).key (BitVec.ofNat 32 (src + 2 ^ 31))
    let s := s.setReg (F.BX_PERRe_INFO_COUNT e).key (BitVec.ofNat 32 info)
    let s := (s.wr (F.BX_PERRe_TSEC_SEC e) s.sec).wr (F.BX_PERRe_TNS_NS e) s.ns
    (s.wr F.BX_ISTAT_PERR 1).event 4 1 e addr info
  | none =>
    let s := (s.bump F.BX_PERRLOST_COUNT).wr F.BX_ISTAT_PERRLOST 1
    (s.event 4 1 (s.freeW.toNat % 16) addr info).used

/-- A far write that was sent and is answered with a status other than OK: cause 4; ERRORED of its far window (R168). -/
def State.farFail (s : State) (n addr count : Nat) (st : Status) : State :=
  (s.wr (F.BX_FARn_CFG_ERRORED n) 1).perrLog addr (2 ^ 16 + n * 2 ^ 19) count 0 4 st.code

/-- A far write that could not be sent: cause 5 (R168, R172). -/
def State.farUnsent (s : State) (n addr count : Nat) : State :=
  (s.wr (F.BX_FARn_CFG_ERRORED n) 1).perrLog addr (2 ^ 16 + n * 2 ^ 19) count 0 5 0

/-- An IN response on endpoint 0x81 (R322). -/
def bulkBytes (m : BulkMsg) (st : Status) (data : List Byte) : List Byte :=
  leBytes (m.op + 128) 1 ++ leBytes st.code 1 ++ leBytes data.length 2 ++ leBytes m.tag 4 ++ leBytes 0 8 ++ data

/-- The answer to the bulk request in progress on S, unless a reset has since made it one to discard; the next may start (R322, R330). -/
def State.bulkAnswer (s : State) (st : Status) (data : List Byte) : State :=
  match s.usb.busy with
  | none => s
  | some (m, discard) =>
    let s := { s with usb := { s.usb with busy := none } }
    if discard then s
    else s.emit (.usbBulk (bulkBytes m st data))

/-- The result of a delayed read comes to its slot: held, and the discard timer starts; a slot emptied meanwhile makes it late (R173, R174). -/
def State.slotResult (s : State) (d id : Nat) (st : Status) (data : List Byte) : State :=
  let x := Tbl.get DrSlot.init d s.bridge.slots
  if x.state = 1 ∧ x.id = id then
    let s := { s with bridge := { s.bridge with slots := Tbl.put DrSlot.init d { x with state := 2, data := data } s.bridge.slots } }
    (s.wr (F.BX_DRd_STAT_STATE d) 2).wr (F.BX_DRd_STAT_STATUS d) st.code
  else s.bump F.BX_LATE_COUNT

/-- A request ends at its source with a status and data. -/
def State.completeTo (s : State) (w : Waiter) (_c : Cell) (st : Status) (data : List Byte) : State :=
  match w with
  | .master .s => s.bulkAnswer st data
  | .master m => s.emit (.answer m st data)
  | .slot d id => s.slotResult d id st data
  | .farWrite n addr count => if st = .ok then s else s.farFail n addr count st

end Sys2Proof.Machine
end

