-- ==== Sys2Proof/Machine/Members.lean ====
section
/-! DEFINITION. Ring membership: enumeration, the position table, binding and release, junctions (R111 to R131). -/

namespace Sys2Proof.Machine

/-! ### Membership record and pair tables (R112, R114, R140) -/

/-- The membership the hub holds now, as a record. -/
def State.memNow (s : State) : MemRec :=
  { ring := s.ownRing, node := s.ownNode, bound := s.rd F.RG_SELF_BOUND, pos := s.mem.table, gen := s.mem.tableGen, size := s.rd F.RG_POS_SIZE }

/-- The record is written to the store or boot flash (R114). -/
def State.memWrite (s : State) : State :=
  let m := if s.isAssigned then some s.memNow else none
  if s.store.fitted then { s with store := { s.store with member := m } } else { s with mem := { s.mem with record := m } }

/-- The record that a start-up finds: in the store header, or in boot flash (R114, R390). -/
def State.memRecord (s : State) : Option MemRec := if s.store.fitted then s.store.member else s.mem.record

/-- A membership record is taken at start-up (R114). -/
def State.memTake (s : State) (m : MemRec) : State :=
  let s := (((s.wr F.RG_SELF_NODE m.node).wr F.RG_SELF_RING m.ring).wr F.RG_SELF_ASSIGNED 1).wr F.RG_SELF_BOUND m.bound
  let s := s.wr F.RG_SELF_PROV 0
  let s := { s with mem := { s.mem with table := m.pos, tableGen := m.gen } }
  let s := (s.wr F.RG_POS_SIZE m.size).wr F.RG_POS_VALID (if m.gen.isSome then 1 else 0)
  s.wr F.RG_POS_POS (Tbl.get 0 m.node m.pos - 1)

/-- A root takes node number 0 and RINGNUM when the weave is loaded (R112). -/
def State.rootTake (s : State) : State :=
  if s.on F.RG_ROLE_ROOT then
    let s := ((s.wr F.RG_SELF_NODE 0).wr F.RG_SELF_RING (s.rd F.RG_ROLE_RINGNUM)).wr F.RG_SELF_ASSIGNED 1
    (((s.wr F.RG_SELF_BOUND 0).wr F.RG_SELF_PROV 0).wr F.RG_POS_POS 0).memWrite
  else s

/-- Site address, class and offset of a request (R150). -/
def Cell.reqAddr (c : Cell) : Nat := beAt c.payload 0 8

/-- A posted write reported lost (0x07) or unknown (0x08), counted in RG_PWLOST; or a non-posted request's outcome (0x09 to 0x0B): the
ring event of R145, R146. -/
def State.outcomeEvent (s : State) (c : Cell) (code : Nat) : State :=
  let a := c.reqAddr
  let s := if code = 7 || code = 8 then s.bump F.RG_PWLOST_COUNT else s
  s.ringEvent code (bitsOf a 40 8 + bitsOf a 32 8 * 256) (c.dring.toNat * 2 ^ 28 + c.dnode.toNat * 2 ^ 16 + c.seq.toNat) (bitsOf a 0 32)

/-- Requests kept at the source end as a release ends them (R140): non-posted ones UNREACHABLE, posted ones unknown. -/
def State.releaseKept (s : State) : List Kept → State
  | [] => s
  | k :: ks =>
    State.releaseKept (if k.posted then s.outcomeEvent k.cell 8 else s.completeTo k.waiter k.cell .unreachable []) ks

/-- Requests of a failed window whose outcome a SYNC was to settle: unknown (R145). -/
def State.failedUnknown (s : State) : List Kept → State
  | [] => s
  | k :: ks => State.failedUnknown (s.outcomeEvent k.cell (if k.posted then 8 else 11)) ks

/-- A request that was never sent: a far write is logged with cause 5 (R172), any other posted write was never applied, and a non-posted
request is UNREACHABLE. -/
def State.unsentOne (s : State) (c : Cell) (posted : Bool) (w : Waiter) : State :=
  match w with
  | .farWrite n addr count => s.farUnsent n addr count
  | w => if posted then s.outcomeEvent c 7 else s.completeTo w c .unreachable []

/-- Requests not yet sent. -/
def State.unsent (s : State) : List (Cell × Bool × Waiter) → State
  | [] => s
  | (c, posted, w) :: r => State.unsent (s.unsentOne c posted w) r

/-- The pair tables are cleared on a release (R127, R140). -/
def State.clearPairs (s : State) : State :=
  let es := s.pair.src.map (·.2)
  let q := s.pair.queue
  let s := { s with pair := PairSt.init }
  let s := (s.releaseKept (es.flatMap (·.kept))).failedUnknown (es.flatMap (·.failed))
  (s.unsent (es.flatMap (·.waiting))).unsent q

/-- The hub becomes unassigned: number, pair tables, membership record, provisional ring and DUP go (R113, R119, R127, R128). What it counted
of the last ENUMERATE stays (R125). -/
def State.unassign (s : State) : State :=
  let s := s.clearPairs
  let s := ((s.wr F.RG_SELF_NODE 0).wr F.RG_SELF_RING 0).wr F.RG_SELF_ASSIGNED 0
  let s := ((s.wr F.RG_SELF_BOUND 0).wr F.RG_SELF_DUP 0).wr F.RG_SELF_PROV 0
  s.memWrite

/-! ### Enumeration (R117 to R122) -/

/-- START of RG_ENUM: only a root or second root sends (R117). -/
def State.enumStart (s : State) : State := if s.on F.RG_ROLE_ROOT || s.on F.RG_ROLE_ROOT2 then s.enumSend else s

/-- ENUM_PERIOD: the root, under autonomous policy, with PERIOD not zero. -/
def execEnumPeriod (s : State) : Host.Outcome State Fault Refusal :=
  .next (if s.on F.RG_ROLE_ROOT && !s.on F.NC_MODE_POLICY && s.rd F.RG_ENUM_PERIOD != 0 then s.enumSend else s)

/-- The REPORT of a node that counted an ENUMERATE (R115, R118). -/
def State.reportCell (s : State) (e : Cell) (gen offset : Nat) (moved : Bool) : Cell :=
  let pay := beBytes s.otp.fusedId 8 ++ beBytes (s.rd F.RG_PIDH_PIDENT) 4 ++ beBytes (s.rd F.RG_PIDL_PIDENT) 4 ++ beBytes offset 2
    ++ beBytes (if s.isAssigned then s.ownNode else 0) 2 ++ beBytes (b2n s.isAssigned + 2 * b2n moved) 1 ++ beBytes 0 1 ++ beBytes gen 2
  let c := s.mkCell 7 7 4 e.sring.toNat e.snode.toNat 0 pay
  if s.isAssigned then c else { c with sring := e.sring, snode := e.snode }

/-- ENUMERATE (R118, R119): counted on ring A with WRAPS 0; every other one is only forwarded. The hub's own one, returning, is the row
ENUMERATE_RETURN. Where the entry of the hub's own number in a valid table is not valid, the hub has no position and the spec names none for
step 3: the model compares position 0 (assumption 62). -/
def execEnumerate (p : PortR) (c : Cell) (s : State) : Host.Outcome State Fault Refusal :=
  let s := s.takeCell c
  .next (if !c.ring && c.wraps == 0 && p.val == 1 then
      let gen := beAt c.payload 0 2
      let origin := beAt c.payload 2 2 % 4096
      let offset := c.hops.toNat + 1
      let s := { s with mem := { s.mem with counted := some (gen, origin, offset) } }
      let s := s.wr F.RG_ENUM_GEN gen
      let s := if s.isAssigned then s else (s.wr F.RG_SELF_RING c.sring.toNat).wr F.RG_SELF_PROV 1
      let size := s.rd F.RG_POS_SIZE
      let moved := s.on F.RG_POS_VALID && size != 0 && s.rd F.RG_POS_POS != (origin + offset) % size
      (s.send (s.reportCell c gen offset moved) none 19).1
    else s)

/-- The position table of a sending, entry by entry: position and valid bit (R115). -/
def tableEntries (t : Tbl Nat) (first : Nat) : Nat → List Byte
  | 0 => []
  | k + 1 =>
    let e := Tbl.get 0 first t
    beBytes (if e = 0 then 0 else 32768 + (e - 1)) 2 ++ tableEntries t (first + 1) k

/-- POSTABLE cells from a node number on: at most 1,020 entries each (R115, R122). -/
def State.postableCells (s : State) (gen size : Nat) : Nat → Nat → State
  | 0, _ => s
  | n + 1, first =>
    let k := min 1020 (4096 - first)
    if k = 0 then s
    else
      let pay := beBytes gen 2 ++ beBytes first 2 ++ beBytes k 2 ++ beBytes size 2 ++ tableEntries s.mem.built first k
      State.postableCells (s.send (s.mkBroadcast 8 pay) none 19).1 gen size n (first + k)

/-- The root adopts what it sends: its own table (R122). -/
def State.tableSend (s : State) : State :=
  let size := s.rd F.RG_POS_SIZE
  let s := { s with mem := { s.mem with sentTable := true, table := s.mem.built, tableGen := some s.mem.sentGen } }
  ((s.wr F.RG_POS_VALID 1).wr F.RG_POS_POS 0).postableCells s.mem.sentGen size 5 0

/-- SIZE - 1 REPORTs of the GEN have arrived at a root whose ENUMERATE has returned: it sends the table, once (R122). -/
def State.tableDue (s : State) : State :=
  if s.on F.RG_ROLE_ROOT && s.mem.building && !s.mem.sentTable && decide (s.rd F.RG_POS_SIZE ≤ s.mem.reports + 1) then s.tableSend else s

/-- ENUMERATE_RETURN (R120, R128): the return wins, or is late; another identity under the hub's number is a duplicate. -/
def execEnumerateReturn (c : Cell) (s : State) : Host.Outcome State Fault Refusal :=
  let s := s.takeCell c
  let ident := beAt c.payload 8 8
  .next (if ident != s.otp.fusedId then
      ((s.bump F.RG_DUPNODE_COUNT).wr F.RG_SELF_DUP 1).ringEvent 6 0 (beAt c.payload 12 4) (beAt c.payload 8 4)
    else if s.mem.awaiting && beAt c.payload 0 2 == s.mem.sentGen then
      let s := { s with mem := { s.mem with awaiting := false, building := true } }
      ((s.wr F.RG_ENUM_RESULT 1).wr F.RG_POS_SIZE (c.hops.toNat + 1)).tableDue
    else s.bump F.RG_ENUMLATE_COUNT)

/-- ENUM_TIMEOUT (R120): no POSTABLE for that GEN. -/
def execEnumTimeout (s : State) : Host.Outcome State Fault Refusal :=
  .next (if s.mem.awaiting then
      let s := { s with mem := { s.mem with awaiting := false } }
      (s.wr F.RG_ENUM_RESULT 2).ringEvent 5 0 s.mem.sentGen 0
    else s)

/-- REPORT (R121, R122): into the FIFO, or counted lost; every one of the GEN counts for the table, and the last makes the root send it. -/
def execReport (c : Cell) (s : State) : Host.Outcome State Fault Refusal :=
  let s := s.takeCell c
  let s := if s.mem.fifo.length < 4096 then { s with mem := { s.mem with fifo := s.mem.fifo ++ [c.payload] } } else s.bump F.RG_RPTLOST_COUNT
  let offset := beAt c.payload 16 2 % 4096
  let node := beAt c.payload 18 2 % 4096
  .next (if beAt c.payload 22 2 = s.mem.sentGen then
      let m := s.mem
      State.tableDue { s with mem := { m with
        reports := m.reports + 1
        seen := (beAt c.payload 0 8, offset + 1) :: m.seen
        built := if beAt c.payload 20 1 % 2 = 1 then Tbl.put 0 node (offset + 1) m.built else m.built } }
    else s)

/-- POSTABLE_TIMER (R122): 10 ms after the return the root sends the table, if it has not. -/
def execPostableTimer (s : State) : Host.Outcome State Fault Refusal :=
  .next (if s.on F.RG_ROLE_ROOT && s.mem.building && !s.mem.sentTable then s.tableSend else s)

/-! ### The position table at a node (R123) -/

/-- The entries of a POSTABLE payload. -/
def postEntries (pay : List Byte) (k : Nat) : List Nat := (List.range k).map fun i => beAt pay (8 + 2 * i) 2

/-- Entries written into a table from a node number on. -/
def putEntries (t : Tbl Nat) (first : Nat) : List Nat → Tbl Nat
  | [] => t
  | e :: es => putEntries (Tbl.put 0 first (if e / 32768 % 2 = 1 then e % 4096 + 1 else 0) t) (first + 1) es

/-- A GEN is not older than another, as a signed 16-bit difference. -/
def genNotOlder (a b : Nat) : Bool := decide (0 ≤ toSigned 16 (ofSigned 16 ((a : Int) - b)))

/-- Node numbers of a cell overlap those of the cells held. -/
def overlaps (held : List (Nat × List Nat)) (first k : Nat) : Bool :=
  held.any fun h => decide (first < h.1 + h.2.length) && decide (h.1 < first + k)

/-- The window's cells cover every node number: the sending is whole, and is adopted if its GEN passes (R123). Where the entry of the hub's own
number is not valid, RG_POS.POS shows 0: the spec gives it no value then, and this one is the model's (assumption 62). -/
def State.windowClose (s : State) (w : PosWin) : State :=
  let s := { s with mem := { s.mem with window := none } }
  let s := s.wr F.RG_POS_POSOUT 1
  let take := match s.mem.tableGen with
    | some g => !s.on F.RG_POS_VALID || genNotOlder w.gen g
    | none => true
  if take then
    let t := w.held.foldl (fun t h => putEntries t h.1 h.2) []
    let s := { s with mem := { s.mem with table := t, tableGen := some w.gen } }
    (((s.wr F.RG_POS_VALID 1).wr F.RG_POS_SIZE w.size).wr F.RG_POS_POS (Tbl.get 0 s.ownNode t - 1)).memWrite
  else s

/-- A cell joins the open window. -/
def State.windowAdd (s : State) (w : PosWin) (first : Nat) (es : List Nat) : State :=
  let w := { w with held := w.held ++ [(first, es)] }
  if (w.held.map fun h => h.2.length).sum = 4096 then s.windowClose w
  else { s with mem := { s.mem with window := some w } }

/-- POSTABLE (R116, R123). -/
def execPostable (p : PortR) (c : Cell) (s : State) : Host.Outcome State Fault Refusal :=
  let s := s.takeCell c
  let pay := c.payload
  let gen := beAt pay 0 2
  let first := beAt pay 2 2
  let k := beAt pay 4 2
  let size := beAt pay 6 2
  .next (if k = 0 || decide (1020 < k) || c.len.toNat != 8 + 2 * k || decide (4096 < first + k) then s.bump (F.RGp_BADCELL_COUNT p.val)
    else
      let es := postEntries pay k
      if first = 0 then s.windowAdd { gen := gen, size := size, held := [] } 0 es
      else match s.mem.window with
        | none => s.bump F.RG_POSLATE_COUNT
        | some w =>
          if gen != w.gen || size != w.size || overlaps w.held first k then s.bump F.RG_POSLATE_COUNT else s.windowAdd w first es)

/-- POSTABLE_WINDOW_TIMEOUT (R123): the cells held are discarded, the old table stays. -/
def execPostableWindowTimeout (s : State) : Host.Outcome State Fault Refusal :=
  .next (if s.mem.window.isSome then { s with mem := { s.mem with window := none } }.wr F.RG_POS_POSOUT 2 else s)

/-! ### Binding and release (R124 to R128) -/

/-- The pair identity (R111). -/
def State.pairId (s : State) : Nat := s.rd F.RG_PIDH_PIDENT * 2 ^ 32 + s.rd F.RG_PIDL_PIDENT

/-- An ASSIGN matches the hub (R125). -/
def State.assignMatches (s : State) (pay : List Byte) : Bool :=
  match beAt pay 8 1 with
  | 1 => beAt pay 0 8 == s.pairId
  | 2 => beAt pay 0 8 == s.otp.fusedId
  | 3 => !s.isAssigned &&
      match s.mem.counted with
      | some (g, _, o) => g == beAt pay 16 2 && o == beAt pay 10 2 % 4096
      | none => false
  | _ => false

/-- The source of a cell. -/
def Cell.from (c : Cell) : Src := .ring c.sring c.snode

/-- ASSIGNED to the sender of an ASSIGN or RELEASE (R115). -/
def State.assignedTo (s : State) (c : Cell) (result mode node : Nat) : State :=
  let pay := beBytes s.otp.fusedId 8 ++ beBytes result 1 ++ beBytes mode 1 ++ beBytes node 2 ++ beBytes 0 4
  (s.send (s.mkCell 7 7 6 c.sring.toNat c.snode.toNat 0 pay) none 19).1

/-- A refused ASSIGN or RELEASE: counted, and entered as ASSIGNREF (R124, R439). -/
def State.assignRefuse (s : State) (c : Cell) (detail : Nat) : State :=
  (s.bump F.RG_ASSIGNREF_COUNT).tallyInternal c.from 0x8003 0x12 false 0 detail

/-- ASSIGN (R119, R124 to R126). With RESULT 1 and 2 the ASSIGNED carries the hub's own number: R115 does not say whose number it is then, and
this is the model's choice (assumption 21). -/
def execAssign (_p : PortR) (c : Cell) (s : State) : Host.Outcome State Fault Refusal :=
  let s := s.takeCell c
  let pay := c.payload
  let mode := beAt pay 8 1
  let node := beAt pay 12 2 % 4096
  let ring := beAt pay 14 1 % 16
  .next (if !s.assignMatches pay then s
    else if !s.isAssigned && !s.on F.RG_SELF_PROV then s.assignRefuse c 0xFF
    else if !s.hasRight c.from 2 then s.assignRefuse c 0xFF
    else if !s.isAssigned then
      let s := ((s.wr F.RG_SELF_NODE node).wr F.RG_SELF_RING ring).wr F.RG_SELF_ASSIGNED 1
      let s := (((s.wr F.RG_SELF_BOUND mode).wr F.RG_SELF_PROV 0).wr F.RG_POS_POS (Tbl.get 0 node s.mem.table - 1)).memWrite
      let s := s.tallyInternal c.from 0x8001 0 false 0 (node + ring * 4096 + mode * 65536)
      let s := s.assignedTo c 0 mode node
      (s.send (s.mkBroadcast 9 (beBytes s.otp.fusedId 8)) none 19).1
    else if s.ownNode = node && s.ownRing = ring then s.assignedTo c 1 mode s.ownNode
    else (s.assignRefuse c 2).assignedTo c 2 mode s.ownNode)

/-- ASSIGNED at the sender of the ASSIGN (R122): on RESULT 0 the root places the number, where a REPORT told its position, and sends the table
again. -/
def execAssigned (c : Cell) (s : State) : Host.Outcome State Fault Refusal :=
  let s := s.takeCell c
  let node := beAt c.payload 10 2 % 4096
  .next (if s.on F.RG_ROLE_ROOT && beAt c.payload 8 1 == 0 then
      let s := match s.mem.seen.find? fun x => x.1 == beAt c.payload 0 8 with
        | some (_, pos) => { s with mem := { s.mem with built := Tbl.put 0 node pos s.mem.built } }
        | none => s
      if s.mem.sentTable then s.tableSend else s
    else s)

/-- A RELEASE (R124, R127). -/
def State.releaseAt (s : State) (c : Cell) : State :=
  let s := s.takeCell c
  if !s.isAssigned || c.dring.toNat != s.ownRing || c.dnode.toNat != s.ownNode then s
  else if !s.hasRight c.from 2 then s.assignRefuse c 0xFF
  else if beAt c.payload 0 8 != s.otp.fusedId then s.bump F.RG_ASSIGNREF_COUNT
  else ((s.assignedTo c 3 0 s.ownNode).unassign).tallyInternal c.from 0x8002 0 false 0 0

/-- DUPCHECK (R128): another identity under the hub's own number, removed by row 6 of R103. -/
def execDupcheck (c : Cell) (s : State) : Host.Outcome State Fault Refusal :=
  let s := s.takeCell c
  .next (if s.isAssigned && c.sring.toNat == s.ownRing && c.snode.toNat == s.ownNode && beAt c.payload 0 8 != s.otp.fusedId then
      ((s.bump F.RG_DUPNODE_COUNT).wr F.RG_SELF_DUP 1).ringEvent 6 0 (beAt c.payload 4 4) (beAt c.payload 0 4)
    else s)

/-- A ring is the hub's own: its ring number, or the provisional one that an unassigned hub holds (R119). -/
def State.isOwnRing (s : State) (ring : Nat) : Bool := (s.isAssigned || s.on F.RG_SELF_PROV) && ring == s.ownRing

/-- UPLINK_CELL (R131): a cell received on U is inserted towards its node or exit, or discarded; one for this very node is delivered. -/
def execUplinkCell (c : Cell) (s : State) : Host.Outcome State Fault Refusal :=
  let s := s.takeCell c
  let c := { c with hops := 0, wraps := 0 }
  let insert (target : Nat) : State := let (b, f) := s.ringFor c target; s.insertOn c b f 2
  .next (if s.isOwnRing c.dring.toNat then
      if s.isAssigned && !c.mcast && c.dnode.toNat == s.ownNode then { s with inbox := s.inbox ++ [(2, c)] } else insert c.dnode.toNat
    else if s.routeMode c.dring.toNat = 1 then insert (s.rd (F.RG_RTn_EXIT c.dring.toNat))
    else s.bump F.RG_NOROUTE_COUNT)

end Sys2Proof.Machine
end

