-- ==== Sys2Proof/Machine/Time.lean ====
section
/-! DEFINITION. Site time at the hub: latches, peer delay, the root's SYNC, compares, captures and PPS (chapter 08). Steps and the
discipline stand in Discipline.lean. -/

namespace Sys2Proof.Machine

/-! ### Latches and FIFOs (R227, R243, R246) -/

/-- TM_NS, TM_FRAC, TM_SEC48H and TM_TICK take the present instant (R227). -/
def State.timeLatch (s : State) : State :=
  (((s.wr F.TM_NS_NS s.ns).wr F.TM_FRAC_FRAC s.frac).wr F.TM_SEC48H_SEC (s.sec48 / 2 ^ 32)).wr F.TM_TICK_TICK (s.clock.tick % 2 ^ 32)

/-- The captures held at an input, oldest first. -/
def State.caps (s : State) (c : Nat) : List (Nat × Nat × Bool) := Tbl.get [] c s.tm.caps

/-- The head capture is removed by a read of TM_CAPc_NS (R246). -/
def State.capPop (s : State) (c : Nat) : State := { s with tm := { s.tm with caps := Tbl.put [] c (s.caps c).tail s.tm.caps } }

/-- The transmit stamps held at an edge port. -/
def State.stamps (s : State) (e : Nat) : List (Nat × Nat × Nat × Nat) := Tbl.get [] e s.tm.stamps

/-- The head stamp is removed by a read of TM_TXIDn (R243). -/
def State.stampPop (s : State) (e : Nat) : State := { s with tm := { s.tm with stamps := Tbl.put [] e (s.stamps e).tail s.tm.stamps } }

/-- CAPTURE_EDGE (R246): an edge crosses the ball now and its level holds for so many ticks. One that the input selects, and that holds for
FILT ticks, is stamped into its FIFO of 8, or dropped and counted; the stamp is the instant of the edge. EDGE 0 is reserved and selects none. -/
def execCaptureEdge (c : Fin 4) (falling : Bool) (held : Byte) (s : State) : Host.Outcome State Fault Refusal :=
  let e := s.rd (F.TM_CAPc_CFG_EDGE c.val)
  .next (if s.on (F.TM_CAPc_CFG_ENABLE c.val) && (if falling then e == 2 || e == 3 else e == 1 || e == 3) &&
        decide (s.rd (F.TM_CAPc_CFG_FILT c.val) ≤ held.toNat) then
      if (s.caps c.val).length < 8 then
        { s with tm := { s.tm with caps := Tbl.put [] c.val (s.caps c.val ++ [(s.sec, s.ns, falling)]) s.tm.caps } }
      else s.bump F.TM_CAPLOST_COUNT
    else s)

/-! ### PPS (R247) -/

/-- The tick at which a pulse that starts now ends: WIDTH ms later, at 2 ns a tick. -/
def State.ppsEnd (s : State) (i : Nat) : Nat := s.clock.tick + s.rd (F.TM_PPSi_CFG_WIDTH i) * 500000

/-- The output has its pulse on. -/
def State.ppsOn (s : State) (i : Nat) : Bool :=
  match Tbl.get none i s.tm.pps with
  | none => false
  | some e => decide (s.clock.tick < e)

/-- This is the first tick of a whole second, and the output has not pulsed on it: a pulse may start now (both outputs pulse at one second). -/
def State.ppsNow (s : State) (i : Nat) : Bool := decide (s.clock.site % (secNs * nsUnit) < s.tickStep) && !s.ppsOn i

/-- PPS_PULSE: at the whole second a pulse starts, unless LOCKONLY holds it. -/
def execPpsPulse (i : Fin 2) (s : State) : Host.Outcome State Fault Refusal :=
  let s := if s.ppsNow i.val then s else s.reachMultiple secNs
  .next (if s.on (F.TM_PPSi_CFG_ENABLE i.val) && (!s.on (F.TM_PPSi_CFG_LOCKONLY i.val) || s.rd F.TM_DSTAT_STATE == 2) then
      { s with tm := { s.tm with pps := Tbl.put none i.val (some (s.ppsEnd i.val)) s.tm.pps } }
    else s)

/-- PPS_WIDTH_END: WIDTH ms after its start the pulse ends. -/
def execPpsWidthEnd (i : Fin 2) (s : State) : Host.Outcome State Fault Refusal :=
  .next (match Tbl.get none i.val s.tm.pps with
    | none => s
    | some e =>
      let s := s.ticks (e - s.clock.tick)
      { s with tm := { s.tm with pps := Tbl.put none i.val none s.tm.pps } })

/-! ### Compares (R244, R245) -/

/-- A slot fires: OUTCOME, the event and, with a period, the next target; a one-shot slot is no longer armed. What the unit that SIGNAL
signals does is laid down in no chapter: nothing in this hub (assumption 16). -/
def State.cmpFire (s : State) (k : Nat) (stepped : Bool) : State :=
  let sec := s.rd (F.TM_CMPk_S_SEC k)
  let ns := s.rd (F.TM_CMPk_NS_NS k)
  let per := s.rd (F.TM_CMPk_PER_PERIOD k)
  let s := (s.wr (F.TM_CMPk_CFG_OUTCOME k) 2).wr (F.TM_CMPk_CFG_STEPPED k) (b2n stepped)
  let s := { s with tm := { s.tm with fired := Tbl.put false k true s.tm.fired } }
  let s := if s.on (F.TM_CMPk_CFG_EVENT k) then s.timeEvent 4 k sec ns else s
  if per = 0 then s.wr (F.TM_CMPk_CFG_ARM k) 0
  else (s.wr (F.TM_CMPk_S_SEC k) (sec + (ns + per) / secNs)).wr (F.TM_CMPk_NS_NS k) ((ns + per) % secNs)

/-- COMPARE_FIRE: the target of an armed slot is reached. -/
def execCompareFire (k : Fin 32) (s : State) : Host.Outcome State Fault Refusal :=
  .next (if s.on (F.TM_CMPk_CFG_ARM k.val) then
      (s.reach (s.rd (F.TM_CMPk_S_SEC k.val)) (s.rd (F.TM_CMPk_NS_NS k.val)) 0).cmpFire k.val false
    else s)

/-- ARM is set (R244): a target not later than local time fires at the next tick, sets LATE and is counted. A slot already armed is not
armed again. -/
def State.cmpArm (s : State) (k : Nat) : State :=
  if s.on (F.TM_CMPk_CFG_ARM k) then s
  else
    let s := { s with tm := { s.tm with fired := Tbl.put false k false s.tm.fired } }
    let s := s.wr (F.TM_CMPk_CFG_ARM k) 1
    if s.reached (s.rd (F.TM_CMPk_S_SEC k)) (s.rd (F.TM_CMPk_NS_NS k)) 0 then
      (((s.wr (F.TM_CMPk_CFG_LATE k) 1).bump F.TM_CLATE_COUNT).ticks 1).cmpFire k false
    else s.wr (F.TM_CMPk_CFG_LATE k) 0

/-- DISARM (R245): before the slot's target it wins; after a firing it is late, and disarms a periodic slot's next target. -/
def State.cmpDisarm (s : State) (k : Nat) : State :=
  if s.on (F.TM_CMPk_CFG_ARM k) then
    if Tbl.get false k s.tm.fired then (s.wr (F.TM_CMPk_CFG_ARM k) 0).bump F.TM_LATE_COUNT
    else (s.wr (F.TM_CMPk_CFG_ARM k) 0).wr (F.TM_CMPk_CFG_OUTCOME k) 1
  else if s.rd (F.TM_CMPk_CFG_OUTCOME k) = 2 then s.bump F.TM_LATE_COUNT
  else s

/-! ### Peer delay (R233) -/

/-- A stamp in units of 0.25 ns, as the stamps of the ring ports are given, in units of 2^-16 ns. -/
def stamp16 (t : BitVec 64) : Nat := t.toNat * 2 ^ 14

/-- PDREQ_SEND: in UP a PDREQ leaves; an unanswered one has lost its race. -/
def execPdreqSend (p : PortR) (s : State) : Host.Outcome State Fault Refusal :=
  .next (if s.isUp p.val then
      let out := if p.val = 0 then F.TM_PDSTAT_PDOUT0 else F.TM_PDSTAT_PDOUT1
      let s := if (Tbl.get none p.val s.tm.pdWait).isSome then s.wr out 2 else s
      let q := Tbl.get 0 p.val s.tm.pdNext
      let s := s.emit (.cell p.val (linkCell 5 6 1 (beBytes q 2 ++ beBytes 0 2)))
      { s with tm := { s.tm with
        pdNext := Tbl.put 0 p.val ((q + 1) % 65536) s.tm.pdNext
        pdWait := Tbl.put none p.val (some { seq := q, t1 := s.now16 }) s.tm.pdWait } }
    else s)

/-- PDREQ: answered with CORR = t3 - t2. -/
def execPdreq (p : PortR) (c : Cell) (t2 t3 : BitVec 64) (s : State) : Host.Outcome State Fault Refusal :=
  let s := s.takeCell c
  .next (s.emit (.cell p.val
    { linkCell 5 6 2 (slice c.payload 0 2 ++ beBytes 0 2) with corr := BitVec.ofInt 48 ((stamp16 t3 : Int) - stamp16 t2) }))

/-- PDRESP: a result taken, or discarded as an outlier once 8 are held; one for an earlier PDREQ, or after its due time, is late. -/
def execPdresp (p : PortR) (c : Cell) (t4 : BitVec 64) (s : State) : Host.Outcome State Fault Refusal :=
  let s := s.takeCell c
  .next (match Tbl.get none p.val s.tm.pdWait with
    | none => s.bump F.TM_LATE_COUNT
    | some w =>
      if beAt c.payload 0 2 != w.seq then s.bump F.TM_LATE_COUNT
      else
        let out := if p.val = 0 then F.TM_PDSTAT_PDOUT0 else F.TM_PDSTAT_PDOUT1
        let s := s.wr out 1
        let s := { s with tm := { s.tm with pdWait := Tbl.put none p.val none s.tm.pdWait } }
        let delay := ((stamp16 t4 : Int) - w.t1 - c.corr.toInt) / 2 / 256
        let kept := Tbl.get [] p.val s.tm.pdKept
        let pd := s.rd (F.TM_PDLYp_DELAY p.val)
        if kept.length = 8 && decide (64 * 256 < (delay - (pd : Int)).natAbs) then s.bump F.TM_PDBAD_COUNT
        else
          let kept := (delay.toNat :: kept).take 8
          let s := { s with tm := { s.tm with pdKept := Tbl.put [] p.val kept s.tm.pdKept } }
          s.wr (F.TM_PDLYp_DELAY p.val) (kept.sum / kept.length))

/-! ### The root's SYNC (R234) -/

/-- SYNC_SEND: at the root a SYNC on each ring, ring A from RPE and ring B from RPW, with one SYNCSEQ. -/
def execSyncSend (s : State) : Host.Outcome State Fault Refusal :=
  .next (if s.on F.RG_ROLE_ROOT then
      let q := (s.tm.syncSent + 1) % 65536
      let s := { s with tm := { s.tm with syncSent := q } }
      let pay := beBytes s.sec 4 ++ beBytes s.ns 4 ++ beBytes s.frac 2 ++ beBytes q 2
        ++ beBytes (if s.rd F.TM_DSTAT_STATE = 2 then 1 else 0) 1 ++ beBytes 0 3
      let c := { s.mkCell 5 6 0 s.ownRing 4095 0 pay with mcast := true }
      let (s, c) := s.withFlow c
      (s.insertOn c false false 25).insertOn c true false 25
    else s)

end Sys2Proof.Machine
end

