-- ==== Sys2Proof/Machine/Weaver.lean ====
section
/-! DEFINITION. Weavers: lanes, bit-times, starting and stopping, queues, timed actions (chapter 09; R250 to R254). -/

namespace Sys2Proof.Machine

/-- A weaver. -/
def State.wvr (s : State) (n : Nat) : WvSt := Tbl.get WvSt.init n s.wv.w

def State.setWv (s : State) (n : Nat) (w : WvSt) : State := { s with wv := { s.wv with w := Tbl.put WvSt.init n w s.wv.w } }

/-- Ticks pass until a tick of the local tick counter. -/
def State.ticksTo (s : State) (t : Nat) : State := s.ticks (t - s.clock.tick)

/-- The weaver is RUNNING or STALLED, or its start has been granted (R268, R269). -/
def State.wvOn (s : State) (n : Nat) : Bool := s.rd (F.WVn_STAT_STATE n) != 0

/-! ### Lanes (R257 to R260) -/

/-- ROLE of a lane: 0 data out, 1 data in, 2 clock, 3 select, 4 side, 5 listen, 7 unused. -/
def State.role (s : State) (n l : Nat) : Nat := s.rd (F.WVn_LANEl_ROLE n l)

/-- A lane that drives its pin (R48). -/
def State.drives (s : State) (n l : Nat) : Bool := [0, 2, 3, 4].contains (s.role n l)

/-- Lanes of a role, in lane order. -/
def State.lanesOf (s : State) (n r : Nat) : List Nat := (List.range 8).filter fun l => s.role n l == r

/-- INV of a lane as a level. -/
def State.inv (s : State) (n l : Nat) : Bool := s.on (F.WVn_LANEl_INV n l)

/-- A lane of a weaver. -/
def State.lane (s : State) (n l : Nat) : LaneSt := (s.wvr n).lanes.getD l LaneSt.off

def State.setLane (s : State) (n l : Nat) (x : LaneSt) : State := s.setWv n { s.wvr n with lanes := (s.wvr n).lanes.set l x }

/-- What the ball shows at a tick: driven or not, and the level. -/
def LaneSt.seen (x : LaneSt) (tick : Nat) : Bool × Bool := if tick < x.since then (x.wasEn, x.wasLvl) else (x.en, x.lvl)

/-- Ticks by which a group with a lane of REACH = 1 is delayed, in both directions (R257). -/
def State.reachDelay (s : State) (n : Nat) : Nat := b2n ((List.range 8).any fun l => s.role n l != 7 && s.on (F.WVn_LANEl_REACH n l))

/-- A lane takes a state that the ball shows from a tick on; one that it shows already later stays. -/
def LaneSt.to (x : LaneSt) (shows : Nat) (en lvl ever : Bool) : LaneSt :=
  if shows < x.since then { x with wasEn := en, wasLvl := lvl, ever := ever }
  else if shows = x.since then { x with en := en, lvl := lvl, ever := ever }
  else { x with en := en, lvl := lvl, ever := ever, since := shows, wasEn := x.en, wasLvl := x.lvl }

/-- A lane takes a state at a tick of its weaver. -/
def State.laneTo (s : State) (n l tick : Nat) (en lvl ever : Bool) : State :=
  s.setLane n l ((s.lane n l).to (tick + s.reachDelay n) en lvl ever)

/-- The program, or the divider for it, drives a lane at a tick: a lane that does not drive ignores it, and so does one that a timed action
drives at the same tick (R277, R287). -/
def State.byProgram (s : State) (n l tick : Nat) : Bool := s.drives n l && (s.lane n l).acted != some tick

/-- A lane is driven to a level, before INV (R258). -/
def State.lanePut (s : State) (n l tick : Nat) (v : Bool) : State :=
  if s.byProgram n l tick then s.laneTo n l tick true (v ^^ s.inv n l) true else s

/-- A lane's driver is enabled with the level it has. -/
def State.laneEnable (s : State) (n l tick : Nat) : State :=
  if s.byProgram n l tick then s.laneTo n l tick true (s.lane n l).lvl true else s

/-- A lane goes high-impedance. -/
def State.laneFloat (s : State) (n l tick : Nat) : State :=
  if s.byProgram n l tick then s.laneTo n l tick false (s.lane n l).lvl (s.lane n l).ever else s

/-- A timed action drives a lane so that the ball shows it at a tick: reach is compensated (R253, R278). -/
def State.laneAct (s : State) (n l tick : Nat) (v : Bool) : State :=
  if s.drives n l then
    s.setLane n l { (s.lane n l).to tick true (v ^^ s.inv n l) true with acted := some (tick - s.reachDelay n) }
  else s

/-- Lanes one after the other. -/
def State.eachLane (s : State) (f : State → Nat → State) : List Nat → State
  | [] => s
  | l :: ls => State.eachLane (f s l) f ls

/-- A lane goes at a tick to its PARK state, a ball level (R258, R259). -/
def State.lanePark (s : State) (n l tick : Nat) : State :=
  let x := s.lane n l
  if s.drives n l then
    match s.rd (F.WVn_LANEl_PARK n l) with
    | 0 => s.laneTo n l tick x.ever x.lvl x.ever
    | 1 => s.laneTo n l tick true false x.ever
    | 2 => s.laneTo n l tick true true x.ever
    | _ => s.laneTo n l tick false x.lvl x.ever
  else s.laneTo n l tick false x.lvl x.ever

/-- Every lane parks. -/
def State.wvPark (s : State) (n tick : Nat) : State := s.eachLane (fun s l => s.lanePark n l tick) (List.range 8)

/-- VIO_Fk of the bank a pin lies in is within range (R256, R260). -/
def State.bankOn (s : State) (pin : Nat) : Bool := bitsOf (s.rd F.BK_VIO_PRESENT) (pin / 64) 1 == 1

/-- What a lane senses of a level at its ball: 0 before INV while the bank's supply is low, 0 for an unused lane (R258, R260, R296). -/
def State.sense (s : State) (n l : Nat) (ball : Bool) : Bool :=
  if s.role n l = 7 then false else (ball && s.bankOn (s.rd (F.WVn_LANEl_PIN n l))) ^^ s.inv n l

/-! ### Bit-times (R261, R262, R276) -/

/-- Index of the first boundary at or after a tick. -/
def WvSt.kAt (w : WvSt) (x : Nat) : Nat := if x ≤ w.t0 then 0 else ((x - w.t0) * 256 + w.div - 1) / w.div

/-- Tick of boundary k. -/
def WvSt.tickAt (w : WvSt) (k : Nat) : Nat := w.t0 + k * w.div / 256

/-- Tick of the first boundary at or after a tick. -/
def WvSt.boundary (w : WvSt) (x : Nat) : Nat := w.tickAt (w.kAt x)

/-- Tick at which bit-time i of the paced instruction begins. -/
def WvSt.bitTick (w : WvSt) (b : WvBusy) (i : Nat) : Nat := w.tickAt (b.k0 + (i - b.i0))

/-- Bit-times of the paced instruction begun by a tick. -/
def WvSt.begun (w : WvSt) (b : WvBusy) (x : Nat) : Nat :=
  if x < w.t0 then b.i0
  else
    let k := ((x - w.t0 + 1) * 256 - 1) / w.div
    if k < b.k0 then b.i0 else b.i0 + (k - b.k0 + 1)

/-- Opcode and fields of a word (R283). -/
def opOf (word : Nat) : Nat := bitsOf word 20 4
def widthOf (word : Nat) : Nat := 2 ^ bitsOf word 13 2
def countOf (word : Nat) : Nat := bitsOf word 15 5 + 1
def groupsOf (word : Nat) : Nat := countOf word / widthOf word
def msbOf (word : Nat) : Bool := bitsOf word 12 1 == 1

/-- When the last bit-time of a paced instruction begins. -/
def WvSt.lastTick (w : WvSt) (b : WvBusy) : Nat := match b.last with | some (t, _) => t | none => w.bitTick b (b.total - 1)

/-- The boundary that ends it. -/
def WvSt.endTick (w : WvSt) (b : WvBusy) : Nat := match b.last with | some (_, t) => t | none => w.bitTick b b.total

/-- s_last: when the last group of a shift is sampled. -/
def WvSt.sampTick (w : WvSt) (b : WvBusy) : Nat := match b.samp with | some t => t | none => w.bitTick b (groupsOf b.word - 1) + w.div / 512

/-- The free tick F of a paced instruction (R293). -/
def WvSt.freeTick (w : WvSt) (b : WvBusy) : Nat :=
  match opOf b.word with
  | 2 => max (w.lastTick b + 1) (w.sampTick b + 4)
  | 0xB => w.endTick b
  | _ => w.lastTick b + 1

/-! ### Shifts (R263, R286) -/

/-- Bit k of a group drives the k-th lane of a list. -/
def State.driveGroup (s : State) (n g tick : Nat) : List Nat → Nat → State
  | [], _ => s
  | l :: ls, k => State.driveGroup (s.lanePut n l tick (bitsOf g k 1 == 1)) n g tick ls (k + 1)

/-- One group leaves by SHO. -/
def State.shoGroup (s : State) (n word tick : Nat) : State :=
  let w := widthOf word
  let sh := s.rd (F.WVn_SHIFT_SH n)
  let g := if msbOf word then sh / 2 ^ (32 - w) else sh % 2 ^ w
  let s := s.driveGroup n g tick ((s.lanesOf n 0).take w) 0
  let s := s.wr (F.WVn_SHIFT_SH n) (if msbOf word then sh * 2 ^ w else sh / 2 ^ w)
  s.wr (F.WVn_SHCNT_COUNT n) (s.rd (F.WVn_SHCNT_COUNT n) + w)

/-- The group sampled on the data-in lanes: bit k on the k-th; a missing lane reads 0 (R296). -/
def State.senseGroup (s : State) (n : Nat) (balls : Nat) : List Nat → Nat → Nat
  | [], _ => 0
  | l :: ls, k => b2n (s.sense n l (bitsOf balls l 1 == 1)) * 2 ^ k + State.senseGroup s n balls ls (k + 1)

/-- Group j enters by SHI. -/
def State.shiGroup (s : State) (n word j balls : Nat) : State :=
  let w := widthOf word
  let sh := s.rd (F.WVn_SHIFT_SH n)
  let g := s.senseGroup n balls ((s.lanesOf n 1).take w) 0
  let s := s.wr (F.WVn_SHIFT_SH n) (if msbOf word then sh * 2 ^ w + g else setBits sh (j * w) w g)
  s.wr (F.WVn_SHCNT_COUNT n) (s.rd (F.WVn_SHCNT_COUNT n) + w)

/-- The next group of the SHI in progress, if one is, is sampled. -/
def State.sampleNext (s : State) (n : Nat) : State :=
  match (s.wvr n).busy with
  | none => s
  | some b =>
    if opOf b.word = 2 && decide (b.moved < groupsOf b.word) then
      let s := s.shiGroup n b.word b.moved (b.samples.getD b.moved 0).toNat
      s.setWv n { s.wvr n with busy := some { b with moved := b.moved + 1 } }
    else s

/-- The clock's rising edge, if it is due by a tick: clock lanes go high, SHI samples (R263). -/
def State.clockRise (s : State) (n by' : Nat) : State :=
  match (s.wvr n).rise with
  | none => s
  | some t =>
    if t ≤ by' then
      let s := s.eachLane (fun s l => s.lanePut n l t true) (s.lanesOf n 2)
      (s.setWv n { s.wvr n with rise := none }).sampleNext n
    else s

/-- A bit-time of a shift begins at a tick: side lanes drive SIDE, clock lanes go low, data-out lanes have their drivers enabled, and SHO
drives its group. In its DELAY bit-times every lane holds (R258, R263, R286). -/
def State.bitBegin (s : State) (n i tick : Nat) : State :=
  match (s.wvr n).busy with
  | none => s
  | some b =>
    if i < groupsOf b.word then
      let s := s.clockRise n tick
      let s := s.driveGroup n (bitsOf b.word 8 4) tick ((s.lanesOf n 4).take 4) 0
      let s := s.eachLane (fun s l => s.lanePut n l tick false) (s.lanesOf n 2)
      let s := s.eachLane (fun s l => s.laneEnable n l tick) (s.lanesOf n 0)
      let s := if opOf b.word = 1 then s.shoGroup n b.word tick else s
      let w := s.wvr n
      s.setWv n { w with
        rise := some (tick + w.div / 512)
        busy := w.busy.map fun x => { x with shown := i + 1, moved := if opOf b.word = 1 then i + 1 else x.moved } }
    else s

/-- Bit-times from number i on begin, as many as are named. -/
def State.bitsBegin (s : State) (n : Nat) (b : WvBusy) : Nat → Nat → State
  | 0, _ => s
  | k + 1, i => State.bitsBegin (s.bitBegin n i ((s.wvr n).bitTick b i)) n b k (i + 1)

/-- DRV on one lane (R287). -/
def State.drvLane (s : State) (n value oe tick l : Nat) : State :=
  if bitsOf oe l 1 = 1 then s.lanePut n l tick (bitsOf value l 1 == 1) else s.laneFloat n l tick

/-- What a paced instruction has done by a tick takes place: each boundary and clock edge once, in order. -/
def State.wvSettleTo (s : State) (n x : Nat) : State :=
  let w := s.wvr n
  let s := match w.busy with
    | none => s
    | some b =>
      let begun := min b.total (w.begun b x)
      match opOf b.word with
      | 7 =>
        if b.shown = 0 && decide (0 < begun) then
          let s := s.eachLane (fun s l => s.drvLane n (bitsOf b.word 12 8) (bitsOf b.word 4 8) (w.bitTick b 0) l) (List.range 8)
          s.setWv n { s.wvr n with busy := some { b with shown := 1 } }
        else s
      | 1 | 2 => s.bitsBegin n b (begun - b.shown) b.shown
      | _ => s
  s.clockRise n x

/-- What a paced instruction has done by now takes place. -/
def State.wvSettle (s : State) (n : Nat) : State := s.wvSettleTo n s.clock.tick

/-- The same for every weaver. -/
def State.wvSettleAll (s : State) : State := s.eachLane State.wvSettle (s.wv.w.map (·.1))

/-- The divider's count starts again at a tick with a DIV; the paced instruction goes on from there (R262, R276). -/
def State.rebase (s : State) (n at' div : Nat) : State :=
  let s := s.wvSettle n
  let w := s.wvr n
  let busy := w.busy.map fun b =>
    let done := w.begun b (at' - 1)
    { b with
      i0 := done, k0 := 0
      last := if b.last.isSome then b.last.map fun (t, e) => (t, min e at')
        else if b.total ≤ done then some (w.lastTick b, at') else none
      samp := if b.samp.isSome then b.samp else if groupsOf b.word ≤ done then some (min (w.sampTick b) at') else none }
  s.setWv n { w with t0 := at', div := div, busy := busy }

/-- DIV of the divider that WVn_STAT.DIVACT selects. -/
def State.divSel (s : State) (n : Nat) : Nat := if s.on (F.WVn_STAT_DIVACT n) then s.rd (F.WVn_DIV1_DIV n) else s.rd (F.WVn_DIV0_DIV n)

/-- The DIV register in use was written, or the selection changed: it takes effect at the next boundary, which is t0 then (R262); before the
start tick, the count starts with it there. -/
def State.divChange (s : State) (n : Nat) : State :=
  let w := s.wvr n
  if !s.wvOn n then s
  else if s.clock.tick < w.start then s.setWv n { w with div := s.divSel n }
  else s.rebase n (w.boundary (s.clock.tick + 1)) (s.divSel n)

/-! ### Timed actions (R251 to R254, R278) -/

/-- TM_SAn takes an outcome; an action with REPORT writes its event (R254). -/
def State.saRecord (s : State) (n actid outcome : Nat) (report stepped : Bool) : State :=
  let s := ((s.wr (F.TM_SAn_ACTID n) actid).wr (F.TM_SAn_OUTCOME n) outcome).wr (F.TM_SAn_STEPPED n) (b2n stepped)
  if report then s.timeEvent 5 (n + outcome * 256 + b2n stepped * 2048) actid 0 else s

/-- An action drives its enabled lanes (R278). -/
def State.actDrive (s : State) (n value enable : Nat) : State :=
  let t := s.clock.tick
  (s.wvSettleTo n (t - s.reachDelay n)).eachLane
    (fun s l => if bitsOf enable l 1 = 1 then s.laneAct n l t (bitsOf value l 1 == 1) else s) (List.range 8)

/-- The head of the timed queue fires. -/
def State.actFire (s : State) (n : Nat) (stepped : Bool) : State :=
  match (s.wvr n).acts with
  | [] => s
  | a :: as =>
    let s := s.setWv n { s.wvr n with acts := as }
    (s.actDrive n a.value a.enable).saRecord n a.actid 1 a.report stepped

/-- Actions removed one by one, each with an outcome and a counter (R254, R271). -/
def State.actsCancel (s : State) (n : Nat) (count : Fld) : List WvAct → State
  | [] => s
  | a :: as => State.actsCancel ((s.bump count).saRecord n a.actid 4 a.report false) n count as

/-- An action joins the timed queue in order of T, then of arrival. -/
def State.actPlace (s : State) (a : WvAct) : List WvAct → List WvAct
  | [] => [a]
  | b :: bs => if s.until a.sec a.ns a.frac < s.until b.sec b.ns b.frac then a :: b :: bs else b :: s.actPlace a bs

/-! ### Starting and stopping (R269 to R272, R277) -/

/-- A start of one weaver granted now, its start tick given; a started one has STARTIGN set (R269). -/
def State.wvStart (s : State) (tick n : Nat) : State :=
  if s.wvOn n then s.wr (F.WVn_STAT_STARTIGN n) 1
  else
    let s := ((s.wr (F.WVn_STAT_STATE n) 1).wr (F.WVn_STAT_STALLON n) 0).wr (F.WVn_STAT_PC n) 0
    let s := ((s.wr (F.WVn_STAT_MIDSHIFT n) 0).wr (F.WVn_STAT_HALTED n) 0).wr (F.WVn_STAT_DIVACT n) 0
    s.setWv n { s.wvr n with
      busy := none, wait := .none, npc := 0, free := tick, t0 := tick, div := s.rd (F.WVn_DIV0_DIV n), tg := 0, half := false, last := none, start := tick, rise := none }

/-- Every named weaver starts on one tick. -/
def State.wvStartAll (s : State) (tick : Nat) : List Nat → State
  | [] => s
  | n :: ns => State.wvStartAll (s.wvStart tick n) tick ns

/-- The start tick of a start that reaches the unit now: the first at least 16 ns later, 8 ticks (R269). -/
def State.startTick (s : State) : Nat := s.clock.tick + 8

/-- A weaver stops at a tick (R271): MIDSHIFT only with a shift part way through, lanes park, held actions go. -/
def State.wvEnd (s : State) (n tick : Nat) : State :=
  if s.wvOn n then
    let s := s.wvSettle n
    let w := s.wvr n
    let mid := match w.busy with
      | some b => (opOf b.word == 1 || opOf b.word == 2) && b.moved != 0 && decide (b.moved < groupsOf b.word)
      | none => false
    let s := if mid then s.wr (F.WVn_STAT_MIDSHIFT n) 1 else s
    let s := s.setWv n { w with busy := none, wait := .none, half := false, acts := [], rise := none }
    let s := (s.wr (F.WVn_STAT_STATE n) 0).wr (F.WVn_STAT_STALLON n) 0
    (s.wvPark n tick).actsCancel n (F.WVn_TQDROP_COUNT n) w.acts
  else s

/-- STOP: it takes effect at the first tick after it reaches the weaver. -/
def State.wvStop (s : State) (n : Nat) : State := s.wvEnd n (s.clock.tick + 1)

def State.wvStopAll (s : State) : List Nat → State
  | [] => s
  | n :: ns => State.wvStopAll (s.wvStop n) ns

/-- A weaver event (SRC 1) of a weaver's own priority. -/
def State.wvEvent (s : State) (n code detail w2 w3 : Nat) : State := s.laterEvent (s.rd (F.WVn_CTL_EQPRI n)) 1 code detail w2 w3

/-- Weavers a mask names, from a first one on. -/
def masked (first mask w : Nat) : List Nat := ((List.range w).filter fun i => bitsOf mask i 1 == 1).map (first + ·)

/-- The weavers of BK_GMASK. -/
def State.gmask (s : State) : List Nat :=
  masked 0 (s.rd (F.BK_GMASKi_MASK 0)) 32 ++ masked 32 (s.rd (F.BK_GMASKi_MASK 1)) 32 ++ masked 64 (s.rd (F.BK_GMASKi_MASK 2)) 32
    ++ masked 96 (s.rd (F.BK_GMASKi_MASK 3)) 32

/-- One divider count restarts on this tick: the bit-time in progress ends, its clock edge with it, and a group it had still to sample is
sampled now. Before a granted start's tick nothing counts yet. -/
def State.clkRestartOne (s : State) (n : Nat) : State :=
  if !s.wvOn n || decide (s.clock.tick < (s.wvr n).start) then s
  else
    let s := s.rebase n s.clock.tick (s.wvr n).div
    let w := s.wvr n
    if w.rise.isSome && w.rise != some (s.clock.tick + w.div / 512) then (s.setWv n { w with rise := none }).sampleNext n else s

/-- Divider counts restart on this tick; STOPPED weavers are not affected (R276). -/
def State.clkRestart (s : State) : List Nat → State
  | [] => s
  | n :: ns => State.clkRestart (s.clkRestartOne n) ns

/-! ### Global starts (R274, R275) -/

/-- The armed start takes place (R274). -/
def State.globalFire (s : State) : State := ((s.wr F.BK_GCTL_ARM 0).wr F.BK_GCTL_OUTCOME 2).wvStartAll s.clock.tick s.gmask

/-- ARM is set: a time not later than local time starts at the next tick. -/
def State.globalArmSet (s : State) : State :=
  if s.on F.BK_GCTL_ARM then s
  else
    let s := s.wr F.BK_GCTL_ARM 1
    if s.reached (s.rd F.BK_GTS_SEC) (s.rd F.BK_GTNS_NS) 0 then
      (((s.wr F.BK_GCTL_LATE 1).bump F.BK_LATE_COUNT).ticks 1).globalFire
    else s.wr F.BK_GCTL_LATE 0

/-- DISARM: it wins while armed; after the time has won it is late. -/
def State.globalDisarmSet (s : State) : State :=
  if s.on F.BK_GCTL_ARM then (s.wr F.BK_GCTL_ARM 0).wr F.BK_GCTL_OUTCOME 1
  else if s.rd F.BK_GCTL_OUTCOME = 2 then s.bump F.BK_LATE_COUNT
  else s

/-- GLOBAL_START_TIME. -/
def execGlobalStartTime (s : State) : Host.Outcome State Fault Refusal :=
  .next (if s.on F.BK_GCTL_ARM then (s.reach (s.rd F.BK_GTS_SEC) (s.rd F.BK_GTNS_NS) 0).globalFire else s)

/-- The weavers whose AUTOSTART is set, as one global start at the next tick (R275). -/
def State.autostart (s : State) : State :=
  s.wvStartAll (s.clock.tick + 1) ((List.range 128).filter fun n => s.on (F.WVn_CTL_AUTOSTART n))

/-- A load that starts weavers has completed: the start of R275 is due. -/
def State.autoDue (s : State) : State := { s with wv := { s.wv with autoDue := true } }

/-- AUTOSTART: once after each such load. -/
def execAutostart (s : State) : Host.Outcome State Fault Refusal :=
  .next (if s.wv.autoDue then ({ s with wv := { s.wv with autoDue := false } } : State).autostart else s)

/-! ### Queues and the aggregator (R264 to R267) -/

/-- Places of the transmit and the receive queue (R264). -/
def State.txCap (s : State) (n : Nat) : Nat := match s.rd (F.WVn_CTL_JOIN n) with | 1 => 8 | 2 => 0 | _ => 4
def State.rxCap (s : State) (n : Nat) : Nat := match s.rd (F.WVn_CTL_JOIN n) with | 1 => 0 | 2 => 8 | _ => 4

/-- Backlog words move to the transmit queue while it has room. -/
def State.backMove (s : State) (n : Nat) : State :=
  let w := s.wvr n
  let k := s.txCap n - w.tx.length
  s.setWv n { w with tx := w.tx ++ w.back.take k, back := w.back.drop k }

/-- A push (R266): into the queue if the backlog is empty and it has room, else into the backlog; both full: dropped and counted. -/
def State.txPush (s : State) (n data : Nat) : State :=
  let s := s.backMove n
  let w := s.wvr n
  let x := (s.rd (F.WVn_TXTAG_TAG n), data)
  if w.back.isEmpty && decide (w.tx.length < s.txCap n) then s.setWv n { w with tx := w.tx ++ [x] }
  else if w.back.length < s.rd (F.WVn_QCFG_BACKLOG n) then s.setWv n { w with back := w.back ++ [x] }
  else (s.wr (F.WVn_STAT_TXOVF n) 1).bump (F.WVn_TXDROP_COUNT n)

/-- BACKLOG_MOVE. -/
def execBacklogMove (n : Fin 128) (s : State) : Host.Outcome State Fault Refusal := .next (s.backMove n.val)

/-- The head receive word is removed in poll mode (R267). -/
def State.rxPop (s : State) (n : Nat) : State :=
  if s.on (F.WVn_CTL_RXDEST n) then s else s.setWv n { s.wvr n with rx := (s.wvr n).rx.tail }

/-- WEAVER_AGGREGATOR_DRAIN (R267): with RXDEST 1 and no throttle, a GIVE word or a stamp pair becomes one event. -/
def execWeaverAggregatorDrain (n : Fin 128) (s : State) : Host.Outcome State Fault Refusal :=
  let w := s.wvr n.val
  .next (if s.on (F.WVn_CTL_RXDEST n.val) && !s.throttled then
      match w.rx with
      | (tag, d) :: r =>
        if tag / 64 = 2 then
          match r with
          | (_, ns) :: r =>
            (s.setWv n.val { w with rx := r }).wvEvent n.val 2 (n.val + bitsOf tag 2 3 * 256 + bitsOf tag 5 1 * 2048) d ns
          | [] => s
        else (s.setWv n.val { w with rx := r }).wvEvent n.val 1 (n.val + tag % 64 * 256) d 0
      | [] => s
    else s)

/-! ### Supplies (R260) -/

/-- VIO_CHANGE: BK_VIO follows the bank supplies; the first showing after the core start writes no event. -/
def execVioChange (present : BitVec 4) (s : State) : Host.Outcome State Fault Refusal :=
  let t := (s.wr F.BK_VIO_PRESENT present.toNat)
  .next (if !s.wv.vioShown then { t with wv := { t.wv with vioShown := true } }
    else if s.rd F.BK_VIO_PRESENT = present.toNat then s
    else t.laterEvent (t.rd (F.EQ_RTs_PRI 1)) 1 5 present.toNat 0 0)

/-! ### Scheduled-action cells (R250 to R254) -/

/-- A scheduled action is refused: counted, and an ACT recorded with its outcome where WEAVER names one (R251). -/
def State.saRefuse (s : State) (act : Bool) (n actid outcome : Nat) (report : Bool) : State :=
  if act && decide (n < 128) then s.saRecord n actid outcome report false else s

/-- The weaver takes timed actions: running or stalled, TIMED set (R251, R278). -/
def State.takesActs (s : State) (n : Nat) : Bool := s.wvOn n && s.on (F.WVn_CTL_TIMED n)

/-- ACT (R251, R252). -/
def execAct (c : Cell) (s : State) : Host.Outcome State Fault Refusal :=
  let s := s.takeCell c
  let pay := c.payload
  let n := beAt pay 12 1
  let actid := beAt pay 16 2
  let report := beAt pay 13 1 % 2 == 1
  let wellFormed := pay.length == 20 && c.len.toNat == 20 && beAt pay 10 2 == 0 && beAt pay 13 1 / 2 == 0 && beAt pay 18 2 == 0 &&
    decide (n < 128) && decide (beAt pay 4 4 < secNs)
  let a : WvAct :=
    { sec := beAt pay 0 4, ns := beAt pay 4 4, frac := beAt pay 8 2, value := beAt pay 14 1, enable := beAt pay 15 1, actid := actid,
      report := report }
  .next (if !s.hasRight c.from 1 || !wellFormed || !s.takesActs n then (s.bump F.TM_SAREF_COUNT).saRefuse true n actid 5 report
    else if 8 ≤ (s.wvr n).acts.length then (s.bump F.TM_SAFULL_COUNT).saRefuse true n actid 6 report
    else if 20 * (nsUnit : Int) < s.until a.sec a.ns a.frac then
      let s := s.setWv n { s.wvr n with acts := s.actPlace a (s.wvr n).acts }
      ((s.wr (F.TM_SAn_ACTID n) actid).wr (F.TM_SAn_OUTCOME n) 1).wr (F.TM_SAn_STEPPED n) 0
    else if bitsOf (s.rd (F.TM_LPOLi_POLICY (n / 32))) (n % 32) 1 = 1 then
      (s.bump F.TM_SADISC_COUNT).saRecord n actid 3 report false
    else (((s.bump F.TM_SALATE_COUNT).ticks 1).actDrive n a.value a.enable).saRecord n actid 2 report false)

/-- ACT_FIRE (R253): the earliest held action of a weaver reaches T. -/
def execActFire (n : Fin 128) (s : State) : Host.Outcome State Fault Refusal :=
  .next (match (s.wvr n.val).acts with
    | [] => s
    | a :: _ => (s.reach a.sec a.ns a.frac).actFire n.val false)

/-- CANCEL (R254). -/
def execCancel (c : Cell) (s : State) : Host.Outcome State Fault Refusal :=
  let s := s.takeCell c
  let n := beAt c.payload 0 1
  let actid := beAt c.payload 2 2
  let wellFormed := c.payload.length == 4 && c.len.toNat == 4 && beAt c.payload 1 1 == 0 && decide (n < 128)
  .next (if !s.hasRight c.from 1 || !wellFormed || !s.takesActs n then s.bump F.TM_SAREF_COUNT
    else
      let w := s.wvr n
      let gone := w.acts.filter fun a => a.actid == actid
      if gone.isEmpty then s.bump F.TM_LATE_COUNT
      else (s.setWv n { w with acts := w.acts.filter fun a => a.actid != actid }).actsCancel n F.TM_SACANCEL_COUNT gone)

end Sys2Proof.Machine
end

