-- ==== Sys2Proof/Machine/WeaverIsa.lean ====
section
/-! DEFINITION. The weaver instruction set (chapter 10): issue, waits, queue instructions, control. -/

namespace Sys2Proof.Machine

/-! ### Issue (R272, R281, R293) -/

/-- The slot after one that does not branch (R281). -/
def nextSlot (pc : Nat) : Nat := (pc + 1) % 64

/-- The instruction's word is fetched at its issue tick: the instruction before it has ended, SHCNT is 0 again. -/
def State.wvFetch (s : State) (n : Nat) : State :=
  let w := s.wvr n
  let s := s.ticksTo (match w.busy with | some b => w.freeTick b | none => w.free)
  let s := s.wvSettle n
  let s := s.setWv n { s.wvr n with busy := none, npc := nextSlot w.npc, free := s.clock.tick + 1 }
  (s.wr (F.WVn_STAT_PC n) w.npc).wr (F.WVn_SHCNT_COUNT n) 0

/-- An instruction with a given opcode issues on a running weaver that waits for nothing: f takes its word; a parity failure on fetch stops
the weaver, sets PARERR and writes a weaver event (R272). Nothing happens where the slot holds another opcode. -/
def State.wvIssue (s : State) (n op : Nat) (parityOk : Bool) (f : State → Nat → State) : State :=
  let w := s.wvr n
  let word := s.rd (F.WVn_PROGs_WORD n w.npc)
  if s.rd (F.WVn_STAT_STATE n) = 1 && decide (w.wait = .none) && (opOf word == op || !parityOk) then
    let s := s.wvFetch n
    if parityOk then f s word
    else ((s.wvEnd n s.clock.tick).wr (F.WVn_STAT_PARERR n) 1).wvEvent n 4 n w.npc 0
  else s

/-- A wait has passed at this tick. -/
def State.wvPass (s : State) (n : Nat) : State := s.setWv n { s.wvr n with wait := .none, free := s.clock.tick + 1 }

/-- The weaver waits. -/
def State.wvWait (s : State) (n : Nat) (x : WvWait) : State := s.setWv n { s.wvr n with wait := x }

/-- A paced instruction starts at the first boundary at or after its issue tick. -/
def State.wvPace (s : State) (n word total : Nat) (samples : List Byte) : State :=
  let w := s.wvr n
  (s.setWv n { w with
    busy := some {
      word := word, total := total, i0 := 0, k0 := w.kAt s.clock.tick, shown := 0, moved := 0, samples := samples, last := none,
      samp := none } }).wvSettle n

/-- The next instruction comes from a slot. -/
def State.wvJump (s : State) (n slot : Nat) : State := s.setWv n { s.wvr n with npc := slot }

/-- A pin event seen now crossed the ball 3 ticks ago, and one more in a group with reach: the weaver records it (R257, R263, R279). -/
def State.record (s : State) (n lane : Nat) (fall : Bool) : State :=
  let t := (s.clock.site - (3 + s.reachDelay n) * s.tickStep) / nsUnit
  s.setWv n { s.wvr n with last := some { sec := t / secNs % 2 ^ 32, ns := t % secNs, fall := fall, lane := lane } }

/-! ### Basket flags and lines (R288) -/

def State.flags (s : State) (m : Nat) : Nat := s.rd (F.BKm_FLAGS_FLAGS m)
def State.lines (s : State) (m : Nat) : Nat := Tbl.get 0 m s.wv.irq

def State.setLines (s : State) (m v : Nat) : State := { s with wv := { s.wv with irq := Tbl.put 0 m v s.wv.irq } }

/-- A wait on a flag, line or mask that passes now. -/
def State.passes (s : State) (m : Nat) : WvWait → Bool
  | .flg w => bitsOf (s.flags m) (bitsOf w 16 4) 1 == bitsOf w 15 1
  | .irq w => bitsOf (s.lines m) (bitsOf w 18 2) 1 == 1
  | .sync w =>
    let mask := bitsOf w 0 16 ||| 2 ^ bitsOf w 16 4
    (s.flags m &&& mask) == mask
  | _ => false

/-- Flags a passing wait clears; lines it clears. -/
def WvWait.clearsFlags : WvWait → Nat
  | .flg w => if bitsOf w 14 1 = 1 then 2 ^ bitsOf w 16 4 else 0
  | .sync w => 2 ^ bitsOf w 16 4
  | _ => 0

def WvWait.clearsLines : WvWait → Nat
  | .irq w => if bitsOf w 17 1 = 1 then 2 ^ bitsOf w 18 2 else 0
  | _ => 0

/-- Every weaver of a list passes its wait. -/
def State.wvPassAll (s : State) : List Nat → State
  | [] => s
  | n :: ns => State.wvPassAll (s.wvPass n) ns

/-- Union of the bits a function gives for each weaver. -/
def orAll (f : Nat → Nat) : List Nat → Nat
  | [] => 0
  | n :: ns => f n ||| orAll f ns

/-- At one tick every wait of the basket whose condition holds passes; their clears take effect after all of them; a clear may let others
pass at the next tick. The first number bounds the rounds. -/
def State.basketPass (s : State) (m : Nat) : Nat → State
  | 0 => s
  | k + 1 =>
    let ns := ((List.range 8).map (8 * m + ·)).filter fun n => s.rd (F.WVn_STAT_STATE n) == 1 && s.passes m (s.wvr n).wait
    if ns.isEmpty then s
    else
      let cf := orAll (fun n => (s.wvr n).wait.clearsFlags) ns
      let cl := orAll (fun n => (s.wvr n).wait.clearsLines) ns
      let s := s.wvPassAll ns
      let s := s.wr (F.BKm_FLAGS_FLAGS m) (s.flags m &&& (0xFFFF ^^^ cf))
      State.basketPass (s.setLines m (s.lines m &&& (0xF ^^^ cl))) m k

/-- BKm_FSET (R288). -/
def State.flagsSet (s : State) (m v : Nat) : State := (s.wr (F.BKm_FLAGS_FLAGS m) (s.flags m ||| v)).basketPass m 8

/-- Ones written to BKm_FLAGS clear flags. -/
def State.flagsClear (s : State) (m v : Nat) : State := (s.wr (F.BKm_FLAGS_FLAGS m) (s.flags m &&& (0xFFFF ^^^ v % 65536))).basketPass m 8

/-- Lines raised (R288). -/
def State.linesRaise (s : State) (m v : Nat) : State := (s.setLines m (s.lines m ||| v % 16)).basketPass m 8

/-! ### Shifts, drives and waits (R286 to R289) -/

/-- HALT (R272, R292). -/
def execHalt (n : Fin 128) (parityOk : Bool) (s : State) : Host.Outcome State Fault Refusal :=
  .next (s.wvIssue n.val 0 parityOk fun s _ =>
    let pc := s.rd (F.WVn_STAT_PC n.val)
    let s := (s.wvEnd n.val s.clock.tick).wr (F.WVn_STAT_HALTED n.val) 1
    if s.on (F.WVn_CTL_HALTEV n.val) then s.wvEvent n.val 3 n.val pc 0 else s)

/-- SHO. -/
def execSho (n : Fin 128) (parityOk : Bool) (s : State) : Host.Outcome State Fault Refusal :=
  .next (s.wvIssue n.val 1 parityOk fun s w => s.wvPace n.val w (groupsOf w + bitsOf w 4 4) [])

/-- SHI: the levels at the balls of lanes 0 to 7 at each sample instant are given. -/
def execShi (n : Fin 128) (parityOk : Bool) (samples : List Byte) (s : State) : Host.Outcome State Fault Refusal :=
  .next (s.wvIssue n.val 2 parityOk fun s w => (s.wr (F.WVn_SHIFT_SH n.val) 0).wvPace n.val w (groupsOf w + bitsOf w 4 4) samples)

/-- WPIN: a level that holds at the issue tick passes at once; an edge is awaited. -/
def execWpin (n : Fin 128) (parityOk : Bool) (levels : Byte) (s : State) : Host.Outcome State Fault Refusal :=
  .next (s.wvIssue n.val 3 parityOk fun s w =>
    let v := s.sense n.val (bitsOf w 17 3) (bitsOf levels.toNat (bitsOf w 17 3) 1 == 1)
    if bitsOf w 15 2 = b2n v then s else s.wvWait n.val (.pin w))

/-- The condition of a WPIN can come to hold: not on an unused lane, which senses 0 always (R296); in a bank without supply only the level that
its lanes then sense (R260). -/
def State.pinCan (s : State) (n word : Nat) : Bool :=
  let l := bitsOf word 17 3
  let high := bitsOf word 15 2 == 1 || bitsOf word 15 2 == 2
  if s.role n l = 7 then bitsOf word 15 2 == 0 else s.bankOn (s.rd (F.WVn_LANEl_PIN n l)) || high == s.inv n l

/-- WPIN_PASS: an edge that passes it is recorded. -/
def execWpinPass (n : Fin 128) (s : State) : Host.Outcome State Fault Refusal :=
  .next (match (s.wvr n.val).wait with
    | .pin w =>
      if !s.pinCan n.val w then s
      else
      let s := s.wvPass n.val
      if 2 ≤ bitsOf w 15 2 then s.record n.val (bitsOf w 17 3) (bitsOf w 15 2 == 3) else s
    | _ => s)

/-- WFLG. -/
def execWflg (n : Fin 128) (parityOk : Bool) (s : State) : Host.Outcome State Fault Refusal :=
  .next (s.wvIssue n.val 4 parityOk fun s w => (s.wvWait n.val (.flg w)).basketPass (n.val / 8) 8)

/-- WFLG_PASS: every WFLG of the basket whose flag has the awaited value passes. -/
def execWflgPass (m : Fin 16) (s : State) : Host.Outcome State Fault Refusal := .next (s.basketPass m.val 8)

/-- WIRQ. -/
def execWirq (n : Fin 128) (parityOk : Bool) (s : State) : Host.Outcome State Fault Refusal :=
  .next (s.wvIssue n.val 5 parityOk fun s w => (s.wvWait n.val (.irq w)).basketPass (n.val / 8) 8)

/-- WIRQ_PASS: every WIRQ of the basket waiting on a raised line passes on one tick. -/
def execWirqPass (m : Fin 16) (s : State) : Host.Outcome State Fault Refusal := .next (s.basketPass m.val 8)

/-- WTIM MODE 0 passes at this tick; with RST the divider restarts so that what follows starts at the next tick (R289). -/
def State.timPass (s : State) (n word : Nat) : State :=
  let s := s.wvPass n
  if bitsOf word 18 1 = 1 then s.rebase n (s.clock.tick + 1) (s.wvr n).div else s

/-- WTIM: MODE 1 holds for N bit-times; MODE 0 waits for TR, and one less than 16 ns away passes at the next tick. -/
def execWtim (n : Fin 128) (parityOk : Bool) (s : State) : Host.Outcome State Fault Refusal :=
  .next (s.wvIssue n.val 6 parityOk fun s w =>
    if bitsOf w 19 1 = 1 then s.wvPace n.val w (if bitsOf w 0 16 = 0 then 65536 else bitsOf w 0 16) []
    else if s.until (s.rd (F.WVn_TRS_SEC n.val)) (s.rd (F.WVn_TRNS_NS n.val)) 0 < 16 * (nsUnit : Int) then (s.ticks 1).timPass n.val w
    else s.wvWait n.val (.tim w))

/-- Ticks pass up to a number of ticks before a site time is reached: none if that is past. -/
def State.reachBefore (s : State) (sec ns k : Nat) : State :=
  if s.reached sec ns 0 then s else s.ticks (((s.until sec ns 0).toNat + s.tickStep - 1) / s.tickStep - k)

/-- WTIM_PASS: local time reaches TR; with RST the pass comes a tick before, and one more in a group with reach, so that the drive which
follows crosses the ball at TR (R289). -/
def execWtimPass (n : Fin 128) (s : State) : Host.Outcome State Fault Refusal :=
  .next (match (s.wvr n.val).wait with
    | .tim w =>
      (s.reachBefore (s.rd (F.WVn_TRS_SEC n.val)) (s.rd (F.WVn_TRNS_NS n.val))
        (if bitsOf w 18 1 = 1 then 1 + s.reachDelay n.val else 0)).timPass n.val w
    | _ => s)

/-- DRV. -/
def execDrv (n : Fin 128) (parityOk : Bool) (s : State) : Host.Outcome State Fault Refusal :=
  .next (s.wvIssue n.val 7 parityOk fun s w => s.wvPace n.val w (1 + bitsOf w 0 4) [])

/-! ### Queue instructions (R270, R291) -/

/-- TAKE as far as the transmit queue allows; whether it is done. TAKE TR takes two words. At a depth of 0 nothing is taken (R264). -/
def State.takeGo (s : State) (n dest : Nat) : State × Bool :=
  let w := s.wvr n
  match (if s.txCap n = 0 then [] else w.tx) with
  | [] => (s, false)
  | (tag, d) :: r =>
    if dest = 3 then
      if w.half then
        let s := (s.setWv n { w with tx := r, half := false, tg := tag }).wr (F.WVn_TRNS_NS n) d
        (s, true)
      else
        let s := (s.setWv n { w with tx := r, half := true }).wr (F.WVn_TRS_SEC n) d
        match r with
        | [] => (s, false)
        | (tag, d) :: r => ((s.setWv n { s.wvr n with tx := r, half := false, tg := tag }).wr (F.WVn_TRNS_NS n) d, true)
    else
      let f := if dest = 0 then F.WVn_SHIFT_SH n else if dest = 1 then F.WVn_SC_SC n else F.WVn_CN_CN n
      ((s.setWv n { w with tx := r, tg := tag }).wr f d, true)

/-- The value GIVE places: SH, SC, CN or TG. -/
def State.giveVal (s : State) (n src : Nat) : Nat :=
  match src with
  | 0 => s.rd (F.WVn_SHIFT_SH n)
  | 1 => s.rd (F.WVn_SC_SC n)
  | 2 => s.rd (F.WVn_CN_CN n)
  | _ => (s.wvr n).tg

/-- Words join the receive queue if all of them find places. -/
def State.giveGo (s : State) (n : Nat) (xs : List (Nat × Nat)) : State × Bool :=
  let w := s.wvr n
  if w.rx.length + xs.length ≤ s.rxCap n then (s.setWv n { w with rx := w.rx ++ xs }, true) else (s, false)

/-- The two words of STAMP (R265, R291). -/
def WvSt.stampWords (w : WvSt) : List (Nat × Nat) :=
  match w.last with
  | none => [(128, 0), (192, 0)]
  | some e => [(128 + b2n e.fall * 32 + e.lane * 4, e.sec), (192 + b2n e.fall * 32 + e.lane * 4, e.ns)]

/-- What a stalled instruction tries. -/
def State.queueGo (s : State) (n : Nat) : WvWait → State × Bool
  | .take w => s.takeGo n (bitsOf w 17 3)
  | .give w => s.giveGo n [(bitsOf w 11 6, s.giveVal n (bitsOf w 17 3))]
  | .stamp => s.giveGo n (s.wvr n).stampWords
  | _ => (s, false)

/-- A queue instruction acts at its issue tick, or the weaver stalls, its lanes holding their levels, clock lanes included (R270). -/
def State.queueOrStall (s : State) (n on : Nat) (x : WvWait) : State :=
  let (s, done) := s.queueGo n x
  if done then s
  else ((((s.setWv n { s.wvr n with rise := none }).wvWait n x).wr (F.WVn_STAT_STATE n) 2).wr (F.WVn_STAT_STALLON n) on).bump (F.WVn_STALLS_COUNT n)

/-- TAKE. -/
def execTake (n : Fin 128) (parityOk : Bool) (s : State) : Host.Outcome State Fault Refusal :=
  .next (s.wvIssue n.val 8 parityOk fun s w => s.queueOrStall n.val 1 (.take w))

/-- GIVE. -/
def execGive (n : Fin 128) (parityOk : Bool) (s : State) : Host.Outcome State Fault Refusal :=
  .next (s.wvIssue n.val 9 parityOk fun s w => s.queueOrStall n.val 2 (.give w))

/-- STAMP. -/
def execStamp (n : Fin 128) (parityOk : Bool) (s : State) : Host.Outcome State Fault Refusal :=
  .next (s.wvIssue n.val 0xA parityOk fun s _ => s.queueOrStall n.val 2 .stamp)

/-- STALL_END (R270): the weaver leaves its stall at the first boundary at least one tick on. -/
def execStallEnd (n : Fin 128) (s : State) : Host.Outcome State Fault Refusal :=
  .next (if s.rd (F.WVn_STAT_STATE n.val) = 2 then
      let (s, done) := s.queueGo n.val (s.wvr n.val).wait
      if done then
        let s := s.ticksTo ((s.wvr n.val).boundary (s.clock.tick + 1))
        ((s.wvPass n.val).wr (F.WVn_STAT_STATE n.val) 1).wr (F.WVn_STAT_STALLON n.val) 0
      else s
    else s)

/-! ### Counting (R290) -/

/-- The edge at a lane is one that EDGE selects, as the lane senses it. -/
def State.edgeCounts (s : State) (n word : Nat) (falling : Bool) : Bool :=
  let l := bitsOf word 17 3
  let fall := falling ^^ s.inv n l
  s.role n l != 7 && s.bankOn (s.rd (F.WVn_LANEl_PIN n l)) &&
    (if fall then bitsOf word 15 2 == 2 || bitsOf word 15 2 == 3 else bitsOf word 15 2 == 1 || bitsOf word 15 2 == 3)

/-- Within the window of MODE 0. -/
def State.inWindow (s : State) (n : Nat) : Bool :=
  match (s.wvr n).busy with
  | none => true
  | some b => decide ((s.wvr n).bitTick b b.i0 ≤ s.clock.tick || 0 < b.i0) && decide (s.clock.tick < (s.wvr n).endTick b)

/-- Edges seen one after the other while CNT runs: each counted one adds 1 to CN and is recorded; MODE 1 passes when CN equals SC after
an increment. -/
def State.countEdges (s : State) (n word : Nat) : List Edge → State
  | [] => s
  | e :: es =>
    let s := s.ticks e.after
    if (s.wvr n).wait = .cnt word && s.edgeCounts n word e.falling && s.inWindow n then
      let s := s.wr (F.WVn_CN_CN n) (s.rd (F.WVn_CN_CN n) + 1)
      let s := s.record n (bitsOf word 17 3) (e.falling ^^ s.inv n (bitsOf word 17 3))
      let s := if bitsOf word 14 1 = 1 && s.rd (F.WVn_CN_CN n) == s.rd (F.WVn_SC_SC n) then s.wvPass n else s
      State.countEdges s n word es
    else State.countEdges s n word es

/-- CNT. -/
def execCnt (n : Fin 128) (parityOk : Bool) (seen : List Edge) (s : State) : Host.Outcome State Fault Refusal :=
  .next (s.wvIssue n.val 0xB parityOk fun s w =>
    let s := if bitsOf w 13 1 = 1 then s.wr (F.WVn_CN_CN n.val) 0 else s
    let s := if bitsOf w 14 1 = 1 then s else s.wvPace n.val w (if bitsOf w 0 12 = 0 then 4096 else bitsOf w 0 12) []
    (s.wvWait n.val (.cnt w)).countEdges n.val w seen)

/-- CNT_PASS: further edges, and in MODE 0 the end of the window. -/
def execCntPass (n : Fin 128) (seen : List Edge) (s : State) : Host.Outcome State Fault Refusal :=
  .next (match (s.wvr n.val).wait with
    | .cnt w =>
      let s := s.countEdges n.val w seen
      match (s.wvr n.val).busy with
      | some b =>
        let t := (s.wvr n.val).freeTick b
        let s := s.ticksTo t
        s.setWv n.val { s.wvr n.val with wait := .none, busy := none, free := t }
      | none => s
    | _ => s)

/-! ### Control (R284, R285, R292) -/

/-- LOOP. -/
def execLoop (n : Fin 128) (parityOk : Bool) (s : State) : Host.Outcome State Fault Refusal :=
  .next (s.wvIssue n.val 0xC parityOk fun s w =>
    let f := if bitsOf w 19 1 = 1 then F.WVn_LOOP_L1 n.val else F.WVn_LOOP_L0 n.val
    let v := (s.rd f + 65535) % 65536
    let s := s.wr f v
    if v = 0 then s else s.wvJump n.val (bitsOf w 0 6))

/-- COND of BR (R284). -/
def State.brHolds (s : State) (n word levels : Nat) : Bool :=
  let sh := s.rd (F.WVn_SHIFT_SH n)
  let sc := s.rd (F.WVn_SC_SC n)
  let cn := s.rd (F.WVn_CN_CN n)
  let a := bitsOf word 12 3
  let late := decide (s.until (s.rd (F.WVn_TRS_SEC n)) (s.rd (F.WVn_TRNS_NS n)) 0 ≤ 20 * (nsUnit : Int))
  match bitsOf word 16 4 with
  | 0x0 => true
  | 0x1 => sh == 0
  | 0x2 => sh != 0
  | 0x3 => sc == sh
  | 0x4 => sc != sh
  | 0x5 => cn == 0
  | 0x6 => cn != 0
  | 0x7 => decide (sc ≤ cn)
  | 0x8 => s.sense n a (bitsOf levels a 1 == 1)
  | 0x9 => !s.sense n a (bitsOf levels a 1 == 1)
  | 0xA => bitsOf (s.wvr n).tg a 1 == 1
  | 0xB => bitsOf (s.wvr n).tg a 1 == 0
  | 0xC => bitsOf (s.flags (n / 8)) (bitsOf word 12 4) 1 == 1
  | 0xD => !(s.wvr n).tx.isEmpty
  | 0xE => late
  | _ => !late

/-- BR. -/
def execBr (n : Fin 128) (parityOk : Bool) (levels : Byte) (s : State) : Host.Outcome State Fault Refusal :=
  .next (s.wvIssue n.val 0xD parityOk fun s w => if s.brHolds n.val w levels.toNat then s.wvJump n.val (bitsOf w 0 6) else s)

/-- SYNC: its OWN flag is set at its issue tick, then it waits. -/
def execSyncInstruction (n : Fin 128) (parityOk : Bool) (s : State) : Host.Outcome State Fault Refusal :=
  .next (s.wvIssue n.val 0xE parityOk fun s w => (s.wvWait n.val (.sync w)).flagsSet (n.val / 8) (2 ^ bitsOf w 16 4))

/-- SYNC_INSTRUCTION_PASS: every SYNC of the basket whose condition holds passes, its OWN flag clearing. -/
def execSyncInstructionPass (m : Fin 16) (s : State) : Host.Outcome State Fault Refusal := .next (s.basketPass m.val 8)

/-- SET (R285). -/
def State.setGo (s : State) (n tgt imm : Nat) : State :=
  let high (f : Fld) : State := s.wr f (imm * 65536 + s.rd f % 65536)
  match tgt with
  | 0x0 => s.wr (F.WVn_SHIFT_SH n) imm
  | 0x1 => high (F.WVn_SHIFT_SH n)
  | 0x2 => s.wr (F.WVn_SC_SC n) imm
  | 0x3 => high (F.WVn_SC_SC n)
  | 0x4 => s.wr (F.WVn_CN_CN n) imm
  | 0x5 => high (F.WVn_CN_CN n)
  | 0x6 => s.wr (F.WVn_LOOP_L0 n) imm
  | 0x7 => s.wr (F.WVn_LOOP_L1 n) imm
  | 0x8 => if s.rd (F.WVn_STAT_DIVACT n) = imm % 2 then s else (s.wr (F.WVn_STAT_DIVACT n) imm).divChange n
  | 0x9 => s.eachLane (fun s l => if bitsOf imm (8 + l) 1 = 1 then s.lanePut n l s.clock.tick (bitsOf imm l 1 == 1) else s) (s.lanesOf n 3)
  | 0xA => s.eachLane (fun s l => if bitsOf imm l 1 = 1 then s.laneEnable n l s.clock.tick else s.laneFloat n l s.clock.tick) (List.range 8)
  | 0xB => s.linesRaise (bitsOf imm 2 4) (2 ^ bitsOf imm 0 2)
  | 0xC => s.setWv n { s.wvr n with tg := imm % 256 }
  | _ => s

/-- SET. -/
def execSet (n : Fin 128) (parityOk : Bool) (s : State) : Host.Outcome State Fault Refusal :=
  .next (s.wvIssue n.val 0xF parityOk fun s w => s.setGo n.val (bitsOf w 16 4) (bitsOf w 0 16))

end Sys2Proof.Machine
end

