-- ==== Sys2Proof/Machine/Can.lean ====
section
/-! DEFINITION. The CAN FD controllers (chapter 11). What happens on the bus bit by bit is the world's: the commands say when an SOF is
sampled, how an attempt ends, which frame came. -/

namespace Sys2Proof.Machine

/-- A controller. -/
def State.canOf (s : State) (k : Nat) : CanSt := Tbl.get CanSt.init k s.can

def State.setCan (s : State) (k : Nat) (c : CanSt) : State := { s with can := Tbl.put CanSt.init k c s.can }

/-! ### Lengths and order (R304, R305) -/

/-- Data bytes of a DLC. -/
def dlcLen (fdf : Bool) (dlc : Nat) : Nat :=
  if dlc ≤ 8 then dlc
  else if fdf then [12, 16, 20, 24, 32, 48, 64].getD (dlc - 9) 64 else 8

/-- Data bytes a buffer holds, from its data words. -/
def State.canData (s : State) (k b : Nat) : List Byte := (List.range 16).flatMap fun i => leBytes (s.rd (F.CFk_TBb_DATAi_DATA k b i)) 4

/-- The frame a buffer holds. -/
def State.canFrame (s : State) (k b : Nat) : CanFrame :=
  let fdf := s.on (F.CFk_TBb_CTL_FDF k b)
  let rtr := s.on (F.CFk_TBb_CTL_RTR k b)
  let dlc := s.rd (F.CFk_TBb_CTL_DLC k b)
  { id := BitVec.ofNat 29 (s.rd (F.CFk_TBb_ID_ID k b)), ide := s.on (F.CFk_TBb_ID_IDE k b), fdf := fdf, brs := s.on (F.CFk_TBb_CTL_BRS k b),
    esi := decide (128 ≤ (s.canOf k).tec) || decide (128 ≤ (s.canOf k).recv), rtr := rtr, dlc := BitVec.ofNat 4 dlc,
    data := if rtr then [] else (s.canData k b).take (dlcLen fdf dlc) }

/-- The arbitration field as sent, as a number: base identifier, SRR or RTR, IDE, extended identifier, RTR (R305). The smallest wins. -/
def CanFrame.arb (f : CanFrame) : Nat :=
  let id := f.id.toNat
  if f.ide then (((id / 2 ^ 18 * 2 + 1) * 2 + 1) * 2 ^ 18 + id % 2 ^ 18) * 2 + b2n f.rtr
  else ((id % 2048 * 2 + b2n f.rtr) * 2) * 2 ^ 19

/-- STATUS of a buffer. -/
def State.tbStatus (s : State) (k b : Nat) : Nat := s.rd (F.CFk_TBb_STAT_STATUS k b)

/-- A buffer is requested. -/
def State.requested (s : State) (k b : Nat) : Bool := bitsOf (s.rd (F.CFk_TXREQ_REQ k)) b 1 == 1

/-- SEC, NS of a buffer's deadline: launch time plus LTOL µs (R309). -/
def State.canDeadline (s : State) (k b : Nat) : Nat × Nat :=
  let ns := s.rd (F.CFk_TBb_LTNS_NS k b) + s.rd (F.CFk_TBb_LTOL_US k b) * 1000
  (s.rd (F.CFk_TBb_LTS_SEC k b) + ns / secNs, ns % secNs)

/-- The deadline of a launched buffer has passed. -/
def State.canExpired (s : State) (k b : Nat) : Bool :=
  s.on (F.CFk_TBb_CTL_LTEN k b) && s.reached (s.canDeadline k b).1 (s.canDeadline k b).2 0

/-- A requested, pending buffer whose launch time, if it has one, is reached (R305, R308); an FD frame needs FDOE (R297). -/
def State.canEligible (s : State) (k b : Nat) : Bool :=
  s.requested k b && s.tbStatus k b == 1 && (!s.on (F.CFk_TBb_CTL_FDF k b) || s.on (F.CFk_MODE_FDOE k)) &&
    (!s.on (F.CFk_TBb_CTL_LTEN k b) || s.reached (s.rd (F.CFk_TBb_LTS_SEC k b)) (s.rd (F.CFk_TBb_LTNS_NS k b)) 0)

/-- The smaller of two candidates by arbitration, the first of equals. -/
def better (a b : Nat × Nat) : Nat × Nat := if b.1 < a.1 then b else a

/-- The buffer the controller chooses (R305). -/
def State.canChoose (s : State) (k : Nat) : Option Nat :=
  let cs := [0, 1, 2].filter (s.canEligible k ·)
  if s.on (F.CFk_MODE_TXORD k) then cs.head?
  else
    match cs.map fun b => ((s.canFrame k b).arb, b) with
    | [] => none
    | x :: xs => some (xs.foldl better x).2

/-! ### Events and endings (R306, R311, R314, R342) -/

/-- A pending event joins or replaces the one that stands for the same thing. -/
def pendPut (key : Nat) (e : Word × Word × Word) : List (Nat × (Word × Word × Word)) → List (Nat × (Word × Word × Word))
  | [] => [(key, e)]
  | (j, x) :: t => if j = key then (j, e) :: t else (j, x) :: pendPut key e t

/-- A CAN event: admitted, or kept as the one pending event of its receive entry, transmit buffer or controller while EQ_HWM_N is
asserted; a replaced error-state event is counted in EQ_MERGED (R342). -/
def State.canEvent (s : State) (key code detail w2 w3 : Nat) : State :=
  if s.throttled then
    let s := if code = 3 && s.eq.canPend.any fun x => x.1 == key then s.bump F.EQ_MERGED_COUNT else s
    { s with eq := { s.eq with
      canPend := pendPut key (eqWord0 (s.rd (F.EQ_RTs_PRI 2)) 2 code detail, BitVec.ofNat 32 w2, BitVec.ofNat 32 w3) s.eq.canPend } }
  else s.event 2 code detail w2 w3

/-- A buffer ends with a status: its request clears; with TXEV an event (R306). -/
def State.tbEnd (s : State) (k b status : Nat) : State :=
  let s := s.wr (F.CFk_TBb_STAT_STATUS k b) status
  let s := s.wr (F.CFk_TXREQ_REQ k) (setBits (s.rd (F.CFk_TXREQ_REQ k)) b 1 0)
  let s := s.setCan k { s.canOf k with held := setBits (s.canOf k).held b 1 0 }
  if s.on (F.CFk_MODE_TXEV k) then s.canEvent (1024 + k * 4 + b) 2 (k + b * 16 + status * 256) (s.rd (F.CFk_TBb_TS_STAMP k b)) 0 else s

/-- The frame in progress has ended: a waiting INIT takes the controller off the bus (R303). -/
def State.canFrameOver (s : State) (k : Nat) : State :=
  let c := s.canOf k
  let s := s.setCan k { c with inFrame := false, stopping := false, filters := none }
  if c.stopping then s.wr (F.CFk_MODE_INITACT k) 1 else s

/-- TEC and REC as CFk_ERR shows them, the error state they give (recovery aside), the warning (R314). -/
def State.errShow (s : State) (k state : Nat) : State :=
  let c := s.canOf k
  let s := (s.wr (F.CFk_ERR_TEC k) (min c.tec 255)).wr (F.CFk_ERR_REC k) (min c.recv 128)
  (s.wr (F.CFk_ERR_STATE k) state).wr (F.CFk_ERR_WARN k) (b2n (decide (96 ≤ c.tec) || decide (96 ≤ c.recv)))

/-- Buffers ended one after the other at bus-off (R315). -/
def State.tbsBusOff (s : State) (k : Nat) : List Nat → State
  | [] => s
  | b :: bs => State.tbsBusOff (if s.requested k b then s.tbEnd k b 10 else s) k bs

/-- Bus-off takes effect: an attempt in progress ends with its SOF stamp, every requested buffer ends BUSOFF (R306, R313, R315). -/
def State.canOff (s : State) (k : Nat) : State :=
  let s := match (s.canOf k).active with
    | some b => s.wr (F.CFk_TBb_TS_STAMP k b) (s.canOf k).sof
    | none => s
  let s := (s.tbsBusOff k [0, 1, 2]).bump (F.CFk_BUSOFF_COUNT k)
  s.setCan k { s.canOf k with active := none }

/-- The counters take new values: state, warning, and the event of a change of state or a crossing of 96; bus-off, from which autonomous policy
recovers at once (R314, R315). -/
def State.canCounts (s : State) (k tec rcv : Nat) : State :=
  let c := s.canOf k
  let was := s.rd (F.CFk_ERR_STATE k)
  let crossed := decide (96 ≤ c.tec) != decide (96 ≤ tec) || decide (96 ≤ c.recv) != decide (96 ≤ rcv)
  let state := if 255 < tec then 2 else if 2 ≤ was then was else if 128 ≤ tec || 128 ≤ rcv then 1 else 0
  let off := decide (255 < tec) && decide (was < 2)
  let s := (s.setCan k { c with tec := tec, recv := rcv }).errShow k state
  let s := if off then s.canOff k else s
  let s := if crossed || state != was then
      s.canEvent (2048 + k) 3 (k + s.rd (F.CFk_ERR_STATE k) * 256 + s.rd (F.CFk_ERR_WARN k) * 1024) (s.reg (F.CFk_ERR_TEC k).key).toNat 0
    else s
  if off && !s.on F.NC_MODE_POLICY then s.wr (F.CFk_ERR_STATE k) 3 else s

/-- The controller takes part in bus traffic: not in INIT, not integrating, not bus-off, its clock running (R298, R384). -/
def State.canOnBus (s : State) (k : Nat) : Bool :=
  s.clocked 0 && !s.on (F.CFk_MODE_INITACT k) && !(s.canOf k).integrating && decide (s.rd (F.CFk_ERR_STATE k) < 2)

/-! ### INIT (R303) -/

/-- INIT := 1. -/
def State.canStop (s : State) (k : Nat) : State :=
  let s := s.wr (F.CFk_MODE_INIT k) 1
  if (s.canOf k).inFrame then s.setCan k { s.canOf k with stopping := true } else s.wr (F.CFk_MODE_INITACT k) 1

/-- INIT := 0: bus integration starts. -/
def State.canJoin (s : State) (k : Nat) : State := (s.wr (F.CFk_MODE_INIT k) 0).setCan k { s.canOf k with stopping := false }

/-- The UNIT splint holds a preset of CFk_MODE with INIT = 0 (R303). -/
def State.canEnabled (s : State) (k : Nat) : Bool :=
  match s.weave with
  | none => false
  | some w => w.presets.any fun p => p.cls == 5 && p.off == 0x8000 * k && p.value % 2 == 0

/-- CAN_INTEGRATION_DONE. -/
def execCanIntegrationDone (k : Fin 8) (s : State) : Host.Outcome State Fault Refusal :=
  .next (if s.on (F.CFk_MODE_INIT k.val) then s
    else (s.wr (F.CFk_MODE_INITACT k.val) 0).setCan k.val { s.canOf k.val with integrating := false })

/-! ### Transmitting (R304 to R309) -/

/-- A request of one buffer; one whose deadline has passed is late (R304, R309). -/
def State.canRequest (s : State) (k b : Nat) : State :=
  if s.requested k b then s
  else
    let s := (s.wr (F.CFk_TXREQ_REQ k) (setBits (s.rd (F.CFk_TXREQ_REQ k)) b 1 1)).wr (F.CFk_TBb_STAT_STATUS k b) 1
    if s.canExpired k b then (s.bump (F.CFk_LATE_COUNT k)).tbEnd k b 9 else s

/-- A cancel of one buffer (R307): before the commit it wins; after it, it is late and held against the buffer. -/
def State.canCancel (s : State) (k b : Nat) : State :=
  if !s.requested k b then s
  else if s.tbStatus k b = 2 then
    let s := (s.wr (F.CFk_TBb_STAT_CANOUT k b) 2).bump (F.CFk_LATE_COUNT k)
    s.setCan k { s.canOf k with held := setBits (s.canOf k).held b 1 1 }
  else (s.wr (F.CFk_TBb_STAT_CANOUT k b) 1).tbEnd k b 4

/-- Buffers of a mask, one after the other. -/
def State.eachTb (s : State) (f : State → Nat → State) (mask : Nat) : List Nat → State
  | [] => s
  | b :: bs => State.eachTb (if bitsOf mask b 1 = 1 then f s b else s) f mask bs

/-- The deadline of a pending buffer wins (R309). -/
def State.canExpire (s : State) (k b : Nat) : State :=
  ((s.wr (F.CFk_TBb_STAT_LOUT k b) 2).bump (F.CFk_LEXP_COUNT k)).tbEnd k b 9

/-- Pending buffers whose deadline has passed end before a commit. -/
def State.canSweep (s : State) (k : Nat) : List Nat → State
  | [] => s
  | b :: bs => State.canSweep (if s.requested k b && s.tbStatus k b == 1 && s.canExpired k b then s.canExpire k b else s) k bs

/-- A filter register set, as it stands. -/
def State.filterOf (s : State) (k f : Nat) : CanFilter :=
  { fid := s.rd (F.CFk_FIDf_FID k f), mask := s.rd (F.CFk_FMASKf_MASK k f), cfg := (s.reg (F.CFk_FCFGf_EN k f).key).toNat }

/-- CAN_COMMIT: the SOF sample point, whoever sent the SOF: the stamp is taken, and the chosen buffer becomes ACTIVE (R305, R309, R313). In
internal loopback only the controller itself can have sent it (R302). -/
def execCanCommit (k : Fin 8) (s : State) : Host.Outcome State Fault Refusal :=
  let k := k.val
  .next (if !s.canOnBus k || (s.canOf k).inFrame then s
    else if s.rd (F.CFk_MODE_OPMODE k) = 3 && ((s.canSweep k [0, 1, 2]).canChoose k).isNone then s.canSweep k [0, 1, 2]
    else
      let s := s.setCan k { s.canOf k with
        inFrame := true, sof := s.clock.tick % 2 ^ 32, filters := some ((List.range 32).map (s.filterOf k ·)) }
      if s.rd (F.CFk_MODE_OPMODE k) = 0 || s.rd (F.CFk_MODE_OPMODE k) = 3 then
        let s := s.canSweep k [0, 1, 2]
        match s.canChoose k with
        | none => s
        | some b =>
          let s := s.wr (F.CFk_TBb_STAT_STATUS k b) 2
          let s := if s.on (F.CFk_TBb_CTL_LTEN k b) then s.wr (F.CFk_TBb_STAT_LOUT k b) 1 else s
          let s := s.setCan k { s.canOf k with active := some b }
          if s.rd (F.CFk_MODE_OPMODE k) = 0 then s.emit (.can k (s.canFrame k b)) else s
      else s)

/-- Errors counted as ISO 11898-1 lays down: a receiver adds 1, or 8; a transmitter adds 8, but nothing in the two exceptions, for which
`plusEight` is false: a missing ACK while error passive with no dominant bit seen during its error flag, and a stuff error within arbitration at
a stuff bit sent recessive. In restricted operation the counters stand, and it waits for 11 recessive bits (R302). -/
def State.canErrCount (s : State) (k : Nat) (err : CanErr) (transmitter plusEight : Bool) : State :=
  let lec := match err with
    | .stuff => 1 | .form => 2 | .resRecessive => 2 | .ack => 3 | .bit1 => 4 | .bit0 => 5 | .crc => 6 | .tdcRange => 7
  let s := s.wr (F.CFk_ERR_LEC k) lec
  let c := s.canOf k
  let m := s.rd (F.CFk_MODE_OPMODE k)
  let exempt := !plusEight && (decide (err = .stuff) || (decide (err = .ack) && s.rd (F.CFk_ERR_STATE k) == 1))
  let s := if m = 1 then s.setCan k { c with integrating := true }
    else if m = 2 then s
    else if transmitter then if exempt then s else s.canCounts k (c.tec + 8) c.recv
    else s.canCounts k c.tec (min (c.recv + (if plusEight then 8 else 1)) 255)
  if (s.canOf k).active.isNone then s.canFrameOver k else s

/-- An attempt of a buffer ends (R306, R307). -/
def State.attemptEnd (s : State) (k b : Nat) (how : CanEnd) : State :=
  let c := s.canOf k
  let s := (s.setCan k { c with active := none }).wr (F.CFk_TBb_TS_STAMP k b) c.sof
  let late := bitsOf c.held b 1 == 1
  let one := s.on (F.CFk_TBb_CTL_ONESHOT k b)
  let again := s.wr (F.CFk_TBb_STAT_STATUS k b) 1
  let s := match how with
    | .sent =>
      let s := if one then s else s.bump (F.CFk_TXOK_COUNT k)
      let s := s.tbEnd k b (if late then 6 else 3)
      if c.tec = 0 then s else s.canCounts k (c.tec - 1) c.recv
    | .arbitrationLost =>
      if late then (s.bump (F.CFk_ARBLOST_COUNT k)).tbEnd k b 5
      else if one then (s.bump (F.CFk_ARBLOST_COUNT k)).tbEnd k b 7
      else again.bump (F.CFk_ARBLOST_COUNT k)
    | .error =>
      if late then s.tbEnd k b 5
      else if one then s.tbEnd k b 8
      else again
  if how = .arbitrationLost then s else s.canFrameOver k

/-- CAN_ATTEMPT_END; the loop delay measured in the attempt, if one was: above 127 CAN clocks it is a bit error (R301). -/
def execCanAttemptEnd (k : Fin 8) (how : CanEnd) (loopDelay : Option Byte) (s : State) : Host.Outcome State Fault Refusal :=
  let k := k.val
  .next (match (s.canOf k).active with
    | none => s
    | some b =>
      match (if s.on (F.CFk_MODE_TDCEN k) && s.on (F.CFk_TBb_CTL_FDF k b) && s.on (F.CFk_TBb_CTL_BRS k b) then loopDelay else none) with
      | none => s.attemptEnd k b how
      | some d =>
        let s := s.wr (F.CFk_TDC_MEAS k) d.toNat
        if d.toNat ≤ 127 then s.attemptEnd k b how
        else
          let s := s.canErrCount k .tdcRange true true
          if (s.canOf k).active = some b then s.attemptEnd k b .error else s)

/-- CAN_LAUNCH_TIME (R308). -/
def execCanLaunchTime (k : Fin 8) (b : Fin 3) (s : State) : Host.Outcome State Fault Refusal :=
  .next (if s.requested k.val b.val && s.on (F.CFk_TBb_CTL_LTEN k.val b.val) then
      s.reach (s.rd (F.CFk_TBb_LTS_SEC k.val b.val)) (s.rd (F.CFk_TBb_LTNS_NS k.val b.val)) 0
    else s)

/-- CAN_LAUNCH_DEADLINE (R309): before the commit the deadline wins. -/
def execCanLaunchDeadline (k : Fin 8) (b : Fin 3) (s : State) : Host.Outcome State Fault Refusal :=
  .next (if s.requested k.val b.val && s.tbStatus k.val b.val == 1 && s.on (F.CFk_TBb_CTL_LTEN k.val b.val) then
      (s.reach (s.canDeadline k.val b.val).1 (s.canDeadline k.val b.val).2 0).canExpire k.val b.val
    else s)

/-! ### Receiving (R310 to R313) -/

/-- A filter matches a frame. -/
def CanFilter.fits (f : CanFilter) (x : CanFrame) : Bool :=
  let ide := bitsOf f.cfg 1 2
  let bits := if x.ide then 2 ^ 29 - 1 else 2047
  bitsOf f.cfg 0 1 == 1 && (if x.ide then ide == 1 || ide == 2 else ide == 0 || ide == 2) &&
    (((x.id.toNat ^^^ f.fid) &&& f.mask) &&& bits) == 0 && (!x.rtr || bitsOf f.cfg 4 1 == 1)

/-- The first filter that matches, with its number. -/
def firstFit (x : CanFrame) : List CanFilter → Nat → Option (Nat × CanFilter)
  | [], _ => none
  | f :: fs, i => if f.fits x then some (i, f) else firstFit x fs (i + 1)

/-- Data words of an entry: byte i in lane i mod 4 of word i / 4. -/
def dataWords (bs : List Byte) : List Word := (List.range 16).map fun i => BitVec.ofNat 32 (leNat (slice bs (4 * i) 4))

/-- The words of a receive entry (R312). -/
def rxWords (x : CanFrame) (filter : Nat) (unmatched : Bool) (stamp seq : Nat) : List Word :=
  let len := if x.rtr then 0 else dlcLen x.fdf x.dlc.toNat
  [ BitVec.ofNat 32 ((if x.ide then x.id.toNat else x.id.toNat % 2048) + b2n x.ide * 2 ^ 29 + 2 ^ 31),
    BitVec.ofNat 32 (x.dlc.toNat + b2n x.fdf * 16 + b2n x.brs * 32 + b2n x.esi * 64 + b2n x.rtr * 128 + len * 256 + filter * 2 ^ 15
      + b2n unmatched * 2 ^ 20),
    BitVec.ofNat 32 stamp, BitVec.ofNat 32 seq ] ++ dataWords (x.data.take len)

/-- An accepted frame takes the next entry in ring order if hardware owns it, or is dropped as an overrun (R311). -/
def State.canDeliver (s : State) (k : Nat) (x : CanFrame) (filter : Nat) (unmatched : Bool) (stamp : Nat) : State :=
  let c := s.canOf k
  let seq := (c.seq + 1) % 65536
  let s := s.setCan k { c with seq := seq }
  let owned := s.rd (F.CFk_RXSTAT_OWNED k)
  let e := (s.rd (F.CFk_RXSTAT_HEAD k) + owned) % 64
  if owned < 64 then
    let ws := rxWords x filter unmatched stamp seq
    let s := s.setCan k { s.canOf k with rx := Tbl.put [] e ws (s.canOf k).rx, spoiled := (s.canOf k).spoiled.filter (· != e) }
    let s := (s.wr (F.CFk_RXSTAT_OWNED k) (owned + 1)).bump (F.CFk_RXOK_COUNT k)
    if s.on (F.CFk_MODE_RXEV k) then s.canEvent (k * 64 + e) 1 (k + e * 256) (ws.getD 0 0).toNat stamp else s
  else s.bump (F.CFk_RXOVR_COUNT k)

/-- REC after a frame received without error, as ISO 11898-1 lays down: one less, and from above 127 some value from 119 to 127. -/
def State.recGood (s : State) (k : Nat) : State :=
  let c := s.canOf k
  if c.recv = 0 then s
  else if c.recv ≤ 127 then s.canCounts k c.tec (c.recv - 1)
  else (s.canCounts k c.tec (119 + s.freeW.toNat % 9)).used

/-- A valid frame whose SOF was stamped is passed through the filters as they stood then (R310, R313). -/
def State.canTake (s : State) (k : Nat) (f : CanFrame) (fs : List CanFilter) : State :=
  let sof := (s.canOf k).sof
  let s := s.setCan k { s.canOf k with filters := none }
  match firstFit f fs 0 with
  | some (i, x) => if bitsOf x.cfg 3 1 = 1 then s.bump (F.CFk_RXREJ_COUNT k) else s.canDeliver k f i false sof
  | none => if s.on (F.CFk_MODE_RXDEF k) then s.bump (F.CFk_RXREJ_COUNT k) else s.canDeliver k f 31 true sof

/-- CAN_FRAME_RECEIVED (R297, R302, R310 to R312): a frame that another node sent; in internal loopback, which takes nothing from the bus, the
frame that the controller is sending. -/
def execCanFrameReceived (k : Fin 8) (f : CanFrame) (s : State) : Host.Outcome State Fault Refusal :=
  let k := k.val
  let m := s.rd (F.CFk_MODE_OPMODE k)
  .next (match (if s.canOnBus k then (s.canOf k).filters else none) with
    | none => s
    | some fs =>
      match (s.canOf k).active with
      | some b => if m = 3 then s.canTake k (s.canFrame k b) fs else s
      | none =>
        if m = 3 then s
        else if f.fdf && !s.on (F.CFk_MODE_FDOE k) then s.canErrCount k .form false false
        else
          let s := s.canTake k f fs
          (if m = 0 then s.recGood k else s).canFrameOver k)

/-- COUNT entries handed back to hardware, oldest first (R311). -/
def State.canAck (s : State) (k n : Nat) : State :=
  (s.wr (F.CFk_RXSTAT_OWNED k) (s.rd (F.CFk_RXSTAT_OWNED k) - n)).wr (F.CFk_RXSTAT_HEAD k) ((s.rd (F.CFk_RXSTAT_HEAD k) + n) % 64)

/-- Software owns entry e. -/
def State.canOwned (s : State) (k e : Nat) : Bool :=
  decide ((e + 64 - s.rd (F.CFk_RXSTAT_HEAD k)) % 64 < s.rd (F.CFk_RXSTAT_OWNED k))

/-- Entries of which words at a place fail parity as they are read (R312). -/
def State.canSpoil (s : State) (k : Nat) (es : List Nat) : State :=
  s.setCan k { s.canOf k with spoiled := (s.canOf k).spoiled ++ es.filter fun e => !(s.canOf k).spoiled.contains e }

/-- Word i of entry e: VALID only while software owns it, POISON once a word of it has failed parity (R312). -/
def State.canRxWord (s : State) (k e i : Nat) : Word :=
  let v := (Tbl.get [] e (s.canOf k).rx).getD i 0
  if i = 0 then BitVec.ofNat 32 (v.toNat % 2 ^ 30 + b2n ((s.canOf k).spoiled.contains e) * 2 ^ 30 + b2n (s.canOwned k e) * 2 ^ 31) else v

/-! ### Fault confinement (R314, R315) -/

/-- CAN_ERROR. -/
def execCanError (k : Fin 8) (err : CanErr) (transmitter plusEight : Bool) (s : State) : Host.Outcome State Fault Refusal :=
  let k := k.val
  .next (if !s.canOnBus k then s
    else if decide (err = .resRecessive) && !s.on (F.CFk_MODE_PXD k) then
      ((s.bump (F.CFk_PXE_COUNT k)).setCan k { s.canOf k with integrating := true }).canFrameOver k
    else s.canErrCount k err transmitter plusEight)

/-- RECOVER (R315): under directed policy at bus-off recovery starts. -/
def State.canRecoverNow (s : State) (k : Nat) : State :=
  if s.on F.NC_MODE_POLICY && s.rd (F.CFk_ERR_STATE k) == 2 then s.wr (F.CFk_ERR_STATE k) 3 else s

/-- CAN_RECOVERY_DONE. -/
def execCanRecoveryDone (k : Fin 8) (s : State) : Host.Outcome State Fault Refusal :=
  let k := k.val
  .next (if s.rd (F.CFk_ERR_STATE k) = 3 then
      let s := (s.setCan k { s.canOf k with tec := 0, recv := 0 }).errShow k 0
      s.canEvent (2048 + k) 3 k (s.reg (F.CFk_ERR_TEC k).key).toNat 0
    else s)

end Sys2Proof.Machine
end

