-- ==== Sys2Proof/Machine/EventQueue.lean ====
section
/-! DEFINITION. The event queue: pushes, pops, the ring forwarder, event cells (chapter 13). Admission stands in Ops.lean. -/

namespace Sys2Proof.Machine

/-! ### Removal and the throttle (R342, R348) -/

/-- Pending CAN events are admitted while the throttle is off (R342). -/
def State.canFlush (s : State) : List (Nat × (Word × Word × Word)) → State
  | [] => { s with eq := { s.eq with canPend := [] } }
  | (key, (w0, w2, w3)) :: r =>
    if s.throttled then { s with eq := { s.eq with canPend := (key, (w0, w2, w3)) :: r } }
    else
      State.canFlush (if s.eq.entries.length < 4096 then s.eqPut 2 w0 w2 w3
        else (s.bump F.EQ_LOST_COUNT).wr F.EQ_LOSTSRC_SRC (s.rd F.EQ_LOSTSRC_SRC ||| 4)) r

/-- Events that wait are admitted while the throttle is off. -/
def State.waitsFlush (s : State) : List (Nat × Nat × Nat × Nat × Nat × Nat) → State
  | [] => { s with eq := { s.eq with waits := [] } }
  | (pri, src, code, detail, w2, w3) :: r =>
    if s.throttled then { s with eq := { s.eq with waits := (pri, src, code, detail, w2, w3) :: r } }
    else State.waitsFlush (s.admitEntry pri src code detail w2 w3) r

/-- The parts of one code as USB events, eight bytes each (R335, R340); TRUNC marks each part of a truncated code. -/
def State.codeParts (s : State) (port : Nat) (trunc : Bool) : Nat → Nat → List Byte → State
  | 0, _, _ => s
  | fuel + 1, part, bs =>
    let now := bs.take 8
    let rest := bs.drop 8
    let pad := now ++ List.replicate (8 - now.length) 0
    let detail := port + 4 * b2n rest.isEmpty + 8 * b2n trunc + 16 * now.length + 256 * part
    let s := s.admitEntry (s.rd (F.US_FPn_CFG_EQPRI port)) 3 1 detail (beAt pad 0 4) (beAt pad 4 4)
    if rest.isEmpty then s else State.codeParts s port trunc fuel (part + 1) rest

/-- Codes that wait at a field port go to the queue, one group at a time, while the throttle is off. -/
def State.codesOut (s : State) (port : Nat) : List (List Byte × Bool) → State
  | [] => { s with usb := { s.usb with fields := Tbl.put FieldSt.init port { Tbl.get FieldSt.init port s.usb.fields with ready := [] } s.usb.fields } }
  | (bs, trunc) :: r =>
    if s.throttled then
      { s with usb := { s.usb with
        fields := Tbl.put FieldSt.init port { Tbl.get FieldSt.init port s.usb.fields with ready := (bs, trunc) :: r } s.usb.fields } }
    else State.codesOut (s.codeParts port trunc 32 0 bs) port r

/-- The codes of every field port. -/
def State.usbFlush (s : State) : State :=
  [0, 1, 2, 3].foldl (fun s n => s.codesOut n (Tbl.get FieldSt.init n s.usb.fields).ready) s

/-- The watermarks after a removal or a write to EQ_MARKS; a throttle that ends lets the aggregators and the host engine write
what they hold. -/
def State.eqAfter (s : State) : State :=
  let s := s.eqSync
  if s.throttled then s
  else
    let s := s.waitsFlush s.eq.waits
    (s.canFlush s.eq.canPend).usbFlush

/-! ### Pushes (R342, R343) -/

/-- The write to EQ_PUSH3: VALID set, POISON clear, SRC 0, word 1 the admission time; above 4,032 entries discarded and counted. -/
def State.eqPush (s : State) (w3 : Word) : State :=
  if s.eq.entries.length < 4032 then
    let w0 := Tbl.get 0 0 s.eq.push
    let w := w0.toNat
    let v := 2 ^ 31 + bitsOf w 27 3 * 2 ^ 27 + bitsOf w 0 23
    s.eqPut 0 (BitVec.ofNat 32 v) (Tbl.get 0 2 s.eq.push) w3
  else (s.bump F.EQ_PUSHREF_COUNT).wr F.EQ_STAT_PUSHREF 1

/-! ### Service order (R344, R345) -/

/-- The highest priority among entries that satisfy a test. -/
def topPri (f : EqEntry → Bool) (es : List EqEntry) : Nat := ((es.filter f).map (·.pri)).foldl max 0

/-- The entry served first: highest PRI, then first admitted. -/
def firstServed (f : EqEntry → Bool) (es : List EqEntry) : Option EqEntry :=
  let p := topPri f es
  es.find? fun e => f e && e.pri == p

/-- The list with the first entry that satisfies a test replaced, or removed. -/
def replaceFirst (f : EqEntry → Bool) (g : EqEntry → Option EqEntry) : List EqEntry → List EqEntry
  | [] => []
  | e :: es => if f e then (match g e with | some x => x :: es | none => es) else e :: replaceFirst f g es

/-- Word 0 as delivered: POISON set where a word failed parity (R339). -/
def poisoned (w0 : Word) (parityOk : Bool) : Word := if parityOk then w0 else w0 ||| BitVec.ofNat 32 (2 ^ 30)

/-- The pop latch of a local consumer: 0 LXB, 1 MC0, 2 MC1, 3 S; none for a ring source. -/
def consumer : Src → Option Nat
  | .lxb => some 0
  | .mc0 => some 1
  | .mc1 => some 2
  | .s => some 3
  | .ring _ _ => none

/-- A read of EQ_POP0 by a local consumer: the first local entry leaves for its latch, or the latch holds zeros (R344). -/
def State.eqPop (s : State) (c : Nat) (parityOk : Bool) : State :=
  let dflt : Word × Word × Word × Word := (0, 0, 0, 0)
  match firstServed (·.needLocal) s.eq.entries with
  | none => { s with eq := { s.eq with latch := Tbl.put dflt c dflt s.eq.latch } }
  | some e =>
    let p := e.pri
    let es := replaceFirst (fun x => x.needLocal && x.pri == p) (fun x => if x.needRing then some { x with needLocal := false } else none)
      s.eq.entries
    let s := if parityOk then s else s.bump F.EQ_POISON_COUNT
    let s := { s with eq := { s.eq with entries := es, latch := Tbl.put dflt c (poisoned e.w0 parityOk, e.w1, e.w2, e.w3) s.eq.latch } }
    s.eqAfter

/-- Word j of a consumer's latch. -/
def State.eqLatch (s : State) (c j : Nat) : Word :=
  let l := Tbl.get (0, 0, 0, 0) c s.eq.latch
  match j with
  | 0 => l.1
  | 1 => l.2.1
  | 2 => l.2.2.1
  | _ => l.2.2.2

/-! ### The ring forwarder (R346, R347) -/

/-- Ring entries that cannot go to the ring are served as local ones, each counted; one of both routes already taken locally is done. -/
def State.eqUnroute (s : State) : List EqEntry → List EqEntry → State
  | [], done => { s with eq := { s.eq with entries := done } }
  | e :: es, done =>
    if e.needRing && s.noRing e.dring then
      let s := s.bump F.EQ_NORING_COUNT
      let local' := if e.both then e.needLocal else true
      State.eqUnroute s es (if local' then done ++ [{ e with needRing := false, needLocal := true }] else done)
    else State.eqUnroute s es (done ++ [e])

/-- An event cell for a destination already waits for insertion. -/
def State.cellWaits (s : State) (dring dnode : Nat) : Bool :=
  [0, 1, 2].any fun p =>
    ((s.outOf p).items.filterMap fun i => match i.body with | .cell c => some c | _ => none).any fun c =>
      c.type == 3 && c.sring.toNat == s.ownRing && c.snode.toNat == s.ownNode && c.dring.toNat == dring && c.dnode.toNat == dnode

/-- Entries for one destination leave the queue in service order, at most a number of them. The result: the state's entries, those taken. -/
def takeFor (f : EqEntry → Bool) : Nat → List EqEntry → List EqEntry → List EqEntry × List EqEntry
  | 0, es, out => (es, out)
  | k + 1, es, out =>
    match firstServed f es with
    | none => (es, out)
    | some e =>
      takeFor f k (replaceFirst (fun x => f x && x.pri == e.pri) (fun x => if x.needLocal then some { x with needRing := false } else none) es)
        (out ++ [e])

/-- Entries in a cell, 16 bytes each; those at the given places failed parity. -/
def entryBytes (bad : List Nat) : List EqEntry → Nat → List Byte
  | [], _ => []
  | e :: es, i =>
    beBytes (poisoned e.w0 (!bad.contains i)).toNat 4 ++ beBytes e.w1.toNat 4 ++ beBytes e.w2.toNat 4 ++ beBytes e.w3.toNat 4
      ++ entryBytes bad es (i + 1)

/-- EVENT_CELL_SEND: the ready entries of one destination, 1 to 32, go out in one cell (R346). `bad`: places whose words failed parity. -/
def execEventCellSend (bad : List Nat) (s : State) : Host.Outcome State Fault Refusal :=
  let s := (s.eqUnroute s.eq.entries []).eqAfter
  .next (match firstServed (fun e => e.needRing && !s.cellWaits e.dring e.dnode) s.eq.entries with
    | none => s
    | some h =>
      let (es, out) := takeFor (fun e => e.needRing && e.dring == h.dring && e.dnode == h.dnode) 32 s.eq.entries []
      let key := h.dring * 4096 + h.dnode
      let seq := Tbl.get 0 key s.eq.seq
      let s := s.bumpBy F.EQ_POISON_COUNT ((List.range out.length).filter fun i => bad.contains i).length
      let s := { s with eq := { s.eq with entries := es, seq := Tbl.put 0 key ((seq + 1) % 65536) s.eq.seq } }
      let s := (s.bump F.EQ_RINGCELL_COUNT).eqAfter
      (s.send (s.mkCell 3 3 0 h.dring h.dnode seq (entryBytes bad out 0)) none 24).1)

/-- EVENT_CELL: a received event cell goes to the management unit. -/
def execEventCell (c : Cell) (s : State) : Host.Outcome State Fault Refusal := .next ((s.takeCell c).emit (.mgmtCell c))

end Sys2Proof.Machine
end

