-- ==== Sys2Proof/Machine/Discipline.lean ====
section
/-! DEFINITION. Steps of local time and their effects, the discipline state machine and its sources (R229, R230, R235 to R240). -/

namespace Sys2Proof.Machine

/-! ### Steps (R229, R230) -/

/-- What a forward step reaches. -/
inductive Due where
  | cmp (k : Nat)
  | act (n : Nat)
  | wtim (n word : Nat)
  | start
  | launch (out lti : Nat)
  | canDeadline (k b : Nat)
  deriving DecidableEq, Repr

/-- A due thing with how long ago its time was, placed in time order. -/
def duePlace (x : Int × Due) : List (Int × Due) → List (Int × Due)
  | [] => [x]
  | y :: ys => if x.1 < y.1 then x :: y :: ys else y :: duePlace x ys

/-- Compares armed and reached. -/
def State.dueCmps (s : State) : List (Int × Due) :=
  ((List.range 32).filter fun k => s.on (F.TM_CMPk_CFG_ARM k) && s.reached (s.rd (F.TM_CMPk_S_SEC k)) (s.rd (F.TM_CMPk_NS_NS k)) 0).map
    fun k => (s.until (s.rd (F.TM_CMPk_S_SEC k)) (s.rd (F.TM_CMPk_NS_NS k)) 0, .cmp k)

/-- Held actions and waits of the weavers that are reached. -/
def State.dueWeavers (s : State) : List (Int × Due) :=
  s.wv.w.flatMap fun (n, w) =>
    ((w.acts.filter fun a => s.reached a.sec a.ns a.frac).map fun a => (s.until a.sec a.ns a.frac, .act n)) ++
      (match w.wait with
        | .tim word =>
          if s.reached (s.rd (F.WVn_TRS_SEC n)) (s.rd (F.WVn_TRNS_NS n)) 0 then
            [(s.until (s.rd (F.WVn_TRS_SEC n)) (s.rd (F.WVn_TRNS_NS n)) 0, .wtim n word)] else []
        | _ => [])

/-- Launch deadlines that are reached, at the edge ports and in the CAN controllers. -/
def State.dueDeadlines (s : State) : List (Int × Due) :=
  (s.outs.flatMap fun (n, o) =>
    if isEdge n then
      (((o.items.map (·.lti)).eraseDups).filter fun l => l != 0 && s.pastDeadline l).map fun l =>
        let e := s.launchE l
        (s.until (e.sec + (e.ns + e.tol) / secNs) ((e.ns + e.tol) % secNs) e.frac, .launch n l)
    else []) ++
  ((List.range 8).flatMap fun k => ([0, 1, 2].filter fun b => s.requested k b && s.tbStatus k b == 1 && s.canExpired k b).map fun b =>
    (s.until (s.canDeadline k b).1 (s.canDeadline k b).2 0, .canDeadline k b))

/-- An armed global start that is reached. -/
def State.dueStart (s : State) : List (Int × Due) :=
  if s.on F.BK_GCTL_ARM && s.reached (s.rd F.BK_GTS_SEC) (s.rd F.BK_GTNS_NS) 0 then
    [(s.until (s.rd F.BK_GTS_SEC) (s.rd F.BK_GTNS_NS) 0, .start)] else []

/-- One due thing takes place, marked stepped. -/
def State.dueRun (s : State) : Due → State
  | .cmp k => s.cmpFire k true
  | .act n => s.actFire n true
  | .wtim n word => s.timPass n word
  | .start => s.globalFire
  | .launch n l => s.expire n l
  | .canDeadline k b => s.canExpire k b

def State.dueAll (s : State) : List (Int × Due) → State
  | [] => s
  | (_, d) :: ds => State.dueAll (s.dueRun d) ds

/-- Site times repeat with the 48 bits of SEC48 (R226), in 2^-39 ns. -/
def siteSpan : Nat := 2 ^ 48 * secNs * nsUnit

/-- A site time is later than another, by the signed difference of their native times (R225). -/
def siteLater (a b : Nat) : Bool :=
  let w : Int := (2 ^ 32 * secNs * nsUnit : Nat)
  decide (0 < ((a : Int) - b + w / 2) % w - w / 2)

/-- Local time takes a value at the next tick (R229): counted, marked, a time event; a forward step reaches what waits for the skipped span
in its order, a backward step repeats nothing (R230). -/
def State.stepTime (s : State) (site : Nat) : State :=
  let s := s.ticks 1
  let fwd := siteLater site s.clock.site
  let s := { s with clock := { s.clock with site := site } }
  let s := ((s.bump F.TM_STEPS_COUNT).wr F.TM_DSTAT_STEPPED 1).timeEvent 1 0 s.sec s.ns
  if fwd then s.dueAll ((s.dueCmps ++ s.dueWeavers ++ s.dueDeadlines ++ s.dueStart).foldr duePlace []) else s

/-- TM_CTL.STEP: local time becomes TM_SETH, TM_SETS and TM_SETNS. -/
def State.stepWritten (s : State) : State :=
  s.stepTime (((s.rd F.TM_SETH_SEC48 * 2 ^ 32 + s.rd F.TM_SETS_SEC) * secNs + s.rd F.TM_SETNS_NS) * nsUnit)

/-- Software may step now (R229). -/
def State.mayStep (s : State) : Bool :=
  s.rd F.TM_DSTAT_STATE == 0 || s.rd F.TM_DSTAT_STATE == 3 || s.on F.RG_ROLE_ROOT || s.on F.NC_MODE_POLICY

/-! ### The discipline state machine (R238, R240) -/

/-- The state changes, with its time event. -/
def State.setDisc (s : State) (st : Nat) : State :=
  if s.rd F.TM_DSTAT_STATE = st then s else (s.wr F.TM_DSTAT_STATE st).timeEvent 2 st 0 0

/-- The greatest RATE the servo sets: local time changes at no more than 200 ppm relative to site time (R238), and the clock it counts is
within 20 ppm (R382): 220.005 ppm of 2^40. -/
def slewMax : Nat := 241897935

/-- A RATE within the bound that a free value stands for. -/
def slewRate (w : Word) : Nat := ofSigned 32 (((w.toNat % (2 * slewMax + 1) : Nat) : Int) - (slewMax : Int))

/-- The servo slews: TM_RATE takes a value the spec leaves open, within its bound; not under directed policy with SERVO = 0 (R238, R240). -/
def State.slew (s : State) : State :=
  if s.on F.NC_MODE_POLICY && !s.on F.TM_DCFG_SERVO then s else (s.wr F.TM_RATE_RATE (slewRate s.freeW)).used

/-- An offset, in 2^-8 ns, is used. -/
def State.useOffset (s : State) (off : Int) : State :=
  let s := s.wr F.TM_DOFF_OFFSET (ofSigned 32 off)
  let first := !s.tm.firstUsed
  let s := { s with tm := { s.tm with firstUsed := true } }
  let s : State := if s.rd F.TM_DSTAT_STATE = 0 || s.rd F.TM_DSTAT_STATE = 3 then
      { s.setDisc 1 with tm := { s.tm with inLock := 0, outStep := 0 } } else s
  let big := decide (s.rd F.TM_DTHR_STEPTHR * 256 < off.natAbs)
  let directed := s.on F.NC_MODE_POLICY
  if s.rd F.TM_DSTAT_STATE = 1 then
    if big && (!directed || first) then
      let s := { s with tm := { s.tm with inLock := 0 } }
      s.stepTime (((s.clock.site : Int) - off * 2 ^ 31) % siteSpan).toNat
    else
      let s := if big then s.timeEvent 3 0 (ofSigned 32 off) 0 else s
      let n : Nat := if !big && decide (off.natAbs ≤ s.rd F.TM_DTHR_LOCKTHR * 256) then s.tm.inLock + 1 else 0
      let s := { s with tm := { s.tm with inLock := n, outStep := 0 } }
      if n = 16 then s.slew.setDisc 2 else s.slew
  else
    let s := if big && directed then s.timeEvent 3 0 (ofSigned 32 off) 0 else s
    let n : Nat := if big then s.tm.outStep + 1 else 0
    let s := { s with tm := { s.tm with outStep := n, inLock := 0 } }
    if n = 4 then s.slew.setDisc 1 else s.slew

/-- GM_OFFSET (R231): at the root, with GMEN, the slave port of MC0 has an offset from the grandmaster, in 2^-8 ns; one of another domain than
DOMAIN is none of it. -/
def execGmOffset (domain : Byte) (offset : BitVec 72) (s : State) : Host.Outcome State Fault Refusal :=
  .next (if s.on F.RG_ROLE_ROOT && s.on F.TM_DCFG_GMEN && s.rd F.TM_DCFG_DOMAIN == domain.toNat then s.useOffset offset.toInt else s)

/-- ANNOUNCE_TIMEOUT (R238). -/
def execAnnounceTimeout (s : State) : Host.Outcome State Fault Refusal :=
  .next (if s.on F.RG_ROLE_ROOT && (s.rd F.TM_DSTAT_STATE == 1 || s.rd F.TM_DSTAT_STATE == 2) then s.setDisc 3 else s)

/-- SYNC_TIMEOUT (R239). -/
def execSyncTimeout (s : State) : Host.Outcome State Fault Refusal :=
  .next (if !s.on F.RG_ROLE_ROOT && (s.rd F.TM_DSTAT_STATE == 1 || s.rd F.TM_DSTAT_STATE == 2) then
      let s := { s with tm := { s.tm with syncLost := true } }
      (s.setDisc 3).wr F.TM_DSTAT_SYNCOUT 2
    else s)

/-! ### SYNC cells (R235, R236) -/

/-- A forwarded copy of a SYNC. -/
def sameSync (a b : Cell) : Bool := b.type == 5 && b.op == 0 && b.mcast && a.payload == b.payload && a.corr == b.corr

/-- The forwarded copy takes its CORR in transit. -/
def corrTransit (c : Cell) (corr : BitVec 48) : List TCell → List TCell
  | [] => []
  | t :: ts =>
    if sameSync { c with payload := if t.cell.payload = [] then [] else c.payload } t.cell then
      { t with cell := { t.cell with corr := corr } } :: ts
    else t :: corrTransit c corr ts

/-- The copy that has left last, in what the hub has put out (newest first). -/
def corrOut (q : Nat) (c : Cell) (corr : BitVec 48) : List Out → List Out
  | [] => []
  | .cellHead p x :: os =>
    if p = q && sameSync { c with payload := x.payload } x then .cellHead p { x with corr := corr } :: os
    else .cellHead p x :: corrOut q c corr os
  | .cell p x :: os => if p = q && sameSync c x then .cell p { x with corr := corr } :: os else .cell p x :: corrOut q c corr os
  | .cellTail p x st :: os =>
    if p = q && sameSync c x then .cellTail p { x with corr := corr } st :: corrOut q c corr os else .cellTail p x st :: corrOut q c corr os
  | o :: os => o :: corrOut q c corr os

/-- CORR of the forwarded copy (R235): in transit if it still waits there, otherwise as it left. -/
def State.syncForward (s : State) (p : Nat) (c : Cell) (corr : BitVec 48) : State :=
  let q := if s.wrapped (other p) then p else other p
  let l := s.link q
  let t := corrTransit c corr l.transit
  if t = l.transit then { s with out := (corrOut q c corr s.out.reverse).reverse } else s.setLink q { l with transit := t }

/-- The ring whose copies are used: ring B after two intervals with no usable ring A copy, ring A again after 16 with one (R236). -/
def State.syncRing (s : State) (c : Cell) : State :=
  let q := beAt c.payload 10 2
  if c.ring then
    match s.tm.lastA with
    | none => { s with tm := { s.tm with lastA := some ((q + 65535) % 65536), runA := 0 } }
    | some a =>
      if 2 < (q + 65536 - a) % 65536 && (q + 65536 - a) % 65536 < 32768 then
        { s.wr F.TM_DSTAT_SRCRING 1 with tm := { s.tm with runA := 0 } }
      else s
  else
    let run := if s.tm.lastA = some ((q + 65535) % 65536) then s.tm.runA + 1 else 1
    let s := { s with tm := { s.tm with lastA := some q, runA := run } }
    if s.on F.TM_DSTAT_SRCRING && decide (16 ≤ run) then s.wr F.TM_DSTAT_SRCRING 0 else s

/-- A usable copy wins the sync race, or is the late one after a lost race (R239). -/
def State.syncUse (s : State) (c : Cell) (off : Int) : State :=
  if s.tm.syncLost then { s with tm := { s.tm with syncLost := false } }.bump F.TM_LATE_COUNT
  else
    let q := beAt c.payload 10 2
    let s := { s with tm := { s.tm with lastUsed := some q, syncTimer := true } }
    let s := ((s.wr F.TM_DSTAT_SYNCOUT 1).wr F.TM_DSTAT_SYNCSEQ q).wr F.TM_DSTAT_GMLOCK (beAt c.payload 12 1)
    s.useOffset off

/-- TIME_SYNC (R235, R236, R239): the stamps t_in and t_out in units of 0.25 ns. -/
def execTimeSync (p : PortR) (c : Cell) (tin tout : BitVec 64) (s : State) : Host.Outcome State Fault Refusal :=
  let s := s.takeCell c
  let delay := (s.rd (F.TM_PDLYp_DELAY p.val) : Int) * 256 + toSigned 16 (s.rd (F.TM_ASYMp_ASYM p.val)) * 4096
  let est := (origin16 c.payload : Int) + c.corr.toInt + delay
  let off := wrapSite ((stamp16 tin : Int) - est)
  let s := s.syncForward p.val c (BitVec.ofInt 48 (c.corr.toInt + delay + ((stamp16 tout : Int) - stamp16 tin)))
  let q := beAt c.payload 10 2
  .next (if s.on F.RG_ROLE_ROOT || c.wraps != 0 then s
    else if c.snode != 0 || !s.isOwnRing c.sring.toNat then s.bump F.TM_SYNCBAD_COUNT
    else if (match s.tm.lastUsed with | some u => decide (toSigned 16 (ofSigned 16 ((q : Int) - u)) < 0) | none => false) then
      s.bump F.TM_SYNCBAD_COUNT
    else
      let s := s.syncRing c
      if s.tm.lastUsed = some q then s
      else if c.ring == s.on F.TM_DSTAT_SRCRING then s.syncUse c (off / 256)
      else s)

end Sys2Proof.Machine
end

