-- ==== Sys2Proof/Machine/Forward.lean ====
section
/-! DEFINITION. Forwarding: classification, cut-through, learning, tunnels, the forwarding database, the hashes, overflow memory and beats
of the slath (chapter 06, R20 to R24, R249, R447). -/

namespace Sys2Proof.Machine

/-! ### Frames and bytes -/

/-- The frame that bytes spell, from the destination MAC on. -/
def frameOf (b : List Byte) : Frame :=
  let tagged := beAt b 12 2 == 0x8100
  let tci := beAt b 14 2
  { dst := BitVec.ofNat 48 (beAt b 0 6), src := BitVec.ofNat 48 (beAt b 6 6),
    tag := if tagged then some (BitVec.ofNat 3 (tci / 8192), tci / 4096 % 2 == 1, BitVec.ofNat 12 tci) else none,
    etype := BitVec.ofNat 16 (beAt b (if tagged then 16 else 12) 2), data := b.drop (if tagged then 18 else 14) }

/-- A group address: the first bit on the wire is 1. -/
def isGroup (mac : BitVec 48) : Bool := mac.getLsbD 40

/-- A frame carrying an IEEE 1588 message: EtherType 0x88F7, or UDP port 319 or 320 over IPv4 or IPv6 (R243, R447). -/
def Frame.isPtp (f : Frame) : Bool :=
  f.etype == 0x88F7 || f.udpPort == 319 || f.udpPort == 320

/-! ### The forwarding database (R190, R194, R196) -/

/-- The bucket of a key under a seed. -/
def fdbBucket (seed vid mac : Nat) : Nat := hashOf seed (beBytes vid 2 ++ beBytes mac 6) % 4096

/-- A lookup of the entry's key comes upon it: it stands in the overflow table, or in the key's bucket under the seed in use or, during a
switch, under the other one (R192, R194). -/
def State.fdbReaches (s : State) (e : FdbEntry) : Bool :=
  match e.bucket with
  | none => true
  | some b => fdbBucket (s.seed 1 (s.sel 1)) e.vid e.mac == b || (s.switching 1 && fdbBucket (s.seed 1 (1 - s.sel 1)) e.vid e.mac == b)

/-- An entry is the one a lookup of a key finds. -/
def State.fdbIs (s : State) (vid mac : Nat) (e : FdbEntry) : Bool := e.vid == vid && e.mac == mac && s.fdbReaches e

/-- The entry of a key: a lookup searches its bucket and the overflow table (R194). -/
def State.fdbFind (s : State) (vid mac : Nat) : Option FdbEntry := s.slath.fdb.find? (s.fdbIs vid mac)

/-- SW_FDBOCC follows the database. -/
def State.fdbShow (s : State) : State :=
  let ovf := (s.slath.fdb.filter fun e => e.bucket.isNone).length
  (s.wr F.SW_FDBOCC_OVF ovf).wr F.SW_FDBOCC_ENTRIES (s.slath.fdb.length - ovf)

def State.setFdb (s : State) (l : List FdbEntry) : State := { s with slath := { s.slath with fdb := l } }.fdbShow

/-- Entries in a bucket of a list; entries in its overflow table. -/
def inBucket (l : List FdbEntry) (b : Nat) : Nat := (l.filter fun e => e.bucket == some b).length

def inOverflow (l : List FdbEntry) : Nat := (l.filter fun e => e.bucket.isNone).length

/-- Where a new entry goes: a free way of its bucket, or an overflow table entry, or nowhere (R196). -/
def fdbPlace (l : List FdbEntry) (b : Nat) : Option (Option Nat) :=
  if inBucket l b < 4 then some (some b) else if inOverflow l < 64 then some none else none

/-- A learn (R196): refreshes or moves a dynamic entry, never a static one; a new entry takes a place or is refused. -/
def State.learn (s : State) (vid mac : Nat) (dst : FdbDst) : State :=
  match s.fdbFind vid mac with
  | some e =>
    if e.static then s
    else s.setFdb (s.slath.fdb.map fun x => if s.fdbIs vid mac x then { x with dst := dst, mark := s.clock.tick } else x)
  | none =>
    match fdbPlace s.slath.fdb (fdbBucket (s.seed 1 (s.sel 1)) vid mac) with
    | some pl => s.setFdb (s.slath.fdb ++ [{ vid := vid, mac := mac, dst := dst, static := false, mark := s.clock.tick, bucket := pl }])
    | none => (s.bump F.SW_LRNFAIL_COUNT).poolEvent 5 vid (mac % 2 ^ 32) (mac / 2 ^ 32)

/-- The destination that SW_FDBDST describes. -/
def State.fdbDst (s : State) : FdbDst :=
  match s.rd F.SW_FDBDST_KIND with
  | 0 => .edge (s.rd F.SW_FDBDST_EPORT)
  | 1 => .remote (s.rd F.SW_FDBDST_RING) (s.rd F.SW_FDBDST_NODE)
  | _ => .discard

/-- SW_FDBDST shows an entry (R198). -/
def State.showDst (s : State) (e : FdbEntry) : State :=
  let s := s.wr F.SW_FDBDST_STATIC (b2n e.static)
  match e.dst with
  | .edge p => (s.wr F.SW_FDBDST_KIND 0).wr F.SW_FDBDST_EPORT p
  | .remote r n => ((s.wr F.SW_FDBDST_KIND 1).wr F.SW_FDBDST_RING r).wr F.SW_FDBDST_NODE n
  | .discard => s.wr F.SW_FDBDST_KIND 2

/-- The operation in SW_FDBCMD.OP takes place and BUSY clears with its RESULT: 1 done, 2 not found, 3 full (R198). -/
def State.fdbRun (s : State) : State :=
  let vid := s.rd F.SW_FDBMACH_VID
  let mac := s.rd F.SW_FDBMACH_MAC * 2 ^ 32 + s.rd F.SW_FDBMACL_MAC
  let done (s : State) (r : Nat) : State := (s.wr F.SW_FDBCMD_RESULT r).wr F.SW_FDBCMD_BUSY 0
  let s := { s with slath := { s.slath with fdbWaiting := false } }
  match s.rd F.SW_FDBCMD_OP with
  | 1 =>
    match s.fdbFind vid mac with
    | some _ =>
      done (s.setFdb (s.slath.fdb.map fun x => if s.fdbIs vid mac x then { x with dst := s.fdbDst, static := true } else x)) 1
    | none =>
      match fdbPlace s.slath.fdb (fdbBucket (s.seed 1 (s.sel 1)) vid mac) with
      | some pl =>
        done (s.setFdb (s.slath.fdb ++ [{ vid := vid, mac := mac, dst := s.fdbDst, static := true, mark := s.clock.tick, bucket := pl }])) 1
      | none => done s 3
  | 2 =>
    match s.fdbFind vid mac with
    | some _ => done (s.setFdb (s.slath.fdb.filter fun x => !s.fdbIs vid mac x)) 1
    | none => done s 2
  | 3 =>
    match s.fdbFind vid mac with
    | some e => done (s.showDst e) 1
    | none => done s 2
  | 4 => done (s.setFdb (s.slath.fdb.filter fun x => x.static || x.dst != s.fdbDst)) 1
  | 5 => done (s.setFdb (s.slath.fdb.filter fun x => x.static)) 1
  | _ => done s 0

/-- BUSY is written: the operation starts now, or when an FDB walk in progress ends (R198). -/
def State.fdbGo (s : State) : State :=
  let s := s.wr F.SW_FDBCMD_BUSY 1
  if s.switching 1 then { s with slath := { s.slath with fdbWaiting := true } } else s.fdbRun

/-- FDB_AGE: a dynamic entry that was not refreshed is removed; never with SW_AGE = 0 (R196). -/
def execFdbAge (vid : BitVec 12) (mac : BitVec 48) (s : State) : Host.Outcome State Fault Refusal :=
  .next (if s.rd F.SW_AGE_SEC = 0 then s
    else s.setFdb (s.slath.fdb.filter fun x => x.static || !(x.vid == vid.toNat && x.mac == mac.toNat)))

/-! ### Hash switches (R191, R192) -/

/-- RUN of a hash. -/
def State.hashRun (s : State) (h : Nat) : Nat := bitsOf (s.rd F.SW_HASHRUN_RUN) (8 * h) 8

def State.setRun (s : State) (h v : Nat) : State := s.wr F.SW_HASHRUN_RUN (setBits (s.rd F.SW_HASHRUN_RUN) (8 * h) 8 v)

/-- SWITCHING and RUN when SELh has just been toggled: the drain of the old seed starts (R192). -/
def State.switchBegin (s : State) (h : Nat) : State :=
  let s := (s.wr F.SW_HASHCTL_SWITCHING (setBits (s.rd F.SW_HASHCTL_SWITCHING) h 1 1)).setRun h 0
  let s := if h = 2 then
      { s with slath := { s.slath with flowMoved := [], flowLast := [], flowForce := false, flowStart := s.clock.tick } }
    else s
  s.poolEvent 3 h 0 0

/-- SELh is toggled and the switch begins. -/
def State.switchStart (s : State) (h : Nat) : State :=
  (s.wr F.SW_HASHCTL_SEL (setBits (s.rd F.SW_HASHCTL_SEL) h 1 (1 - s.sel h))).switchBegin h

/-- The walk of R192: every entry to its bucket under the new seed. Answers the new table and how many dynamic entries went, or none where a
static entry finds no room. -/
def fdbWalk (seed : Nat) : List FdbEntry → List FdbEntry → Nat → Option (List FdbEntry × Nat)
  | [], acc, lost => some (acc, lost)
  | e :: es, acc, lost =>
    let b := fdbBucket seed e.vid e.mac
    match fdbPlace acc b with
    | some pl => fdbWalk seed es (acc ++ [{ e with bucket := pl }]) lost
    | none =>
      if e.static then
        match acc.find? fun x => x.bucket == some b && !x.static with
        | some x => fdbWalk seed es (acc.filter (fun y => !(y.vid == x.vid && y.mac == x.mac)) ++ [{ e with bucket := some b }]) (lost + 1)
        | none => none
      else fdbWalk seed es acc (lost + 1)

/-- A switch has drained: SWITCHING clears, SW_HASHSW counts, and under autonomous policy the retired seed takes a fresh value (R192). -/
def State.switchDone (s : State) (h : Nat) : State :=
  let s := (s.wr F.SW_HASHCTL_SWITCHING (setBits (s.rd F.SW_HASHCTL_SWITCHING) h 1 0)).bump F.SW_HASHSW_COUNT
  if s.on F.NC_MODE_POLICY then s else (s.wr (F.SW_SEEDh_s_SEED h (1 - s.sel h)) s.freeW.toNat).used

/-- HASH_SWITCH_COMPLETE: BANK once no block under the old seed remains, FDB by its walk, FLOW once each of the 4,096 slots has moved. -/
def execHashSwitchComplete (h : Fin 3) (s : State) : Host.Outcome State Fault Refusal :=
  .next (if !s.switching h.val then s
    else match h.val with
      | 0 => if (if s.sel 0 = 0 then s.slath.blocks1 else s.slath.blocks0) = 0 then s.switchDone 0 else s
      | 1 =>
        let s := match fdbWalk (s.seed 1 (s.sel 1)) s.slath.fdb [] 0 with
          | some (l, lost) => ((s.setFdb l).bumpBy F.SW_LRNFAIL_COUNT lost).switchDone 1
          | none =>
            let s := s.wr F.SW_HASHCTL_SEL (setBits (s.rd F.SW_HASHCTL_SEL) 1 1 (1 - s.sel 1))
            (s.wr F.SW_HASHCTL_SWITCHING (setBits (s.rd F.SW_HASHCTL_SWITCHING) 1 1 0)).poolEvent 4 1 0 0
        if s.slath.fdbWaiting then s.fdbRun else s
      | _ => if s.slath.flowMoved.length = 4096 then s.switchDone 2 else s)

/-- FLOW_FORCE_TIMER: slots not yet moved move at their next cell (R192). -/
def execFlowForceTimer (s : State) : Host.Outcome State Fault Refusal :=
  .next (if s.switching 2 then { s with slath := { s.slath with flowForce := true } } else s)

/-- Judgement of one hash's window (R191). -/
def State.judge (s : State) (h : Nat) (imbal : Bool) : State :=
  let s := s.wr F.SW_HASHCTL_IMBAL (setBits (s.rd F.SW_HASHCTL_IMBAL) h 1 (b2n imbal))
  if s.switching h then s.setRun h 0
  else if imbal then
    let r := s.hashRun h
    let s := s.setRun h (min 64 (r + 1))
    if r = 63 then
      let s := s.poolEvent 2 h 0 0
      if s.on F.NC_MODE_POLICY then s else s.switchStart h
    else s
  else s.setRun h 0

/-- HASH_WINDOW: at the next millisecond boundary of local time the window just ended is judged for each hash (R191). -/
def execHashWindow (s : State) : Host.Outcome State Fault Refusal :=
  let s := s.reachMultiple 1000000
  let sl := s.slath
  let total := sl.bankWrites.sum
  let bank := decide (1024 ≤ total) && sl.bankWrites.any fun w => decide (total < 2 * w)
  let fdb := decide (32 ≤ s.rd F.SW_FDBOCC_OVF)
  let flow := decide (125000 ≤ sl.flowA + sl.flowB) && decide (3 * (sl.flowA + sl.flowB) < 4 * max sl.flowA sl.flowB)
  let s := { s with slath := { sl with bankWrites := [0, 0, 0, 0], flowA := 0, flowB := 0 } }
  .next (((s.judge 0 bank).judge 1 fdb).judge 2 flow)

/-! ### Overflow memory (R187, R188) -/

/-- OVERFLOW_TRAINING. -/
def execOverflowTraining (ok : Bool) (s : State) : Host.Outcome State Fault Refusal :=
  .next (if !s.on F.SW_OVCFG_FITTED then s
    else if ok then s.wr F.SW_OVCFG_TRAINED 1 else (s.wr F.SW_OVCFG_TRAINED 0).poolEvent 1 0 0 0)

/-- DDR_REFRESH: contents stand, and no register shows it. -/
def execDdrRefresh (s : State) : Host.Outcome State Fault Refusal := .next s

/-- The first item of a queue that has blocks in overflow memory, changed. -/
def changeSpilled (q : Nat) (f : EItem → EItem) : List EItem → List EItem
  | [] => []
  | i :: is => if i.tc = q ∧ i.spill ≠ [] then f i :: is else i :: changeSpilled q f is

/-- OVERFLOW_READBACK: with fewer than 8 cells of the queue on chip, blocks of its first spilled frame come back into dedicated or shared
cells; a parity failure poisons the frame (R188). What a block holds stays in overflow memory until it is written again. -/
def execOverflowReadback (n : Fin 19) (q : Fin 8) (parityBad : Bool) (s : State) : Host.Outcome State Fault Refusal :=
  let o := s.outOf n.val
  let onChip := ((o.queue q.val).map fun i => i.ded + i.shr).sum
  .next (match (o.queue q.val).find? fun i => !i.spill.isEmpty with
    | none => s
    | some i =>
      if 8 ≤ onChip then s
      else
        let a := min i.spill.length (s.dedCells n.val - Tbl.get 0 n.val s.slath.ded)
        let b := min (i.spill.length - a) (min (s.shrRoom i.dp) (s.rd F.SW_SHMAX_CELLS - Tbl.get 0 n.val s.slath.shr))
        let back := i.spill.take (a + b)
        let upd (x : EItem) : EItem :=
          { x with ded := x.ded + a, shr := x.shr + b, spill := x.spill.drop (a + b), poison := x.poison || (parityBad && !back.isEmpty) }
        let s := s.setOut n.val { o with items := changeSpilled q.val upd o.items }
        let s := { s with slath := { s.slath with
          ded := Tbl.put 0 n.val (Tbl.get 0 n.val s.slath.ded + a) s.slath.ded
          shr := Tbl.put 0 n.val (Tbl.get 0 n.val s.slath.shr + b) s.slath.shr
          blocks0 := s.slath.blocks0 - underSeed0 back, blocks1 := s.slath.blocks1 - (back.length - underSeed0 back) } }
        ((if parityBad && !back.isEmpty then s.bump F.SW_OVPAR_COUNT else s).poolSync n.val).holdFor i.src ((a + b : Nat) : Int))

/-! ### Edge frames (R179, R181, R195, R196, R447) -/

/-- Edge ports of a VLAN's MEMBERS, as slath ports. -/
def State.vlanOuts (s : State) (vid : Nat) : List Nat :=
  ((List.range 16).filter fun e => bitsOf (s.rd (F.SW_VLANv_MEMBERS vid)) e 1 == 1).map (· + 3)

/-- Classification of R195 after VLAN and TC: the route, or a drop. -/
def State.routeEdge (s : State) (n vid : Nat) (dst : BitVec 48) : Option RouteTo :=
  let flood : RouteTo :=
    { outs := (s.vlanOuts vid).filter (· != n)
      tunnel := if s.on (F.SW_VLANv_RINGFLOOD vid) then some (true, 0, s.rd (F.SW_VLANv_GROUP vid)) else none }
  if isGroup dst then some flood
  else match s.fdbFind vid dst.toNat with
    | none => some flood
    | some e =>
      match e.dst with
      | .discard => none
      | .edge p => if p + 3 = n then none else some { outs := [p + 3], tunnel := none }
      | .remote r k => some { outs := [], tunnel := some (false, r, k) }

/-- What R207 would choose at output n if a frame of queue tc and of the greatest length that input i takes stood in the pool: the same
selection as at a frame boundary, made with MAXLEN since L is not yet known (R179, R222; the deficit test with MAXLEN is assumption 29). -/
def State.cutChoice (s : State) (i tc n : Nat) (it : EItem) : OutSt × Option Nat :=
  (s.setOut n { s.outOf n with items := (s.outOf n).items ++ [{ it with tc := tc, len := s.rd (F.SW_PCFGn_MAXLEN i) }] }).choose n

/-- Output n meets the cut-through conditions of R179 for a frame of queue tc from input i: it is idle, no frame would be served before this
one, its gate stays open for MAXLEN, its shaper allows it, and it is no faster than the input. -/
def State.cutOk (s : State) (i tc n : Nat) (it : EItem) : Bool :=
  let o := s.outOf n
  o.sending.isNone && (o.head tc).isNone && s.on (F.SW_PSTATn_LINK n) && !s.outFlushing n && (s.cutChoice i tc n it).2 == some tc &&
    decide (s.outMbps n ≤ s.outMbps i) && (!isEdge n || s.clocked 2)

/-- Each output of a cut-through frame starts to send it (R179). Its round-robin state is that of the choice, but the deficit is charged at the
frame's end, with its true length. -/
def State.cutStart (s : State) (i : Nat) (it : EItem) : List Nat → State
  | [] => s
  | n :: ns =>
    let o := s.outOf n
    let c := (s.cutChoice i it.tc n it).1
    let defs := if it.tc ≤ 5 then c.defs.set it.tc (c.defs.getD it.tc 0 + s.rd (F.SW_PCFGn_MAXLEN i)) else c.defs
    State.cutStart (s.setOut n { o with p := c.p, v := c.v, defs := defs, sending := some (s.starting n it true) }) i it ns

def State.setInput (s : State) (n : Nat) (x : Option InFrame) : State :=
  { s with slath := { s.slath with inputs := Tbl.put none n x s.slath.inputs } }

/-- EDGE_FRAME (R195, R179). -/
def execEdgeFrame (e : Fin 16) (f : Frame) (s : State) : Host.Outcome State Fault Refusal :=
  let n := e.val + 3
  .next (if !s.on (F.SW_PCFGn_ENABLE n) || !s.on (F.SW_PSTATn_LINK n) then s
    else
      let ptp := s.on F.TM_DCFG_GMEN && s.rd F.TM_DCFG_GMPORT == e.val && f.isPtp
      let tagVid := match f.tag with | some (_, _, v) => v.toNat | none => 0
      let pcp := match f.tag with | some (p, _, _) => p.toNat | none => 0
      let vid := if tagVid = 0 then s.rd (F.SW_PVIDn_PVID n) else tagVid
      let stamp := s.nowNs - s.rd (F.TM_EDLYn_RX e.val) / 16
      let base : InFrame :=
        { head := f, vid := vid, pcp := pcp, tc := bitsOf (s.rd (F.SW_PCPMAPn_MAP n)) (3 * pcp) 3, dp := 0, route := none, cut := false,
          cutOuts := [], ptp := ptp, ctl := f.etype == 0x8808, barred := false, stampSec := stamp / secNs % 2 ^ 32, stampNs := stamp % secNs }
      if ptp || base.ctl then s.setInput n (some base)
      else if !s.on (F.SW_VLANv_VALID vid) || bitsOf (s.rd (F.SW_VLANv_MEMBERS vid)) e.val 1 == 0 then
        (s.bump (F.SW_FILTn_COUNT n)).setInput n (some { base with barred := true })
      else
        match s.routeEdge n vid f.dst with
        | none => (s.bump (F.SW_FILTn_COUNT n)).setInput n (some base)
        | some r =>
          let it := mkItem (.frame f) base.tc 0 n 0
          let cut := r.tunnel.isNone && !r.outs.isEmpty && r.outs.all (s.cutOk n base.tc · it)
          let s := s.setInput n (some { base with route := some r, cut := cut, cutOuts := if cut then r.outs else [] })
          if cut then s.cutStart n it r.outs else s)

/-- Each output that is sending a cut-through frame of input i learns its end: the frame whole, or to be stomped and counted (R181). -/
def State.cutEnd (s : State) (i : Nat) (f : Frame) (bad : Bool) : List Nat → State
  | [] => s
  | n :: ns =>
    let o := s.outOf n
    let s := match o.sending with
      | some x =>
        if x.awaits && x.item.src == i then
          let defs := if x.item.tc ≤ 5 then o.defs.set x.item.tc (o.defs.getD x.item.tc 0 - f.size) else o.defs
          let s := s.setOut n { o with
            defs := defs, sending := some { x with item := { x.item with body := .frame f, len := f.size }, awaits := false, stomp := bad } }
          if bad then s.bump (F.SW_STOMPn_COUNT n) else s
        else s
      | none => s
    State.cutEnd s i f bad ns

/-- The tunnel cell of a frame (R197): unicast to a node, or multicast to a group of the own ring; an untagged frame gets a tag. -/
def State.tunnelCell (s : State) (f : Frame) (vid pcp tc : Nat) (t : Bool × Nat × Nat) : Cell :=
  let f := match f.tag with
    | some _ => f
    | none => { f with tag := some (BitVec.ofNat 3 pcp, false, BitVec.ofNat 12 vid) }
  if t.1 then { s.mkCell 4 (min tc 2) 0 s.ownRing t.2.2 0 f.bytes with mcast := true }
  else s.mkCell 4 (min tc 2) 0 t.2.1 t.2.2 0 f.bytes

/-- The slath output that a cell of the hub's own would leave on; none: no way (R96, R130, R133). -/
def State.wayOut (s : State) (c : Cell) : Option Nat :=
  match s.way (s.withFlow c).2 none with
  | .up => some 2
  | .none => none
  | .ring b _ => let p := if b then 1 else 0; some (if s.wrapped p && s.isUp (other p) then other p else p)

/-- A poisoned frame leaves on none of the outputs it was routed to; each counts it (R23, R186). -/
def State.poisonCount (s : State) : List Nat → State
  | [] => s
  | n :: ns => State.poisonCount (s.bump (F.SW_POISONn_COUNT n)) ns

/-- A MAC control frame proven good: PAUSE and priority pause act, and every one is counted (R200). -/
def State.macControl (s : State) (n : Nat) (f : Frame) : State :=
  if beAt f.data 0 2 = 1 then s.pauseIn n (beAt f.data 2 2)
  else if beAt f.data 0 2 = 0x101 then
    s.priorityPauseIn n (beAt f.data 3 1) ((List.range 8).map fun i => beAt f.data (4 + 2 * i) 2)
  else s.bump (F.SW_PAUSERXn_COUNT n)

/-- A good frame's source is learnt where the port learns (R196). -/
def State.learnAt (s : State) (e : Nat) (x : InFrame) (f : Frame) : State :=
  if s.on (F.SW_PCFGn_LEARN (e + 3)) then s.learn x.vid f.src.toNat (.edge e) else s

/-- A good stored frame goes where classification sends it (R183, R197). -/
def State.routeOut (s : State) (n : Nat) (x : InFrame) (f : Frame) (r : RouteTo) : State :=
  let big := match r.tunnel with
    | some _ => decide (2048 < f.bytes.length + (if f.tag.isSome then 0 else 4))
    | none => false
  if big then s.bump (F.SW_RINGBIGn_COUNT n)
  else
    let s := s.enqueueMulti (r.outs.map fun k => (k, mkItem (.frame f) x.tc x.dp n 0))
    match r.tunnel with
    | some t => (s.send (s.tunnelCell f x.vid x.pcp x.tc t) none n).1
    | none => s

/-- The outputs that a poisoned frame was bound for. -/
def State.boundFor (s : State) (x : InFrame) (f : Frame) : List Nat :=
  if x.ptp then [19]
  else match x.route with
    | none => []
    | some r =>
      r.outs ++ (match r.tunnel with
        | some t => (s.wayOut (s.tunnelCell f x.vid x.pcp x.tc t)).toList
        | none => [])

/-- EDGE_FRAME_END (R181, R183, R195 to R197, R200, R447). A stored frame with a poisoned beat is bad: it is dropped at the input, and since
R181 names no counter for it there, the outputs it was bound for count it, as R23 and R186 have every poisoned frame counted (assumption 29). -/
def execEdgeFrameEnd (e : Fin 16) (data : List Byte) (fcsOk codeErr poisoned : Bool) (s : State) : Host.Outcome State Fault Refusal :=
  let n := e.val + 3
  .next (match Tbl.get none n s.slath.inputs with
    | none => s
    | some x =>
      let s := s.setInput n none
      let f := { x.head with data := data }
      let badFcs := !fcsOk || codeErr
      let badLen := decide (f.size < 64) || decide (s.rd (F.SW_PCFGn_MAXLEN n) < f.size)
      let bad := badFcs || badLen
      if x.cut then
        let s := s.cutEnd n f (bad || poisoned) x.cutOuts
        if bad || poisoned then s else s.learnAt e.val x f
      else if bad then s.bump (if badFcs then F.SW_RXFCSn_COUNT n else F.SW_RXLENn_COUNT n)
      else if poisoned then s.poisonCount (s.boundFor x f)
      else if x.ctl then s.macControl n f
      else if x.ptp then
        let body : Body :=
          if f.isEvent then .mc0 f n x.vid x.pcp true x.stampSec x.stampNs else .mc0 f n x.vid x.pcp false 0 0
        s.enqueue 19 (mkItem body x.tc x.dp n 0)
      else if x.barred then s
      else
        let s := s.learnAt e.val x f
        match x.route with
        | none => s
        | some r => s.routeOut n x f r)

/-- EDGE_LINK_DOWN (R181, R201, R202): the link of an edge port falls; a frame that was coming in is truncated. U's link is up while its STATE
is UP, and falls with it alone (R201). -/
def execEdgeLinkDown (n : Fin 17) (s : State) : Host.Outcome State Fault Refusal :=
  let p := n.val + 2
  .next (if p = 2 then s
    else
      let s := match Tbl.get none p s.slath.inputs with
        | some x =>
          let s := s.setInput p none
          if x.cut then s.cutEnd p x.head true x.cutOuts else s.bump (F.SW_RXLENn_COUNT p)
        | none => s
      s.linkLost p)

/-- A port that is disabled is flushed as a won timeout flushes it (R202). An edge port's PCS stops with it; U's link stays what its STATE
makes it (R201). -/
def State.portOff (s : State) (n : Nat) : State :=
  let s := if n = 2 then s else s.linkLost n
  let s := s.setOut n { s.outOf n with holding := false }
  ((s.wr (F.SW_PSTATn_HOLDOUT n) 2).wr (F.SW_PSTATn_FLUSHING n) 1).flushOut n

/-! ### Tunnelled frames (R197, R249) -/

/-- The frame as output n sends it: the tag goes where PVID equals vid and UNTAG = 1. -/
def State.untagAt (s : State) (n vid : Nat) (f : Frame) : Frame :=
  if s.rd (F.SW_PVIDn_PVID n) = vid ∧ s.on (F.SW_PCFGn_UNTAG n) = true then { f with tag := none } else f

/-- TUNNELLED_FRAME. -/
def execTunnelledFrame (p : PortU) (c : Cell) (s : State) : Host.Outcome State Fault Refusal :=
  let s := s.takeCell c
  let f := frameOf c.frameBytes
  let vid := match f.tag with | some (_, _, v) => v.toNat | none => 0
  let pcp := match f.tag with | some (q, _, _) => q.toNat | none => 0
  let tc := bitsOf (s.rd F.SW_RINGPCP_MAP) (3 * pcp) 3
  let (s, lti) : State × Option Nat :=
    if c.lt then
      s.launchTake (beAt c.payload 0 4) (beAt c.payload 4 4 % 2 ^ 30) (beAt c.payload 8 2) (s.rd F.TM_LTOL_NS)
    else (s, some 0)
  .next (match lti with
    | none => s
    | some lti =>
      let s := if s.on (F.SW_VLANv_VALID vid) then s.learn vid f.src.toNat (.remote c.sring.toNat c.snode.toNat) else s
      let outs :=
        if isGroup f.dst then s.vlanOuts vid
        else match s.fdbFind vid f.dst.toNat with
          | some e => (match e.dst with | .edge q => [q + 3] | .discard => [] | .remote _ _ => s.vlanOuts vid)
          | none => s.vlanOuts vid
      if outs.isEmpty then s.launchRef lti (-1)
      else s.enqueueMulti (outs.map fun n => (n, mkItem (.frame (s.untagAt n vid f)) tc c.dp.toNat p.val lti)))

/-! ### Beats of the slath (R20 to R23) -/

/-- The outputs that a ROUTE names and the slath grants: ports 0 to 26 (R18, R20). -/
def routed (route : Nat) : List Nat := (List.range 27).filter fun n => bitsOf route n 1 == 1

/-- What a frame that beats spell is to output n. -/
def BeatFrame.item (b : BeatFrame) (n : Nat) : EItem :=
  mkItem (if n ≤ 2 then .cell (cellOfBytes b.bytes) else if n ≤ 18 then .frame (frameOf b.bytes) else .raw b.bytes) b.tc b.dp b.src b.lti

/-- A cut-through frame's first beat (CT = 1) reaches its outputs: a ring port or edge port that is free begins to send it (R20, R178, R179). -/
def State.beatBegin (s : State) (b : BeatFrame) : List Nat → State × List Nat
  | [] => (s, [])
  | n :: ns =>
    if n < 2 && s.isUp n && !s.wrapped n && (s.link n).tx.isNone then
      let c := cellOfBytes b.bytes
      let s := s.setLink n { s.link n with tx := some { cell := c, awaits := true, inPort := b.src } }
      let s := ((s.bump (F.RGp_TXCELL_COUNT n)).bump (F.SW_CTn_COUNT n)).emit (.cellHead n c)
      let (s, l) := State.beatBegin s b ns
      (s, n :: l)
    else if isEdge n && (s.outOf n).sending.isNone && s.on (F.SW_PSTATn_LINK n) && !s.outFlushing n then
      let (s, l) := State.beatBegin (s.setOut n { s.outOf n with sending := some (s.starting n (b.item n) true) }) b ns
      (s, n :: l)
    else State.beatBegin s b ns

/-- A cut-through frame ends at the outputs that have begun it: whole, or stomped and counted (R23, R181). -/
def State.beatEnd (s : State) (b : BeatFrame) : List Nat → State
  | [] => s
  | n :: ns =>
    State.beatEnd (if n < 2 then
        match (s.link n).tx with
        | some x =>
          if x.awaits && x.inPort == b.src then
            let c := cellOfBytes b.bytes
            let s := s.setLink n { s.link n with tx := some { x with cell := c, awaits := false } }
            (if b.poison then s.bump (F.SW_STOMPn_COUNT n) else s).emit (.cellTail n c b.poison)
          else s
        | none => s
      else s.cutEnd b.src (frameOf b.bytes) b.poison [n]) b ns

/-- Items join their outputs: a ring cell as the wrap has it. -/
def State.beatJoin (s : State) (items : List (Nat × EItem)) : State :=
  match items with
  | [(n, i)] => if n < 2 then s.ringJoin n i else s.enqueue n i
  | l => s.enqueueMulti l

/-- A whole frame has crossed the slath: the outputs that began it end it; each other output of ROUTE gets it, as one copy where there are
several (R183), or, poisoned, drops and counts it (R23). Each output that queues the frame holds a reference to its launch entry (R248). -/
def State.beatOut (s : State) (b : BeatFrame) : State :=
  let s := s.beatEnd b b.begun
  let rest := (routed b.route).filter fun n => !b.begun.contains n
  if b.poison then s.poisonCount rest
  else if rest.isEmpty then s
  else (s.launchRef b.lti 1).beatJoin (rest.map fun n => (n, b.item n))

def State.setBeat (s : State) (p : Nat) (b : Option BeatFrame) : State :=
  { s with slath := { s.slath with beats := Tbl.put none p b s.slath.beats } }

/-- A tag with PST such that it holds an even number of ones (R20, R21). -/
def tagEven (t : Nat) : Nat := if popCount t 64 % 2 = 1 then setBits t 54 1 (1 - bitsOf t 54 1) else t

/-- The tag of a beat as it crosses: POISON set from the first poisoned beat on, PST recomputed (R21). -/
def tagCrossing (t : Nat) (poison : Bool) : Nat := if poison then tagEven (setBits t 55 1 1) else t

/-- A beat of a port's frame has been granted. -/
def State.grant (s : State) (p : Nat) (fresh : Bool) (t : Nat) : State :=
  { s with slath := { s.slath with
    granted := Tbl.put [] p ((if fresh then [] else Tbl.get [] p s.slath.granted) ++ [t]) s.slath.granted } }

/-- A frame that a first beat's tag opens: ROUTE, TC, DP, SRC, LTI and CT are that beat's (R20, R21). -/
def BeatFrame.opened (t : Nat) : BeatFrame :=
  { bytes := [], route := bitsOf t 0 32, tc := bitsOf t 32 3, dp := bitsOf t 35 2, lti := bitsOf t 42 12, ct := bitsOf t 56 1 == 1,
    src := bitsOf t 37 5, poison := false, dead := false, begun := [] }

/-- The rest of a frame whose tag failed is discarded; what was granted of it ends with POISON and EOP (R22). -/
def State.tagFailed (s : State) (p : Nat) : State :=
  let s := s.bump (F.SW_TAGPARn_COUNT p)
  match Tbl.get none p s.slath.beats with
  | some b =>
    if b.dead then s
    else
      let last := ((Tbl.get [] p s.slath.granted).getLast?).getD 0
      let s := s.grant p false (tagEven (setBits (setBits (setBits last 62 1 0) 55 1 1) 63 1 1))
      (s.beatOut { b with poison := true }).setBeat p (some { b with bytes := [], begun := [], dead := true })
  | none => s.setBeat p (some { BeatFrame.opened 0 with dead := true })

/-- A beat with a good tag is granted: it opens a frame, or goes on with the one in progress, and with EOP ends it (R20 to R23). -/
def State.beatIn (s : State) (p t : Nat) (data : List Byte) (parityOk : Bool) : State :=
  let sop := bitsOf t 62 1 == 1
  let eop := bitsOf t 63 1 == 1
  match (if sop then some (BeatFrame.opened t) else Tbl.get none p s.slath.beats) with
  | none => s
  | some b =>
    if b.dead then if eop then s.setBeat p none else s
    else
      let b := { b with bytes := b.bytes ++ data.take (bitsOf t 57 5 + 1), poison := b.poison || bitsOf t 55 1 == 1 || !parityOk }
      let s := s.grant p sop (tagCrossing t b.poison)
      let (s, begun) := if sop && b.ct && !b.poison then s.beatBegin b (routed b.route) else (s, b.begun)
      let b := { b with begun := begun }
      if eop then (s.setBeat p none).beatOut b else s.setBeat p (some b)

/-- SLATH_BEAT: the tag's parity is checked before arbitration (R22). -/
def execSlathBeat (port : Fin 27) (tag : BitVec 64) (data : List Byte) (parityOk : Bool) (s : State) : Host.Outcome State Fault Refusal :=
  .next (if popCount tag.toNat 64 % 2 = 1 then s.tagFailed port.val else s.beatIn port.val tag.toNat data parityOk)

end Sys2Proof.Machine
end

