-- ==== Sys2Proof/Machine/Rules.lean ====
section
/-! DEFINITION. Checks on values alone, which a register write and the weave loader share: ranges (R41), weaver words (R283, R284, R294),
CAN FD timing (R299, R300). -/

namespace Sys2Proof.Machine

/-! ### Fields (R8, R41) -/

/-- The value of a field in a register value. -/
def FieldSpec.of (f : FieldSpec) (v : Nat) : Nat := bitsOf v f.lo f.width

/-- The field permits a value. -/
def FieldSpec.accepts (f : FieldSpec) (x : Nat) : Bool := f.rng.isEmpty || f.rng.any fun r => decide (r.1 ≤ x) && decide (x ≤ r.2)

/-- Software gives the field a value that stays: RW or RWL. -/
def FieldSpec.keeps (f : FieldSpec) : Bool := f.acc == .rw || f.acc == .rwl

/-- Bits of a field. -/
def FieldSpec.mask (f : FieldSpec) : Nat := (2 ^ f.width - 1) * 2 ^ f.lo

/-- Bits of the fields that satisfy a test. -/
def maskOf (p : FieldSpec → Bool) : List FieldSpec → Nat
  | [] => 0
  | f :: fs => (if p f then f.mask else 0) ||| maskOf p fs

/-! ### Weaver words (R283, R284, R294) -/

/-- A word is malformed. -/
def malformed (w : Nat) : Bool :=
  let op := bitsOf w 20 4
  let f (lo n : Nat) : Nat := bitsOf w lo n
  decide (2 ^ 24 ≤ w) ||
  match op with
  | 0 => f 0 20 != 0
  | 1 => f 0 4 != 0 || (f 15 5 + 1) % 2 ^ f 13 2 != 0
  | 2 => f 0 4 != 0 || (f 15 5 + 1) % 2 ^ f 13 2 != 0
  | 3 => f 0 15 != 0
  | 4 => f 0 14 != 0 || (f 14 1 == 1 && f 15 1 == 0)
  | 5 => f 0 17 != 0
  | 6 => f 16 2 != 0 || (if f 19 1 = 1 then f 18 1 == 1 else f 0 16 != 0)
  | 7 => false
  | 8 => f 0 17 != 0 || decide (3 < f 17 3)
  | 9 => f 0 11 != 0 || !([0, 1, 2, 4].contains (f 17 3))
  | 0xA => f 0 20 != 0
  | 0xB => f 12 1 != 0 || f 15 2 == 0 || (f 14 1 == 1 && f 0 12 != 0)
  | 0xC => f 6 13 != 0
  | 0xD =>
    let c := f 16 4
    f 6 6 != 0 || ((decide (c ≤ 7) || decide (13 ≤ c)) && f 12 4 != 0) || (decide (8 ≤ c) && decide (c ≤ 11) && f 15 1 != 0)
  | 0xE => false
  | _ =>
    match f 16 4 with
    | 8 => f 1 15 != 0
    | 0xA => f 8 8 != 0
    | 0xB => f 6 10 != 0
    | 0xC => f 8 8 != 0
    | t => decide (0xD ≤ t)

/-- The wait sources a word uses: bit 0 PINS, 1 FLAGS, 2 IRQ. -/
def wordSources (w : Nat) : Nat :=
  match bitsOf w 20 4 with
  | 3 => 1
  | 0xB => 1
  | 4 => 2
  | 0xE => 2
  | 5 => 4
  | _ => 0

/-- Role of a lane in a list of roles; 7 for an unused one. -/
def roleIn (roles : List (Nat × Nat)) (l : Nat) : Nat :=
  match roles.find? fun r => r.1 == l with
  | some r => r.2
  | none => 7

/-- Every set bit of a mask is a lane that satisfies a test. -/
def lanesAll (roles : List (Nat × Nat)) (mask : Nat) (p : Nat → Bool) : Bool :=
  (List.range 8).all fun l => bitsOf mask l 1 == 0 || p (roleIn roles l)

/-- The lanes a word names exist with the right role (R295). -/
def wordFits (roles : List (Nat × Nat)) (w : Nat) : Bool :=
  let op := bitsOf w 20 4
  let drv (r : Nat) : Bool := [0, 2, 3, 4].contains r
  match op with
  | 1 => decide (2 ^ bitsOf w 13 2 ≤ (roles.filter fun r => r.2 == 0).length)
  | 2 => decide (2 ^ bitsOf w 13 2 ≤ (roles.filter fun r => r.2 == 1).length)
  | 3 => roleIn roles (bitsOf w 17 3) != 7
  | 0xB => roleIn roles (bitsOf w 17 3) != 7
  | 0xD => if bitsOf w 16 4 = 8 || bitsOf w 16 4 = 9 then roleIn roles (bitsOf w 12 3) != 7 else true
  | 7 => lanesAll roles (bitsOf w 12 8 ||| bitsOf w 4 8) drv
  | 0xF =>
    if bitsOf w 16 4 = 9 then lanesAll roles (bitsOf w 8 8) (· == 3)
    else if bitsOf w 16 4 = 0xA then lanesAll roles (bitsOf w 0 8) drv
    else true
  | _ => true

/-- The binding rules of R257 on the lanes of one weaver: (lane, pin, reach) of each lane in use. -/
def lanesOk (weaver : Nat) (ls : List (Nat × Nat × Nat)) : Bool :=
  let near := ls.filter fun l => l.2.2 == 0
  decide (((ls.map fun l => l.2.1).eraseDups).length = ls.length) && near.all (fun l => l.2.1 / 16 == weaver / 8) &&
    match near with
    | [] => true
    | h :: t => t.all fun l => l.2.1 + h.1 == h.2.1 + l.1

/-! ### CAN FD timing (R299, R300) -/

/-- Quanta of the nominal bit, and of the data bit. -/
def nbtTq (v : Nat) : Nat := 1 + (bitsOf v 9 8 + 1) + (bitsOf v 17 7 + 1)
def dbtTq (v : Nat) : Nat := 1 + (bitsOf v 5 5 + 1) + (bitsOf v 10 4 + 1)

/-- CAN clocks of each bit. -/
def nbtClocks (v : Nat) : Nat := (bitsOf v 0 9 + 1) * nbtTq v
def dbtClocks (v : Nat) : Nat := (bitsOf v 0 5 + 1) * dbtTq v

/-- The nominal phase alone: NTSEG1 at least 2, NSJW at most NTSEG2, 1 Mbit/s at most, at least 8 quanta. -/
def nbtOk (v : Nat) : Bool :=
  decide (1 ≤ bitsOf v 9 8) && decide (bitsOf v 24 7 ≤ bitsOf v 17 7) && decide (80 ≤ nbtClocks v) && decide (8 ≤ nbtTq v)

/-- The data phase: DSJW at most DTSEG2, 8 Mbit/s at most, no slower than the nominal rate, at least 5 quanta. -/
def dbtOk (nbt v : Nat) : Bool :=
  decide (bitsOf v 14 4 ≤ bitsOf v 10 4) && decide (10 ≤ dbtClocks v) && decide (dbtClocks v ≤ nbtClocks nbt) && decide (5 ≤ dbtTq v)

/-- TRIPLE is allowed: 250 kbit/s or lower, NTSEG1 at least 3. -/
def tripleOk (nbt : Nat) : Bool := decide (320 ≤ nbtClocks nbt) && decide (2 ≤ bitsOf nbt 9 8)

/-! ### Breaker curves (R366) -/

/-- Trip time of a point (I, M, E), in µs. -/
def pointUs (p : Nat × Nat × Nat) : Nat := p.2.1 * 2 ^ p.2.2 * 1000

/-- Currents rise strictly, trip times never rise, every M is at least 1 and every E at most 9 (R366). -/
def curveOrdered : List (Nat × Nat × Nat) → Bool
  | [] => true
  | [p] => decide (1 ≤ p.2.1) && decide (p.2.2 ≤ 9)
  | p :: q :: r => decide (1 ≤ p.2.1) && decide (p.2.2 ≤ 9) && decide (p.1 < q.1) && decide (pointUs q ≤ pointUs p) && curveOrdered (q :: r)

/-- The conditions of R366 on points, IINST in mA and RSENSE in µΩ (their product is in nV). -/
def curveValid (c : List (Nat × Nat × Nat)) (iinst rsense : Nat) : Bool :=
  curveOrdered c && c.all (fun p => decide (p.1 < iinst)) && decide (5000000 ≤ iinst * rsense) && decide (iinst * rsense ≤ 80000000)

end Sys2Proof.Machine
end

