-- ==== Sys2Proof/Machine/Power.lean ====
section
/-! DEFINITION. The power path: the inlet, the power-fail warning, the ADC, the branches and their breakers, and the hand-over of the
branches in a pair (chapter 14). All of it runs in the always-on domain, whether or not the core is powered (R350). -/

namespace Sys2Proof.Machine

/-! ### Events and cores (R351, R374) -/

/-- The core is powered (PW_SEQ.CORE). -/
def State.corePowered (s : State) : Bool := s.on F.PW_SEQ_CORE

/-- The core is out of reset: step 11 of R379 has been reached. -/
def State.coreRuns (s : State) : Bool := s.corePowered && decide (11 ≤ s.rd F.PW_SEQ_STEP)

/-- A power event, SRC 5: written only while the core is powered (R351). -/
def State.powEvent (s : State) (code detail w2 w3 : Nat) : State := if s.corePowered then s.event 5 code detail w2 w3 else s

/-- Autonomous policy (NC_MODE.POLICY = 0, R444). -/
def State.autonomous (s : State) : Bool := !s.on F.NC_MODE_POLICY

/-- The inlet state event of R374: STATE, CAUSE, VIN and the inlet current as last sampled. -/
def State.inletEvent (s : State) : State :=
  s.powEvent 1 (s.rd F.PW_INSTAT_STATE + s.rd F.PW_INSTAT_CAUSE * 16) (s.rd (F.PW_ADCc_VALUE 0)) (s.rd (F.PW_ADCc_VALUE 2))

/-! ### The inlet (R353 to R359) -/

/-- The inlet enters a state: INLET_PG is high in ON and HOLDUP alone; outside RAMP, QUAL and ON the FET is off, so no limiter acts and the
fault timer is idle; an event. -/
def State.inletTo (s : State) (st : Nat) : State :=
  let s := (s.wr F.PW_INSTAT_STATE st).wr F.PW_INSTAT_PG (if st = 4 || st = 5 then 1 else 0)
  let s := if st = 2 || st = 3 || st = 4 then s
    else { s.wr F.PW_INSTAT_LIMIT 0 with pow := { s.pow with timer := false, powered := false, qual := false } }
  s.inletEvent

/-- The inlet enters a state with a cause. -/
def State.inletCause (s : State) (st cause : Nat) : State := (s.wr F.PW_INSTAT_CAUSE cause).inletTo st

/-- FAULT with a cause, counted; it stays latched unless the policy is retry and retries are left (R356, R359). -/
def State.inletFault (s : State) (cause : Nat) : State :=
  let s := s.bump F.PW_INFAULTS_COUNT
  let again := s.on F.PW_INCFG_POLICY && decide (s.rd F.PW_INSTAT_RETRYN < s.rd F.PW_INCFG_RETRIES)
  ({ s with pow := { s.pow with latched := !again } } : State).inletCause 6 cause

/-- A state of the inlet. -/
def State.inlet (s : State) : Nat := s.rd F.PW_INSTAT_STATE

/-- The FET is on: RAMP, QUAL or ON. -/
def State.fetOn (s : State) : Bool := s.inlet == 2 || s.inlet == 3 || s.inlet == 4

/-- SEAT_ASSERT: OFF to SEAT; a release of 50 ms or more before it has cleared a latched fault (R359). -/
def execSeatAssert (longRelease : Bool) (s : State) : Host.Outcome State Fault Refusal :=
  .next (if s.inlet = 0 then
      let s := (s.wr F.PW_INSTAT_SEAT 3)
      ({ s with pow := { s.pow with latched := s.pow.latched && !longRelease } } : State).inletTo 1
    else s)

/-- SEAT_QUALIFIED: SEAT to RAMP, unless a fault is still latched (R359). -/
def execSeatQualified (s : State) : Host.Outcome State Fault Refusal :=
  .next (if s.inlet = 1 && !s.pow.latched then s.inletTo 2 else s)

/-- SEAT_RELEASE: to OFF from every state; `a`, `b`: the pins still asserted. -/
def execSeatRelease (a b : Bool) (s : State) : Host.Outcome State Fault Refusal :=
  .next (if a && b then s
    else
      let s := s.wr F.PW_INSTAT_SEAT (b2n a + 2 * b2n b)
      if s.inlet = 0 then s else s.inletCause 0 6)

/-- INLET_OV: to SEAT with cause OV. With a seat pin released the inlet stays OFF. -/
def execInletOv (s : State) : Host.Outcome State Fault Refusal := .next (if s.inlet = 0 then s else s.inletCause 1 4)

/-- INLET_UV: VIN below UV in RAMP and QUAL, VOUT below UV in HOLDUP. -/
def execInletUv (s : State) : Host.Outcome State Fault Refusal :=
  .next (if s.inlet = 2 || s.inlet = 3 || s.inlet = 5 then s.inletCause 1 5 else s)

/-- RAMP_DONE: the 1 ms of R358 starts, or waits until the fault timer is idle. -/
def execRampDone (s : State) : Host.Outcome State Fault Refusal :=
  .next (if s.inlet = 2 then ({ s with pow := { s.pow with qual := !s.pow.timer } } : State).inletTo 3 else s)

/-- RAMP_TIMEOUT. -/
def execRampTimeout (s : State) : Host.Outcome State Fault Refusal := .next (if s.inlet = 2 then s.inletFault 3 else s)

/-- INLET_LIMIT_ENTRY: a limiter acts. The first to act starts the fault timer (R355) and reaches the qualification latch (R358). -/
def execInletLimitEntry (power : Bool) (s : State) : Host.Outcome State Fault Refusal :=
  .next (if s.fetOn then
      let first := s.rd F.PW_INSTAT_LIMIT == 0
      let s := s.wr F.PW_INSTAT_LIMIT (s.rd F.PW_INSTAT_LIMIT ||| (if power then 2 else 1))
      let s := if s.pow.timer then s else (s.bump F.PW_LIMITS_COUNT)
      let s := { s with pow := { s.pow with timer := true, powered := s.pow.powered || power } }
      if !first then s
      else if s.inlet = 3 && s.pow.qual then { s.wr F.PW_INSTAT_QOUT 1 with pow := { s.pow with qual := false } }
      else if s.inlet = 4 && s.rd F.PW_INSTAT_QOUT == 2 then s.bump F.PW_LATE_COUNT
      else s
    else s)

/-- INLET_LIMIT_EXIT: a limiter no longer acts; `current`, `power`: the limiters that still do (R353). -/
def execInletLimitExit (current power : Bool) (s : State) : Host.Outcome State Fault Refusal :=
  .next (s.wr F.PW_INSTAT_LIMIT (s.rd F.PW_INSTAT_LIMIT &&& (b2n current + 2 * b2n power)))

/-- FAULT_TIMER_IDLE: out of limit for 100 µs; in QUAL the 1 ms starts again. -/
def execFaultTimerIdle (s : State) : Host.Outcome State Fault Refusal :=
  .next (if s.pow.timer && s.rd F.PW_INSTAT_LIMIT == 0 then
      { s with pow := { s.pow with timer := false, powered := false, qual := s.pow.qual || s.inlet == 3 } }
    else s)

/-- FAULT_TIMER_EXPIRY. -/
def execFaultTimerExpiry (s : State) : Host.Outcome State Fault Refusal :=
  .next (if s.fetOn && s.pow.timer then s.inletFault 1 else s)

/-- FAST_TRIP: whatever the fault timer holds. -/
def execFastTrip (s : State) : Host.Outcome State Fault Refusal := .next (if s.fetOn then s.inletFault 2 else s)

/-- QUAL_TIMER: qualification wins. -/
def execQualTimer (s : State) : Host.Outcome State Fault Refusal :=
  .next (if s.inlet = 3 && s.pow.qual then
      let s := s.wr F.PW_INSTAT_QOUT 2
      ({ s with pow := { s.pow with qual := false }, sup := { s.sup with spent := false } } : State).inletTo 4
    else s)

/-- HOLDUP_ENTRY: the FET off, so no limiter acts. -/
def execHoldupEntry (s : State) : Host.Outcome State Fault Refusal := .next (if s.inlet = 4 then s.inletTo 5 else s)

/-- HOLDUP_EXIT. -/
def execHoldupExit (s : State) : Host.Outcome State Fault Refusal := .next (if s.inlet = 5 then s.inletTo 4 else s)

/-- INLET_RETRY. -/
def execInletRetry (s : State) : Host.Outcome State Fault Refusal :=
  .next (if s.inlet = 6 && s.on F.PW_INCFG_POLICY && decide (s.rd F.PW_INSTAT_RETRYN < s.rd F.PW_INCFG_RETRIES) then
      let s := s.wr F.PW_INSTAT_RETRYN (s.rd F.PW_INSTAT_RETRYN + 1)
      ({ s with pow := { s.pow with latched := false } } : State).inletTo 2
    else s)

/-- INLET_RETRY_RESET. -/
def execInletRetryReset (s : State) : Host.Outcome State Fault Refusal := .next (if s.inlet = 4 then s.wr F.PW_INSTAT_RETRYN 0 else s)

/-- A latched inlet is cleared by the mate's message (R359): from FAULT it goes to SEAT. -/
def State.inletClear (s : State) : State :=
  if s.pow.latched then
    let s := { s with pow := { s.pow with latched := false } }
    if s.inlet = 6 then s.inletTo 1 else s
  else s

/-! ### Heat (R367) -/

/-- H = 1, in the model's units of 2^-60. -/
def heatOne : Nat := 2 ^ 60

/-- H of a branch. -/
def State.heatOf (s : State) (b : Nat) : Nat := Tbl.get 0 b s.pow.heat

/-- H of a branch takes a value, at most 1; HEAT shows it in units of 2^-20. -/
def State.setHeat (s : State) (b h : Nat) : State :=
  let h := min h heatOne
  { s.wr (F.PW_Bb_STAT_HEAT b) (h / 2 ^ 40) with pow := { s.pow with heat := Tbl.put 0 b h s.pow.heat } }

/-- Binary digits of log2 of m / 2^60, 1 <= m / 2^60 < 2, appended to what is known of it. -/
def logBits : Nat → Nat → Nat → Nat
  | 0, _, acc => acc
  | k + 1, m, acc =>
    let q := m * m / 2 ^ 60
    if 2 ^ 61 ≤ q then logBits k (q / 2) (2 * acc + 1) else logBits k q (2 * acc)

/-- log2 (a / b) in units of 2^-40, for a >= b > 0. -/
def logTwo (a b : Nat) : Nat :=
  let n := Nat.log2 (a / b)
  logBits 40 (a * 2 ^ 60 / (b * 2 ^ n)) n

/-- Square root of n, digit by digit from 2^k down. -/
def rootBits : Nat → Nat → Nat → Nat
  | 0, _, r => r
  | k + 1, n, r => rootBits k n (if (r + 2 ^ k) * (r + 2 ^ k) ≤ n then r + 2 ^ k else r)

/-- 2^-(y / 2^40) in units of 2^-60: fraction bits taken from the highest, `c` the factor of the next. -/
def expBits : Nat → Nat → Nat → Nat → Nat
  | 0, _, _, p => p
  | k + 1, y, c, p =>
    let c := rootBits 61 (c * 2 ^ 60) 0
    expBits k y c (if y / 2 ^ k % 2 = 1 then p * c / 2 ^ 60 else p)

/-- 2^-(y / 2^40), in units of 2^-60. -/
def expTwo (y : Nat) : Nat := expBits 40 (y % 2 ^ 40) (2 ^ 59) (2 ^ 60) / 2 ^ (y / 2 ^ 40)

/-- The points of a curve at or below a current, highest last, and the next one above it. -/
def curveAt (i : Nat) : List (Nat × Nat × Nat) → Option (Nat × Nat × Nat) → Option (Nat × Nat × Nat) × Option (Nat × Nat × Nat)
  | [], lo => (lo, none)
  | p :: ps, lo => if p.1 ≤ i then curveAt i ps (some p) else (lo, some p)

/-- What one sample of 20 µs adds to H at current i, in units of 2^-60; none: below I0, it cools (R367). -/
def heatStep (curve : List (Nat × Nat × Nat)) (i : Nat) : Option Nat :=
  match curveAt i curve none with
  | (none, _) => none
  | (some p, none) => some (heatOne * 20 / pointUs p)
  | (some p, some q) =>
    let e := logTwo i p.1 * 2 ^ 40 / logTwo q.1 p.1
    let f := expTwo (logTwo (pointUs p) (pointUs q) * e / 2 ^ 40)
    some (heatOne * 20 * 2 ^ 60 / (pointUs p * f))

/-- H after a sample. -/
def State.heated (s : State) (b i : Nat) : Nat :=
  let h := s.heatOf b
  match heatStep (Tbl.get [] b s.pow.curves) i with
  | none => h - h * 20 / (s.rd (F.PW_Bb_LIM_COOL b) * 1000000)
  | some d => h + d

/-! ### Branches (R365 to R370) -/

/-- The hub drives the gates (R371). -/
def State.drivesGates (s : State) : Bool := s.on F.PW_OWN_OWNER || s.on F.PW_OWN_TAKING

/-- State of a branch. -/
def State.branch (s : State) (b : Nat) : Nat := s.rd (F.PW_Bb_STAT_STATE b)

/-- One entry of OFFER or BRANCH: STATE, RETRYN and H in units of 2^-10, rounded up (R406). -/
def State.offerEntry (s : State) (b : Nat) : List Byte :=
  beBytes (s.branch b * 2 ^ 14 + s.rd (F.PW_Bb_STAT_RETRYN b) * 2 ^ 11 + min 1024 ((s.heatOf b + 2 ^ 50 - 1) / 2 ^ 50)) 2

/-- While ON is frozen the giver sends each change (R372). -/
def State.branchTell (s : State) (b : Nat) : State := if s.pow.frozen then s.emit (.mate 9 (beBytes b 1 ++ s.offerEntry b)) else s

/-- A branch goes on or off, with its event. -/
def State.branchSet (s : State) (b st : Nat) : State :=
  let s := s.wr (F.PW_Bb_STAT_STATE b) st
  let s := if st = 1 then s.wr (F.PW_Bb_STAT_STUCK b) 0 else s
  (s.powEvent 5 (b + (if st = 1 then 8 else 0)) 0 0).branchTell b

/-- A trip (R369): counted, an event; autonomous and with retries left it waits for its retry, otherwise ON clears. -/
def State.trip (s : State) (b cause ma : Nat) : State :=
  let s := ((s.wr (F.PW_Bb_STAT_STATE b) 2).wr (F.PW_Bb_STAT_CAUSE b) cause).bump (F.PW_Bb_TRIPS_COUNT b)
  let s := s.powEvent 4 (b + cause * 8) ma (s.rd (F.PW_Bb_STAT_HEAT b))
  let s := if s.autonomous && decide (s.rd (F.PW_Bb_STAT_RETRYN b) < s.rd (F.PW_Bb_CTL_RETRIES b)) then s.wr (F.PW_Bb_STAT_STATE b) 3
    else s.wr (F.PW_Bb_CTL_ON b) 0
  s.branchTell b

/-- One branch's sample: its heat, and a trip where the hub owns the branches and H reaches 1 (R367, R371). -/
def State.sampleBranch (s : State) (b i : Nat) : State :=
  let s := s.setHeat b (s.heated b i)
  if s.on F.PW_OWN_OWNER && s.branch b = 1 && decide (heatOne ≤ s.heatOf b) then s.trip b 1 i else s

/-- Samples of channels c, c + 1, ... (R364). -/
def State.sampleAll (s : State) (c : Nat) : List (BitVec 16) → State
  | [] => s
  | v :: vs =>
    if c < 11 then
      let s := (s.wr (F.PW_ADCc_VALUE c) v.toNat).peak (F.PW_ADCc_PEAK c) v.toNat
      State.sampleAll (if 3 ≤ c then s.sampleBranch (c - 3) v.toNat else s) (c + 1) vs
    else s

/-- BRANCH_SAMPLE: the ADC's samples, channel 0 first, scaled as R364. -/
def execBranchSample (adc : List (BitVec 16)) (s : State) : Host.Outcome State Fault Refusal := .next (s.sampleAll 0 adc)

/-- BRANCH_INSTANT_TRIP (R368); a hub that does not own the branches never trips (R371). -/
def execBranchInstantTrip (b : Fin 8) (ma : BitVec 16) (s : State) : Host.Outcome State Fault Refusal :=
  .next (if s.on F.PW_OWN_OWNER && s.branch b.val = 1 then (s.setHeat b.val heatOne).trip b.val 2 ma.toNat else s)

/-- BRANCH_RETRY: once H has fallen to 0.5 (R369). -/
def execBranchRetry (b : Fin 8) (s : State) : Host.Outcome State Fault Refusal :=
  .next (if s.branch b.val = 3 && decide (s.heatOf b.val ≤ heatOne / 2) then
      (s.wr (F.PW_Bb_STAT_RETRYN b.val) (s.rd (F.PW_Bb_STAT_RETRYN b.val) + 1)).branchSet b.val 1
    else s)

/-- BRANCH_RETRY_RESET. -/
def execBranchRetryReset (b : Fin 8) (s : State) : Host.Outcome State Fault Refusal :=
  .next (if s.branch b.val = 1 then s.wr (F.PW_Bb_STAT_RETRYN b.val) 0 else s)

/-- BRANCH_STUCK (R370): a branch of its own that is off. -/
def execBranchStuck (b : Fin 8) (ma : BitVec 16) (s : State) : Host.Outcome State Fault Refusal :=
  .next (if s.on F.PW_OWN_OWNER && s.branch b.val != 1 && !s.on (F.PW_Bb_STAT_STUCK b.val) then
      (s.wr (F.PW_Bb_STAT_STUCK b.val) 1).powEvent 6 b.val ma.toNat 0
    else s)

/-- The shadow curve of a branch: its eight registers. -/
def State.shadowCurve (s : State) (b : Nat) : List (Nat × Nat × Nat) :=
  (List.range 8).map fun k => (s.rd (F.PW_Bb_CURVEk_I b k), s.rd (F.PW_Bb_CURVEk_M b k), s.rd (F.PW_Bb_CURVEk_E b k))

/-- The conditions of R366 on a branch's shadow, IINST and RSENSE. -/
def State.curveOk (s : State) (b : Nat) : Bool :=
  curveValid (s.shadowCurve b) (s.rd (F.PW_Bb_LIM_IINST b)) (s.rd (F.PW_Bb_RSENSE_RSENSE b))

/-- LOADCURVE commits the shadow; H is kept (R366). -/
def State.curveCommit (s : State) (b : Nat) : State :=
  { s with pow := { s.pow with curves := Tbl.put [] b (s.shadowCurve b) s.pow.curves } }

/-- ON may be set: an own claim of class 0x09 on the branch (resource 0x06), and a committed curve (R365). -/
def State.branchClaimed (s : State) (b : Nat) : Bool :=
  match s.holder 6 b with
  | some (c, _) => c == 9
  | none => false

/-- A write of ON takes effect: 1 turns the branch on, a tripped one with RETRYN := 0; 0 turns it off. -/
def State.branchWritten (s : State) (b : Nat) (on : Bool) : State :=
  let s := { s with pow := { s.pow with shed := setBits s.pow.shed b 1 0 } }
  if on then
    if s.branch b = 1 then s
    else (if 2 ≤ s.branch b then s.wr (F.PW_Bb_STAT_RETRYN b) 0 else s).branchSet b 1
  else if s.branch b = 0 then s
  else s.branchSet b 0

/-! ### PFW_N (R360, R361, R363) -/

/-- Owned branches of SHED that are on go off, with cause SHED. -/
def State.shedAll (s : State) : List Nat → State
  | [] => s
  | b :: bs =>
    if bitsOf (s.rd F.PW_PFWCFG_SHED) b 1 = 1 && s.branch b = 1 then
      let s := (s.wr (F.PW_Bb_STAT_CAUSE b) 3).branchSet b 0
      State.shedAll { s with pow := { s.pow with shed := setBits s.pow.shed b 1 1 } } bs
    else State.shedAll s bs

/-- Branches shed go on again. -/
def State.unshedAll (s : State) : List Nat → State
  | [] => s
  | b :: bs =>
    State.unshedAll (if bitsOf s.pow.shed b 1 = 1 && s.on (F.PW_Bb_CTL_ON b) then s.branchSet b 1 else s) bs

/-- PFW_N asserts: counted, owned branches shed, an event (R360, R361). -/
def State.pfwOn (s : State) : State :=
  let s := (s.wr F.PW_PFWSTAT_ACTIVE 1).bump F.PW_PFWS_COUNT
  let s := if s.on F.PW_OWN_OWNER then s.shedAll (List.range 8) else s
  s.powEvent 2 1 (s.rd (F.PW_ADCc_VALUE 0)) 0

/-- PFW_RELEASE. -/
def execPfwRelease (s : State) : Host.Outcome State Fault Refusal :=
  .next (if s.on F.PW_PFWSTAT_ACTIVE then
      let s := (s.wr F.PW_PFWSTAT_ACTIVE 0).powEvent 2 0 (s.rd (F.PW_ADCc_VALUE 0)) 0
      let s := if s.autonomous then s.unshedAll (List.range 8) else s
      { s with pow := { s.pow with shed := 0 } }
    else s)

/-! ### Hand-over (R371, R372) -/

/-- TAKE is sent: the taker's offer timer starts. -/
def State.takeSent (s : State) : State :=
  { (s.wr F.PW_OWN_TAKING 1).emit (.mate 7 []) with pow := { s.pow with offering := true } }

/-- A frame of the mate with the LEN of its TYPE, a good CRC and a known TYPE (R405). -/
def mateGood (f : MateFrame) (len : Nat) : Bool := !f.bad && f.payload.length == len

/-- MATE_FRAME_ERROR: a frame is discarded and counted (R405). -/
def State.mateBad (s : State) : State := s.bump F.MT_LINEERR_COUNT

/-- MATE_TAKE: the owner freezes ON and sends OFFER. -/
def execMateTake (f : MateFrame) (s : State) : Host.Outcome State Fault Refusal :=
  .next (if !mateGood f 0 then s.mateBad
    else if s.on F.PW_OWN_OWNER then
      let s := { s with pow := { s.pow with frozen := true } }
      s.emit (.mate 8 ((List.range 8).flatMap fun b => s.offerEntry b))
    else s)

/-- The taker follows one entry: STATE, RETRYN, and H the larger of its own and the one sent. -/
def State.follow (s : State) (b e : Nat) : State :=
  let s := (s.wr (F.PW_Bb_STAT_STATE b) (bitsOf e 14 2)).wr (F.PW_Bb_STAT_RETRYN b) (bitsOf e 11 3)
  s.setHeat b (max (s.heatOf b) (bitsOf e 0 11 * 2 ^ 50))

/-- Entries of an OFFER from branch b on. -/
def State.followAll (s : State) (payload : List Byte) : List Nat → State
  | [] => s
  | b :: bs => State.followAll (s.follow b (beAt payload (2 * b) 2)) payload bs

/-- OFFER: within the 10 ms it wins the hand race; after the timer has won it is late. -/
def execOffer (f : MateFrame) (s : State) : Host.Outcome State Fault Refusal :=
  .next (if !mateGood f 16 then s.mateBad
    else if s.pow.offering then
      let s := { s.wr F.PW_OWN_HANDOUT 1 with pow := { s.pow with offering := false } }
      s.followAll f.payload (List.range 8)
    else if s.rd F.PW_OWN_HANDOUT = 2 then s.bump F.PW_LATE_COUNT
    else s)

/-- The taker drives the values of its own ON fields. -/
def State.ownGates (s : State) : List Nat → State
  | [] => s
  | b :: bs => State.ownGates (s.wr (F.PW_Bb_STAT_STATE b) (s.rd (F.PW_Bb_CTL_ON b))) bs

/-- OFFER_TIMEOUT. -/
def execOfferTimeout (s : State) : Host.Outcome State Fault Refusal :=
  .next (if s.pow.offering then
      let s := { s.wr F.PW_OWN_HANDOUT 2 with pow := { s.pow with offering := false } }
      s.ownGates (List.range 8)
    else s)

/-- BRANCH_MESSAGE: during the hand-over the taker follows each change. -/
def execBranchMessage (f : MateFrame) (s : State) : Host.Outcome State Fault Refusal :=
  .next (if !mateGood f 3 then s.mateBad
    else if s.on F.PW_OWN_TAKING then s.follow (beAt f.payload 0 1 % 8) (beAt f.payload 1 2) else s)

/-- ROLE selects the taker (step 5): the taker owns the branches, or the giver lets them go. -/
def State.handed (s : State) (own : Bool) : State :=
  let s := { ((s.wr F.PW_OWN_OWNER (b2n own)).wr F.PW_OWN_TAKING 0) with pow := { s.pow with frozen := false, offering := false } }
  s.powEvent 7 (b2n own + s.rd F.PW_OWN_HANDOUT * 2) 0 0

/-- ROLE_CHANGE, seen at the taker or at the giver. -/
def execRoleChange (s : State) : Host.Outcome State Fault Refusal :=
  .next (if s.on F.PW_OWN_TAKING then s.handed true else if s.on F.PW_OWN_OWNER && s.pow.frozen then s.handed false else s)

end Sys2Proof.Machine
end

