-- ==== Sys2Proof/Machine/Units.lean ====
section
/-! DEFINITION. What the running image gives registers, and the reset of each unit to it (R49, R68, R70, R390). -/

namespace Sys2Proof.Machine

/-! ### Values of the running image (R39, R49, R280) -/

/-- The preset that names a register. -/
def State.presetAt (s : State) (key : Nat) : Option Preset :=
  match s.weave with
  | none => none
  | some w => w.presets.find? fun p => keyOf p.cls p.off == key

/-- The bits of a register that the image leaves open (R40). -/
def State.openBits (s : State) (key : Nat) : Nat :=
  match s.presetAt key with
  | some p => p.opn
  | none => 0

/-- The key of a lane register. -/
def laneKey (weaver lane : Nat) : Nat := keyOf 4 (weaver * 0x400 + 0x40 + 4 * lane)

/-- The bits of a register that presets set: its RW and RWL fields. -/
def keptBits (key : Nat) : Nat :=
  match regAt (key / 0x100000) (key % 0x100000) with
  | some (f, _) => maskOf FieldSpec.keeps f.fields
  | none => 0

/-- A register's RW and RWL bits replaced. -/
def withKept (key old v : Nat) : Nat := (old &&& (0xFFFFFFFF ^^^ keptBits key)) ||| (v &&& keptBits key)

/-- The value a register takes at a reset that loads the image's presets (R49, R68). -/
def State.imageReset (s : State) (key : Nat) : Nat :=
  let v := match s.presetAt key with
    | some p => withKept key (regReset key).toNat p.value
    | none => (regReset key).toNat
  match s.weave with
  | none => v
  | some w =>
    match w.pins.find? fun r => laneKey r.weaver r.lane == key with
    | some r => withKept key v (r.laneValue + v / 2 ^ 15 * 2 ^ 15)
    | none => v

/-- Registers named take the values the image gives them. -/
def State.toImage (s : State) : List Nat → State
  | [] => s
  | k :: ks => State.toImage (s.setReg k (BitVec.ofNat 32 (s.imageReset k))) ks

/-- Every key that the image gives a value. -/
def State.imageKeys (s : State) : List Nat :=
  match s.weave with
  | none => []
  | some w => (w.presets.map fun p => keyOf p.cls p.off) ++ w.pins.map fun r => laneKey r.weaver r.lane

/-- The registers that satisfy a test return to their reset values, with the presets of the running image (R390). -/
def State.resetRegs (s : State) (p : Nat → Bool) : State :=
  { s with regs := s.regs.filter fun e => !p e.1 }.toImage (s.imageKeys.filter p)

/-- A key is one of a class, within a range of offsets. -/
def inRange (cls lo hi key : Nat) : Bool := key / 0x100000 == cls && decide (lo ≤ key % 0x100000) && decide (key % 0x100000 < hi)

/-! ### Per-unit resets (R388, R390) -/

/-- CFk: its queues are lost; where the image enables it, bus integration starts (R303). -/
def State.canUnitReset (s : State) (k : Nat) : State :=
  (s.setCan k CanSt.init).resetRegs (inRange 5 (0x8000 * k) (0x8000 * (k + 1)))

/-- The field hub and host engine. -/
def State.fieldUnitReset (s : State) : State :=
  let s := s.resetRegs (inRange 6 0x1000 0x10000)
  { s with usb := { s.usb with fields := [] } }

/-- The service port S. -/
def State.svcUnitReset (s : State) : State :=
  let s := s.resetRegs (inRange 6 0 0x1000)
  { s with usb := { UsbSt.init with fields := s.usb.fields } }

/-- Delayed reads in progress: slots that are not free. -/
def State.pendingReads (s : State) : Nat := (s.bridge.slots.filter fun e => e.2.state != 0).length

/-- The bridge: pending delayed reads are discarded and counted in BX_DRDISC, and the far write buffer is emptied; ring requests that it has
taken stay and go on (R390, R391; assumption 14). -/
def State.bridgeUnitReset (s : State) : State :=
  let n := s.pendingReads
  let s := s.resetRegs (inRange 7 0 0x10000)
  let keep := fun (e : Cell × Bool × Waiter) => match e.2.2 with | .farWrite _ _ _ => false | _ => true
  let src := s.pair.src.map fun e => (e.1, { e.2 with waiting := e.2.waiting.filter keep })
  let s := { s with bridge := { BridgeSt.init with nextId := s.bridge.nextId, jobs := s.bridge.jobs, held := s.bridge.held }, pair := { s.pair with src := src, queue := s.pair.queue.filter keep } }
  s.bumpBy F.BX_DRDISC_COUNT n

/-- Compares and captures. -/
def State.timeUnitReset (s : State) : State :=
  let s := s.resetRegs fun k => inRange 2 0x1000 0x1200 k || inRange 2 0x2000 0x2040 k
  { s with tm := { s.tm with fired := [], caps := [] } }

/-- Registers of a slath port. -/
def portKey (n key : Nat) : Bool :=
  inRange 3 (0x1000 + 0x40 * n) (0x1040 + 0x40 * n) key || inRange 3 (0x4000 + 0x40 * n) (0x4040 + 0x40 * n) key ||
    inRange 3 (0x80000 + 0x4000 * n) (0x84000 + 0x4000 * n) key

/-- What an output held is flushed, counted in SW_FLUSHn, and a frame on the wire in SW_LINKLOSTn (R202); its lists and pauses go. -/
def State.outUnitReset (s : State) (n : Nat) : State :=
  let o := s.outOf n
  let s := s.resetRegs (portKey n)
  let s := match o.sending with
    | some x => ((s.bump (F.SW_LINKLOSTn_COUNT n)).setOut n { o with sending := none }).freeItem n x.item
    | none => s
  let s := (s.flushOut n).setOut n OutSt.init
  { s with slath := { s.slath with inputs := Tbl.put none n none s.slath.inputs } }

/-- An edge port En. -/
def State.edgeUnitReset (s : State) (e : Nat) : State := s.outUnitReset (e + 3)

/-- U: its link goes down, and starts again where the image enables it. -/
def State.uplinkUnitReset (s : State) : State :=
  let s := s.toDown 2
  let s := (s.outUnitReset 2).resetRegs (inRange 1 0x2000 0x3000)
  (s.setLink 2 LinkSt.init).linkEnable false 2

/-- One weaver: it stops, its lanes take the PARK state of its presets (R259), its queued words go, those for transmission counted in WVn_TXDROP. -/
def State.weaverUnitReset (s : State) (n : Nat) : State :=
  let s := s.wvStop n
  let w := s.wvr n
  let s := s.resetRegs (inRange 4 (0x400 * n) (0x400 * (n + 1)))
  let s := s.resetRegs fun k => k == keyOf 2 (0x4000 + 4 * n)
  let s := s.bumpBy (F.WVn_TXDROP_COUNT n) (w.tx.length + w.back.length)
  (s.setWv n { WvSt.init with lanes := w.lanes.map fun l => { l with ever := false, acted := none } }).wvPark n (s.clock.tick + 1)

/-- Resets of several units of one kind. -/
def State.eachUnit (s : State) (f : State → Nat → State) : List Nat → State
  | [] => s
  | k :: ks => State.eachUnit (f s k) f ks

/-- NC_WRST: the eight weavers of each named basket. -/
def State.basketUnitReset (s : State) (m : Nat) : State := s.eachUnit State.weaverUnitReset ((List.range 8).map (8 * m + ·))

/-- A write of NC_URST. -/
def State.urst (s : State) (v : Nat) : State :=
  let s := s.eachUnit State.canUnitReset (masked 0 v 8)
  let s := if bitsOf v 8 1 = 1 then s.fieldUnitReset else s
  let s := if bitsOf v 9 1 = 1 then s.svcUnitReset else s
  let s := if bitsOf v 10 1 = 1 then s.bridgeUnitReset else s
  let s := if bitsOf v 11 1 = 1 then s.timeUnitReset else s
  if bitsOf v 12 1 = 1 then s.uplinkUnitReset else s

/-- A write of NC_WRST. -/
def State.wrst (s : State) (v : Nat) : State := s.eachUnit State.basketUnitReset (masked 0 v 16)

/-- A write of NC_ERST. -/
def State.erst (s : State) (v : Nat) : State := s.eachUnit State.edgeUnitReset (masked 0 v 16)

/-- UNIT_RESET_DONE: resets take place at once in this model, so no access is held when one ends. -/
def execUnitResetDone (s : State) : Host.Outcome State Fault Refusal := .next s

end Sys2Proof.Machine
end

