-- ==== Sys2Proof/Machine/Supply.lean ====
section
/-! DEFINITION. Supplies, clocks, resets and speed modes (chapter 15). -/

namespace Sys2Proof.Machine

/-! ### The store lines (R402), as the supplies need them -/

/-- A part that is not written to its end is torn: what stood in its place is gone too (R413). -/
def State.tear (s : State) (p : Option CkPart) : State :=
  match p with
  | some p => { s with store := { s.store with parts := s.store.parts.filter fun q => !(q.slot == p.slot && q.half == p.half) } }
  | none => s

/-- Every checkpoint under way is torn. -/
def State.tearAll (s : State) : State :=
  let s := (s.tear s.mt.writing).tear s.mt.finalPart
  { s with mt := { s.mt with writing := none, finalPart := none }, pow := { s.pow with final := false } }

/-- The hub releases the store: CK_OWN_REQ_O low, CK_OWN_GNT_O high, ROLE low. It requests again only while it hears no mate. -/
def State.storeRelease (s : State) : State :=
  if s.on F.MT_STAT_OWNER then
    let s := ((s.wr F.MT_STAT_OWNER 0).wr F.MT_STAT_ROLE 2).tearAll
    { s with mt := { s.mt with req := !s.on F.MT_STAT_MATEPRES, lent := false, lending := false, due := false, dueFull := false } }
  else s

/-! ### Resets (R388 to R391) -/

/-- A register of the AON domain: one of its fields has a reset "AON v" (R350). -/
def aonKey (key : Nat) : Bool :=
  match regAt (key / 0x100000) (key % 0x100000) with
  | some (f, _) => f.fields.any fun x => x.src == .aon
  | none => false

/-- What a warm or ring reset keeps besides: discipline state, TM_RATE, the speed mode and the voltage in force (R390, R391). -/
def warmKey (key : Nat) : Bool :=
  [F.TM_DSTAT_STATE.key, F.TM_RATE_RATE.key, F.NC_SPSTAT_CUR.key, F.NC_AVS_VCORE.key].contains key

/-- The core is reset. RESET_N (and what acts like it): registers, queues, pool, pair tables, on-chip tally and time are lost, membership
comes back from its record. A warm or ring reset keeps membership, tally, time and speed mode. The weave is gone until the boot load. -/
def State.coreReset (s : State) (warm : Bool) : State :=
  let mem := if warm && s.isAssigned then some s.memNow else s.memRecord
  let dup := s.rd F.RG_SELF_DUP
  let s := s.tearAll
  let mg := { MgSt.init with
    startCount := s.mg.startCount, nextSeq := s.mg.nextSeq
    tally := if warm then s.mg.tally else [], toStore := if warm then s.mg.toStore else [] }
  let tm := if warm then
      { TimeSt.init with
        syncSent := s.tm.syncSent, lastUsed := s.tm.lastUsed, syncTimer := s.tm.syncTimer, syncLost := s.tm.syncLost, inLock := s.tm.inLock
        outStep := s.tm.outStep, lastA := s.tm.lastA, runA := s.tm.runA, firstUsed := s.tm.firstUsed, clockSrc := s.tm.clockSrc }
    else TimeSt.init
  let s := { s with
    regs := s.regs.filter fun e => aonKey e.1 || (warm && warmKey e.1)
    inbox := [], weave := none, eq := EqSt.init, mg := mg, links := [], mem := { MemSt.init with record := s.mem.record }
    pair := PairSt.init, bridge := BridgeSt.init, slath := SlathSt.init, outs := [], tm := tm, usb := UsbSt.init, wv := WeaversSt.init
    can := [], we := LoaderSt.init
    fw := { s.fw with verified := false, holder := none, blk := [], running := [], sdm := [] }
    mt := { s.mt with due := false, dueFull := false, forCmd := false, yielding := false }
    sup := { s.sup with mcUp := false, warm := warm } }
  match mem with
  | some m => ((s.memTake m).wr F.RG_SELF_DUP dup).clockUpdate
  | none => s.clockUpdate

/-- The pair identity (R111): that of the store header; the fused identity where there is no store. -/
def State.pairIdent (s : State) : Nat := if s.store.fitted then s.store.pairId else s.otp.fusedId

/-- The values that the fuses give registers (Reset entry "OTP"): identity, NC_DEBUG.FUSED, WE_KEYSLOT. -/
def State.fuseRegs (s : State) : State :=
  let bit (f : KeySlot → Bool) (i : Nat) : Nat := b2n (f (Tbl.get KeySlot.blank i s.otp.keys)) * 2 ^ i
  let s := (s.wr F.RG_IDL_IDENT (s.otp.fusedId % 2 ^ 32)).wr F.RG_IDH_IDENT (s.otp.fusedId / 2 ^ 32)
  let s := s.wr F.NC_DEBUG_FUSED (b2n s.otp.debugDisable)
  let s := s.wr F.WE_KEYSLOT_REVOKED (bit (·.revoked) 0 + bit (·.revoked) 1 + bit (·.revoked) 2 + bit (·.revoked) 3)
  s.wr F.WE_KEYSLOT_PROV (bit (·.prov) 0 + bit (·.prov) 1 + bit (·.prov) 2 + bit (·.prov) 3)

/-- Step 11: the core reset is released; local tick and time start at 0 unless the reset kept them. A ring port that has not been in UP since
counts as wrapped (R133), with nothing counted. The ports that their reset value of ENABLE puts in use leave DOWN (R78): forwarding and
membership need no firmware (R453; assumption 20). -/
def State.coreUp (s : State) : State :=
  let s := s.wr F.PW_SEQ_STEP 11
  let s := s.wr F.TL_STORE_PRESENT (b2n s.store.fitted)
  let s := (s.wr F.RG_PIDL_PIDENT (s.pairIdent % 2 ^ 32)).wr F.RG_PIDH_PIDENT (s.pairIdent / 2 ^ 32)
  let s := { s with sup := { s.sup with locking := false } }
  let s := s.fuseRegs
  let s := (s.setWrapped 0 1).setWrapped 1 1
  let s := if s.sup.warm then s else { s with clock := { site := 0, tick := 0 } }
  s.eachUnit (State.linkEnable · false) [0, 1, 2]

/-- LINKDOWN leaves on a ring port that a neighbour has seen (R390). -/
def State.sayDown (s : State) (p : Nat) : State :=
  if s.linkState p = 4 || s.linkState p = 3 then s.emit (.cell p (linkCell 7 7 2 [])) else s

/-- A warm or ring reset: LINKDOWN on both ring ports, then steps 11 and 12 with the rails and PLLs up (R390, R391). -/
def State.warmReset (s : State) : State := (((s.sayDown 0).sayDown 1).coreReset true).coreUp

/-- WARMRESET (R388). -/
def State.warmNow (s : State) : State := (s.wr F.PW_RSTCAUSE_WARM 1).warmReset

/-- A ring reset; the writer is kept in AON (R389). -/
def State.ringNow (s : State) (ring node : Nat) : State :=
  let s := { s with sup := { s.sup with writer := some (ring, node, s.sec, s.ns) } }
  (s.wr F.PW_RSTCAUSE_RING 1).warmReset

/-- The core is held in reset with the rails up, until its PLLs lock (step 10). -/
def State.hardReset (s : State) : State :=
  if s.corePowered then
    let s := (s.coreReset false).wr F.PW_SEQ_STEP 9
    { s with sup := { s.sup with locking := true } }
  else s

/-- RESET_N. -/
def execResetN (s : State) : Host.Outcome State Fault Refusal := .next (s.wr F.PW_RSTCAUSE_PIN 1).hardReset

/-- REFCLK_LOSS: held as if RESET_N were low; the alarm is raised after the restart (R385, R445). -/
def execRefclkLoss (s : State) : Host.Outcome State Fault Refusal :=
  let s := (s.wr F.PW_RSTCAUSE_REFLOSS 1).hardReset
  let s := s.wr F.NC_PLLSTAT_REFLOSS 1
  .next { s with sup := { s.sup with held := setBits s.sup.held 0 1 1, alarms := s.sup.alarms ||| 2 } }

/-- REFCLK_RETURN. -/
def execRefclkReturn (s : State) : Host.Outcome State Fault Refusal :=
  .next { s with sup := { s.sup with held := setBits s.sup.held 0 1 0 } }

/-- TEST_N: while it is low the core is in reset; no cause is recorded (R477). -/
def execTestN (low : Bool) (s : State) : Host.Outcome State Fault Refusal :=
  let s := if low then s.hardReset else s
  .next { s with sup := { s.sup with held := setBits s.sup.held 1 1 (b2n low) } }

/-! ### The AON domain (R378) -/

/-- AON power-on reset: everything but what fuses, boot flash and store hold. -/
def State.aonReset (s : State) : State :=
  let s := s.tearAll
  { State.reset with
    pending := s.pending, out := s.out, freeCtr := s.freeCtr, otp := s.otp, store := s.store
    mg := { MgSt.init with startCount := s.mg.startCount }
    mem := { MemSt.init with record := s.mem.record }
    fw := { s.fw with verified := false, holder := none, running := [], blk := [], recov := 0, sdm := [] } }

/-- A card's OTP slots. -/
def cardKeys : List (List Byte × Bool × Bool) → Nat → Tbl KeySlot
  | [], _ => []
  | (h, p, r) :: ks, i => Tbl.put KeySlot.blank i { hash := h, prov := p, revoked := r } (cardKeys ks (i + 1))

/-- A card's boot flash slots. -/
def cardFlash : List (Nat × List Byte) → Tbl (List Byte)
  | [] => []
  | (i, b) :: r => Tbl.put [] i b (cardFlash r)

/-- The card that the power reaches. -/
def State.withCard (s : State) (c : Card) : State :=
  { s with
    otp := { fusedId := c.ident.toNat, keys := cardKeys c.keys 0, debugDisable := c.debugDisable, jtagLock := c.jtagLock }
    store := c.store
    fw := { s.fw with slots := cardFlash c.flash, curMfw := b2n c.curMfw, curWeave := b2n c.curWeave, trial := false }
    mg := { s.mg with startCount := 0 }, mem := { s.mem with record := none } }

/-- AON_POWER_ON: the AON domain leaves its reset; SLOT is sampled and the hub listens for a mate (R378, R404). `card`: the card, where
power comes to one for the first time. -/
def execAonPowerOn (slot : Bool) (card : Option Card) (s : State) : Host.Outcome State Fault Refusal :=
  let s := s.aonReset
  let s := match card with
    | some c => s.withCard c
    | none => s
  let s := (s.wr F.MT_STAT_SLOT (b2n slot)).fuseRegs
  .next { s with sup := { s.sup with aon := true }, mt := { s.mt with listening := true } }

/-- AON_POWER_FAIL: everything is reset, every enable released. -/
def execAonPowerFail (s : State) : Host.Outcome State Fault Refusal := .next s.aonReset

/-! ### The sequencer (R379 to R381) -/

/-- An enable is released and its group's PG awaited. -/
def State.seqEnable (s : State) (g : Nat) : State :=
  let s := s.wr F.PW_SEQ_STEP (2 * g)
  { s with sup := { s.sup with group := g } }

/-- CORE_START: inlet in ON, a core-start request present; an owner of the store requests for itself. -/
def execCoreStart (s : State) : Host.Outcome State Fault Refusal :=
  .next (if s.inlet = 4 && !s.corePowered && s.sup.group = 0 && !s.sup.retry && !s.sup.spent && (s.sup.start || s.on F.MT_STAT_OWNER) then
      let s := { s with sup := { s.sup with start := false, stop := false } }
      (s.wr F.PW_SEQ_TRIES 0).seqEnable 1
    else s)

/-- RAIL_PG of group g + 1: it wins while awaited; after the timeout has won it is late. -/
def execRailPg (g : Fin 4) (s : State) : Host.Outcome State Fault Refusal :=
  let n := g.val + 1
  .next (if s.sup.group = n then
      let s := s.wr F.PW_SEQ_PGOUT 1
      if n < 4 then s.seqEnable (n + 1)
      else
        let s := (s.wr F.PW_SEQ_STEP 9).wr F.PW_SEQ_CORE 1
        { s.coreReset false with sup := { s.sup with group := 0, locking := true, mcUp := false, warm := false } }
    else if s.sup.lateGroup = n then { s.bump F.PW_LATE_COUNT with sup := { s.sup with lateGroup := 0 } }
    else s)

/-- The core is off (R381): every weaver stopped and parked, ring ports silent, rails disabled in reverse order; the store is released. A
run of a standby ends with it. -/
def State.powerDown (s : State) : State :=
  let s := (s.storeRelease).coreReset false
  let s := if s.rd F.MT_STAT_ROLE = 3 then s.wr F.MT_STAT_ROLE 2 else s
  let s := { s with mt := { s.mt with run := 0 } }
  let s := (s.wr F.PW_SEQ_STEP 6).wr F.PW_SEQ_CORE 0
  { s with sup := { s.sup with group := 0, locking := false, stop := false } }

/-- SEQ_TIMEOUT: the failure is recorded and the sequencer powers down; after the last retry the start has failed, and the store is
released (R380, R402). -/
def execSeqTimeout (s : State) : Host.Outcome State Fault Refusal :=
  .next (if s.sup.group = 0 then s
    else
      let g := s.sup.group
      let s := ((s.wr F.PW_SEQ_PGOUT 2).wr F.PW_SEQ_FAILGRP g).wr F.PW_RSTCAUSE_SEQFAIL 1
      let s := s.wr F.PW_SEQ_STEP 6
      let again := decide (s.rd F.PW_SEQ_TRIES < 3)
      let s := { s with sup := { s.sup with group := 0, lateGroup := g, retry := again, spent := !again, alarms := s.sup.alarms ||| 1024 } }
      if again then s else s.storeRelease)

/-- SEQ_RETRY: 1 s later. -/
def execSeqRetry (s : State) : Host.Outcome State Fault Refusal :=
  .next (if s.sup.retry then
      let s := s.wr F.PW_SEQ_TRIES (s.rd F.PW_SEQ_TRIES + 1)
      let s := { s with sup := { s.sup with retry := false } }
      if s.inlet = 4 then s.seqEnable 1 else s
    else s)

/-- PLLS_LOCKED: step 10, then step 11. -/
def execPllsLocked (s : State) : Host.Outcome State Fault Refusal :=
  .next (if s.sup.locking && s.sup.held = 0 then
      let s := { s with sup := { s.sup with unlocked := 0, warm := false } }
      s.coreUp
    else s)

/-- RAIL_PG_LOSS: a core-stop request with cause PGLOSS. -/
def execRailPgLoss (s : State) : Host.Outcome State Fault Refusal :=
  .next (if s.corePowered then { s.wr F.PW_RSTCAUSE_PGLOSS 1 with sup := { s.sup with stop := true } } else s)

/-- CORE_STOP: on a core-stop request, or when the inlet has left ON and HOLDUP (R381). -/
def execCoreStop (s : State) : Host.Outcome State Fault Refusal :=
  .next (if (s.corePowered || s.sup.group != 0) && (s.sup.stop || (s.inlet != 4 && s.inlet != 5)) then
      (s.wr F.PW_RSTCAUSE_STOP 1).powerDown
    else s)

/-! ### PLLs (R384) -/

/-- PLL_LOSS: the LOST bit, an alarm; a ring port or U whose PLL has lost lock leaves UP with cause 3. PLL_S is fed by PLL_T. -/
def execPllLoss (pll : Fin 6) (s : State) : Host.Outcome State Fault Refusal :=
  let s := s.wr F.NC_PLLSTAT_LOST (s.rd F.NC_PLLSTAT_LOST ||| 2 ^ pll.val)
  let s := { s with sup := { s.sup with unlocked := s.sup.unlocked ||| 2 ^ pll.val } }
  let s := s.alarm 0
  .next (if pll = 1 then
      s.eachUnit (fun s p => if s.isUp p then s.toFault p 3 else s) [0, 1, 2]
    else s)

/-- PLL_RELOCK. -/
def execPllRelock (pll : Fin 6) (s : State) : Host.Outcome State Fault Refusal :=
  let s := { s with sup := { s.sup with unlocked := setBits s.sup.unlocked pll.val 1 0 } }
  .next (if s.sup.unlocked = 0 then s.alarmEnd 0 else s)

/-! ### Pace, voltage and speed (R392 to R397) -/

/-- Target sc of a mode, in ps, and its ceiling in mV (R393). -/
def targetSc (mode : Nat) : Nat := match mode with | 0 => 900 | 1 => 1200 | _ => 1800
def ceiling (mode : Nat) : Nat := match mode with | 0 => 900 | 1 => 800 | _ => 700

/-- The mode is in force: CUR takes TGT, an event (R396, R446). -/
def State.speedReached (s : State) : State :=
  let m := s.rd F.NC_SPSTAT_TGT
  ((s.wr F.NC_SPSTAT_CUR m).wr F.NC_SPSTAT_CHANGING 0).mgmtEvent 2 m 0 0

/-- A change to a faster mode is reached: measured sc at or below the target, or VDD_CORE at the ceiling. -/
def State.speedCheck (s : State) (measured : Bool) : State :=
  let m := s.rd F.NC_SPSTAT_TGT
  if s.on F.NC_SPSTAT_CHANGING && ((measured && decide (s.rd F.NC_PACE_SC ≤ targetSc m)) || decide (ceiling m ≤ s.rd F.NC_AVS_VCORE)) then
    s.speedReached
  else s

/-- A mode is asked for: a slower one is in force at once, a faster one when it is reached. -/
def State.speedSet (s : State) (m : Nat) : State :=
  let s := s.wr F.NC_SPSTAT_TGT m
  if s.rd F.NC_SPSTAT_CUR < m then s.speedReached
  else if m < s.rd F.NC_SPSTAT_CUR then s.wr F.NC_SPSTAT_CHANGING 1
  else s.wr F.NC_SPSTAT_CHANGING 0

/-- PACE_WINDOW: the slowest monitor's estimate. -/
def execPaceWindow (sc : BitVec 13) (slowest : Fin 8) (s : State) : Host.Outcome State Fault Refusal :=
  .next (((s.wr F.NC_PACE_SC sc.toNat).wr F.NC_PACE_SLOWEST slowest.val).speedCheck true)

/-- AVS_LOOP. `ok`: the voltage command succeeded within its three retries; the third failure sets AVSFAULT and raises the alarm (R394,
R395). -/
def execAvsLoop (ok : Bool) (s : State) : Host.Outcome State Fault Refusal :=
  .next (if s.on F.NC_AVS_AVSFAULT then s
    else
      let m := s.rd F.NC_SPSTAT_TGT
      let v := s.rd F.NC_AVS_VCORE
      let sc := s.rd F.NC_PACE_SC
      let v' := if ceiling m < v then v - 5
        else if targetSc m < sc && decide (v < ceiling m) then v + 5
        else if sc * 100 < 95 * targetSc m && decide (600 < v) then v - 5
        else v
      if ok then (((s.wr F.NC_AVS_VCORE v').wr F.NC_AVS_CEIL (if v' = ceiling m then 1 else 0)).speedCheck false)
      else (s.wr F.NC_AVS_AVSFAULT 1).alarm 2)

/-- AVS_RETRY: the first success clears AVSFAULT. -/
def execAvsRetry (ok : Bool) (s : State) : Host.Outcome State Fault Refusal :=
  .next (if s.on F.NC_AVS_AVSFAULT && ok then (s.wr F.NC_AVS_AVSFAULT 0).alarmEnd 2 else s)

/-- THERMAL_FALLBACK: in Tight, at or above 105 °C for 1 s. -/
def execThermalFallback (tj : BitVec 11) (s : State) : Host.Outcome State Fault Refusal :=
  let s := s.wr F.NC_TEMP_TJ tj.toNat
  .next (if s.rd F.NC_SPSTAT_CUR = 0 && !s.on F.NC_SPSTAT_THERMAL then
      if s.autonomous then ((s.wr F.NC_SPSTAT_THERMAL 1).speedSet 1).alarm 3 else s.alarm 3
    else s)

/-- THERMAL_RETURN: at or below 95 °C for 60 s. -/
def execThermalReturn (tj : BitVec 11) (s : State) : Host.Outcome State Fault Refusal :=
  let s := (s.wr F.NC_TEMP_TJ tj.toNat).alarmEnd 3
  .next (if s.on F.NC_SPSTAT_THERMAL then
      let s := s.wr F.NC_SPSTAT_THERMAL 0
      if s.rd F.NC_MODE_SPEED = 0 then s.speedSet 0 else s
    else s)

/-- NC_MODE.SPEED was written (R396). -/
def State.speedWritten (s : State) : State := (s.wr F.NC_SPSTAT_THERMAL 0).speedSet (s.rd F.NC_MODE_SPEED)

/-- A change to directed policy ends what waits to retry: a branch takes ON := 0, a field port POWER := 0 (R444). -/
def State.directedNow (s : State) : State :=
  let s := s.eachUnit (fun s b => if s.branch b = 3 then ((s.wr (F.PW_Bb_CTL_ON b) 0).wr (F.PW_Bb_STAT_STATE b) 2) else s) (List.range 8)
  s.eachUnit (fun s n =>
    let f := Tbl.get FieldSt.init n s.usb.fields
    if f.waiting then
      { s.wr (F.US_FPn_CTL_POWER n) 0 with usb := { s.usb with fields := Tbl.put FieldSt.init n { f with waiting := false } s.usb.fields } }
    else s) (List.range 4)

/-- What passes while no command waits: one local tick, where the core is out of reset (assumption 4). -/
def State.idle (s : State) : State := if s.coreRuns then s.ticks 1 else s

end Sys2Proof.Machine
end

