-- ==== Sys2Proof/Machine/Pair.lean ====
section
/-! DEFINITION. The redundant pair: roles, the store's ownership, the mate line, checkpoints and their store (chapter 16). Takeovers and
proving runs stand in Takeover.lean. -/

namespace Sys2Proof.Machine

/-! ### Events and roles (R399, R426) -/

/-- A pair event, SRC 11, once the core runs. -/
def State.pairEvent (s : State) (code detail w2 w3 : Nat) : State := if s.coreRuns then s.event 11 code detail w2 w3 else s

/-- The hub is active. -/
def State.isActive (s : State) : Bool := s.rd F.MT_STAT_ROLE == 1

/-- The hub owns the store. -/
def State.owner (s : State) : Bool := s.on F.MT_STAT_OWNER

/-- The store is released: CK_OWN_REQ_I low and CK_OWN_GNT_I high (R409). -/
def State.storeFree (s : State) : Bool := !s.mt.reqI && s.mt.gntI

/-! ### Ownership (R401, R402, R404) -/

/-- The hub requests the store, unless SLOTERR forbids it (R404). -/
def State.storeRequest (s : State) : State :=
  if s.on F.MT_STAT_SLOTERR then s else { s with mt := { s.mt with req := true } }

/-- MATE_LISTEN_END: no HEARTBEAT in 20 ms. A hub that has heard no mate owns the branches (R371, R404). -/
def execMateListenEnd (s : State) : Host.Outcome State Fault Refusal :=
  .next (if s.mt.listening then
      let s := { s with mt := { s.mt with listening := false } }
      let s := if s.on F.MT_STAT_MATEPRES then s else s.wr F.PW_OWN_OWNER 1
      s.storeRequest
    else s)

/-- What the lines must show for 10 µs (R401). -/
def State.canAcquire (s : State) : Bool := s.mt.gntI && (!s.mt.reqI || !s.on F.MT_STAT_SLOT)

/-- STORE_ACQUIRE: the lines have held for 10 µs (R401). The hub makes the core-start request, or goes on with its takeover (R379, R417). -/
def execStoreAcquire (s : State) : Host.Outcome State Fault Refusal :=
  .next (if s.mt.req && !s.owner && s.canAcquire then
      { s.wr F.MT_STAT_OWNER 1 with sup := { s.sup with start := s.sup.start || s.mt.taking.isNone } }
    else s)

/-- CKFAULT follows what a standby sees: heartbeats while the store appears released (R425). -/
def State.ckFault (s : State) (on : Bool) : State :=
  if s.on F.MT_STAT_CKFAULT = on then s
  else
    let s := s.wr F.MT_STAT_CKFAULT (b2n on)
    let s := if on then s.alarm 7 else s.alarmEnd 7
    s.pairEvent 6 (s.rd F.MT_STAT_SLOTERR + 2 * b2n on) 0 0

/-- A takeover starts: TKOUT, a core-start request (R416, R417). -/
def State.takeStart (s : State) (cause : Nat) : State :=
  let s := (s.wr F.MT_STAT_TKOUT 1).wr F.MT_STAT_ROLE 0
  { s with mt := { s.mt with taking := some cause, req := true, run := 0 }, sup := { s.sup with start := !s.corePowered } }

/-- The takeover conditions with the timer won, or SURRENDER received: a released store starts it, a held one blocks it (R416). -/
def State.takeCheck (s : State) (cause : Nat) : State :=
  if s.storeFree then s.takeStart cause
  else ((s.wr F.MT_STAT_TKOUT 2).wr F.MT_STAT_LINEFAULT 1).bump F.MT_BLOCKED_COUNT

/-- A standby, cold or in a run. -/
def State.isStandby (s : State) : Bool := !s.owner && (s.rd F.MT_STAT_ROLE == 2 || s.rd F.MT_STAT_ROLE == 3)

/-- OWNERSHIP_LINES: what CK_OWN_REQ_I and CK_OWN_GNT_I now show; after a SURRENDER a released store starts the takeover. -/
def execOwnershipLines (reqI gntI : Bool) (s : State) : Host.Outcome State Fault Refusal :=
  let s := { s with mt := { s.mt with reqI := reqI, gntI := gntI } }
  let s := if s.storeFree then s else s.ckFault false
  .next (if s.isStandby && s.mt.surrender && s.storeFree && s.mt.taking.isNone then s.takeStart 1 else s)

/-- STORE_CHECK: every 1 ms while blocked, until heartbeats return or the store is released. One that finds the store still held counts no
second blocked takeover (assumption 51). -/
def execStoreCheck (s : State) : Host.Outcome State Fault Refusal :=
  .next (if s.isStandby && (s.mt.timedOut || s.mt.surrender) && s.rd F.MT_STAT_TKOUT == 2 && s.mt.taking.isNone && s.storeFree then
      s.takeStart (b2n s.mt.surrender)
    else s)

/-- WATCHDOG_REFRESH: the timer of R407 starts again; the model keeps no timer. -/
def execWatchdogRefresh (s : State) : Host.Outcome State Fault Refusal := .next s

/-- The core watchdog expires: in a pair the store is released; a hub without a mate gives itself a warm reset (R429). -/
def State.watchdog (s : State) : State :=
  if s.on F.MT_STAT_MATEPRES then ({ s.storeRelease with sup := { s.sup with mcUp := false } } : State).alarmOnce 8
  else { s with sup := { s.sup with alarms := s.sup.alarms ||| 256 } }.warmNow

/-- WATCHDOG_EXPIRY: the watchdog runs once MFW does (R407). -/
def execWatchdogExpiry (s : State) : Host.Outcome State Fault Refusal := .next (if s.coreRuns && s.sup.mcUp && !s.on F.FW_STAT_RECOVERY then s.watchdog else s)

/-! ### The mate line (R405 to R408) -/

/-- HEARTBEAT_SEND. Numbers on the mate line go most significant byte first, as its CRC does. -/
def execHeartbeatSend (s : State) : Host.Outcome State Fault Refusal :=
  .next (if s.owner then
      s.emit (.mate 1 (beBytes (s.rd F.MT_CKSEQ_CKSEQ) 4 ++ beBytes (b2n s.coreRuns) 1 ++ beBytes (s.rd F.MT_STAT_SLOT) 1 ++ beBytes 0 2))
    else s)

/-- Version of an image with the header of R454; zero for none. -/
def imageVersion (img : List Byte) : Nat := leAt img 8 4

/-- BEACON_SEND. -/
def execBeaconSend (s : State) : Host.Outcome State Fault Refusal :=
  .next (if s.owner then s
    else s.emit (.mate 2 (beBytes s.mt.run 1 ++ beBytes (b2n s.mt.ready + 2 * s.rd F.MT_STAT_SLOT) 1
      ++ beBytes (s.rd F.MT_PRSTAT_FAIL + 128 * s.rd F.MT_PRSTAT_VALID) 1 ++ beBytes (s.rd F.MT_PRSTAT_PRCOUNT) 1
      ++ beBytes (imageVersion (Tbl.get [] s.fw.curMfw s.fw.slots)) 4)))

/-- A message of the mate has come: MATEPRES sets (R407). -/
def State.mateHere (s : State) : State :=
  if s.on F.MT_STAT_MATEPRES then s else ((s.wr F.MT_STAT_MATEPRES 1).pairEvent 2 1 0 0).alarmEnd 6

/-- The mate reports its SLOT: the same one is SLOTERR (R404). -/
def State.mateSlot (s : State) (slot : Nat) : State :=
  let bad := slot == s.rd F.MT_STAT_SLOT
  if s.on F.MT_STAT_SLOTERR = bad then s
  else
    let s := s.wr F.MT_STAT_SLOTERR (b2n bad)
    let s := if bad then (if s.coreRuns then s.alarm 4 else { s with sup := { s.sup with alarms := s.sup.alarms ||| 16 } }) else s.alarmEnd 4
    let s := if bad && !s.owner then { s with mt := { s.mt with req := false } } else s
    s.pairEvent 6 (b2n bad + 2 * s.rd F.MT_STAT_CKFAULT) 0 0

/-- HEARTBEAT (R404, R408, R425): at a standby it wins the heartbeat race, or is late. A hub that listens, or has lost the contest, becomes
standby. -/
def execHeartbeat (f : MateFrame) (s : State) : Host.Outcome State Fault Refusal :=
  .next (if !mateGood f 8 then s.mateBad
    else
      let s := (s.mateHere).mateSlot (beAt f.payload 5 1 % 2)
      if s.owner then s
      else
        let s := if s.rd F.MT_STAT_ROLE = 0 && s.mt.taking.isNone then
            { s.wr F.MT_STAT_ROLE 2 with mt := { s.mt with listening := false, req := false } }
          else s
        if s.mt.timedOut then
          let s := s.bump F.MT_LATE_COUNT
          if s.mt.taking.isNone then { s with mt := { s.mt with timedOut := false } } else s
        else if s.isStandby then (s.wr F.MT_STAT_HBOUT 1).ckFault s.storeFree
        else s)

/-- HEARTBEAT_TIMEOUT (R408). -/
def execHeartbeatTimeout (s : State) : Host.Outcome State Fault Refusal :=
  .next (if s.isStandby && !s.mt.timedOut && s.mt.taking.isNone then
      ({ s.wr F.MT_STAT_HBOUT 2 with mt := { s.mt with timedOut := true } } : State).takeCheck 0
    else s)

/-- BEACON (R406, R407, R421). -/
def execBeacon (f : MateFrame) (s : State) : Host.Outcome State Fault Refusal :=
  .next (if !mateGood f 8 then s.mateBad
    else
      let payload := f.payload
      let s := (s.mateHere).mateSlot (beAt payload 1 1 / 2 % 2)
      let pr := beAt payload 3 1
      let s := (s.wr F.MT_MATE_MSTATE (beAt payload 0 1)).wr F.MT_MATE_MREADY (beAt payload 1 1 % 2)
      let s := s.wr F.MT_MATE_MPRRES (beAt payload 2 1)
      let fresh := match s.mt.matePr with | some x => x != pr | none => pr != 0
      let s := { s with mt := { s.mt with matePr := some pr } }
      if fresh && s.isActive then s.pairEvent 3 (beAt payload 2 1) pr 0 else s)

/-- MATE_TIMEOUT: 3 ms without the mate's messages; an owner raises the alarm (R407, R425). -/
def execMateTimeout (s : State) : Host.Outcome State Fault Refusal :=
  .next (if s.on F.MT_STAT_MATEPRES then
      let s := (s.wr F.MT_STAT_MATEPRES 0).pairEvent 2 0 0 0
      if s.owner then s.alarm 6 else s
    else s)

/-- SURRENDER: the takeover starts with the store released, and is blocked until it is (R416). -/
def execSurrender (f : MateFrame) (s : State) : Host.Outcome State Fault Refusal :=
  .next (if !mateGood f 4 then s.mateBad
    else if s.isStandby && s.mt.taking.isNone then ({ s with mt := { s.mt with surrender := true } } : State).takeCheck 1
    else s)

/-- INLETCLR_MESSAGE (R359). -/
def execInletclrMessage (f : MateFrame) (s : State) : Host.Outcome State Fault Refusal :=
  .next (if !mateGood f 0 then s.mateBad else s.inletClear)

/-! ### Checkpoints (R410 to R414) -/

/-- A register that a checkpoint holds: one of classes 0x00 to 0x0D, but for SH, SC, CN, L0, L1 and TR of a weaver. -/
def ckHolds (key : Nat) : Bool :=
  decide (key / 0x100000 ≤ 13) &&
  match regAt (key / 0x100000) (key % 0x100000) with
  | some (f, _) => !([RegId.WVn_SHIFT, .WVn_SC, .WVn_CN, .WVn_LOOP, .WVn_TRS, .WVn_TRNS].contains f.id)
  | none => false

/-- What a checkpoint holds of the registers: their RW and RWL bits, where they differ from reset. -/
def State.ckRegs (s : State) : List (Nat × Nat) :=
  (s.regs.filter fun e => ckHolds e.1 && (e.2.toNat ^^^ (regReset e.1).toNat) &&& keptBits e.1 != 0).map
    fun e => (e.1, e.2.toNat &&& keptBits e.1)

/-- A part's value of a register's RW and RWL bits. -/
def ckValue (rs : List (Nat × Nat)) (key : Nat) : Nat :=
  match rs.find? fun r => r.1 == key with
  | some r => r.2
  | none => (regReset key).toNat &&& keptBits key

/-- The records that differ from a full checkpoint's. -/
def ckDiff (full now : List (Nat × Nat)) : List (Nat × Nat) :=
  (((now.map (·.1)) ++ (full.map (·.1))).eraseDups.filter fun k => ckValue now k != ckValue full k).map fun k => (k, ckValue now k)

/-- CKFOUT of the running firmware: the checkpoint FORMAT it writes (R412, R454). -/
def State.ckFormat (s : State) : Nat := leAt (Tbl.get [] 1 s.fw.running) 0x4C 2

/-- The part of the highest CKSEQ. -/
def bestPart : List CkPart → Option CkPart
  | [] => none
  | p :: ps =>
    match bestPart ps with
    | some q => if p.ckseq ≤ q.ckseq then some q else some p
    | none => some p

/-- The checkpoint to restore (R413): the latest full one, and the latest differential on it. -/
def State.ckBest (s : State) : Option (CkPart × Option CkPart) :=
  match bestPart (s.store.parts.filter fun p => p.half.isNone) with
  | none => none
  | some f => some (f, bestPart (s.store.parts.filter fun p => p.half.isSome && p.slot == f.slot && p.base == f.ckseq))

/-- MFW that restores a FORMAT: CKFMIN and CKFMAX of its header (R418, R454). -/
def restores (img : List Byte) (format : Nat) : Bool := decide (leAt img 0x48 2 ≤ format) && decide (format ≤ leAt img 0x4A 2)

/-- A checkpoint's value of a register's RW and RWL bits. -/
def ckBoth (f : CkPart) (d : Option CkPart) (key : Nat) : Nat :=
  match d with
  | some d => if (d.regs.map (·.1)).contains key then ckValue d.regs key else ckValue f.regs key
  | none => ckValue f.regs key

/-- Registers named take the checkpoint's values. -/
def State.ckApply (s : State) (f : CkPart) (d : Option CkPart) : List Nat → State
  | [] => s
  | k :: ks => State.ckApply (s.setReg k (BitVec.ofNat 32 (withKept k (s.reg k).toNat (ckBoth f d k)))) f d ks

/-- Every register that a checkpoint holds takes its value (R410, R419). The time unit stays in FREE. -/
def State.ckRestore (s : State) (f : CkPart) (d : Option CkPart) : State :=
  let keys := ((s.regs.map (·.1)).filter ckHolds ++ f.regs.map (·.1) ++ ((d.getD f).regs.map (·.1))).eraseDups
  s.ckApply f d keys

/-- The weavers that the checkpoint shows RUNNING or STALLED start together at slot 0 (R419). -/
def State.ckWeavers (s : State) (f : CkPart) (d : Option CkPart) : State :=
  s.wvStartAll (s.clock.tick + 1) ((d.getD f).weavers.map (·.1))

/-- The highest CKSEQ in the store, or the last one. -/
def State.ckNext (s : State) : Nat := (s.store.parts.map (·.ckseq)).foldl max (s.rd F.MT_CKSEQ_CKSEQ) + 1

/-- A checkpoint is captured: a full one to the slot after the last one's, or a differential to the other half of that slot; one whose
differential would exceed 512 KiB is full (R411, R412). KIND 3 is the final one. -/
def State.ckCapture (s : State) (full : Bool) (final : Bool) : CkPart :=
  let now := s.ckRegs
  let weavers := (s.wv.w.filter fun e => s.rd (F.WVn_STAT_STATE e.1) != 0).map fun e => (e.1, s.rd (F.WVn_STAT_STATE e.1))
  let part : CkPart :=
    { slot := 0, half := none, kind := if final then 3 else 1, format := s.ckFormat, ckseq := s.ckNext, base := s.ckNext, sec := s.sec,
      ns := s.ns, frac := s.frac, tallySeq := s.tallyHead, imgid := s.rd F.WE_IMGID_ID, regs := now, disc := s.rd F.TM_DSTAT_STATE,
      weavers := weavers }
  match s.ckBest with
  | none => part
  | some (f, last) =>
    let d := ckDiff f.regs now
    if full || s.mt.nextFull || decide (524288 < 64 + 16 * (d.length + 1 + weavers.length)) then { part with slot := (f.slot + 1) % 8 }
    else
      { part with
        slot := f.slot, half := some (match last with | some q => 1 - q.half.getD 1 | none => 0), kind := if final then 3 else 2
        base := f.ckseq, regs := d }

/-- A checkpoint has to wait: one is being written, or the store is lent or about to be (R411, R415). -/
def State.ckWaits (s : State) : Bool := s.mt.writing.isSome || s.mt.finalPart.isSome || s.mt.lent || s.mt.lending

/-- A checkpoint falls due at the active with a store: it is captured, or waits. -/
def State.ckDue (s : State) (full : Bool) : State :=
  if !s.isActive || !s.store.fitted then s
  else if s.ckWaits then
    { s with mt := { s.mt with due := true, dueFull := s.mt.dueFull || full } }
  else { s with mt := { s.mt with writing := some (s.ckCapture full false) } }

/-- CHECKPOINT_INCREMENTAL. -/
def execCheckpointIncremental (s : State) : Host.Outcome State Fault Refusal := .next (s.ckDue false)

/-- CHECKPOINT_FULL. -/
def execCheckpointFull (s : State) : Host.Outcome State Fault Refusal := .next (s.ckDue true)

/-- A part is complete in the store. -/
def State.ckDone (s : State) (p : CkPart) : State :=
  let s := { s with
    store := { s.store with parts := p :: s.store.parts.filter fun q => !(q.slot == p.slot && q.half == p.half) }
    mt := { s.mt with lastSlot := some p.slot, nextFull := false } }
  let s := (s.wr F.MT_CKSTAT_SLOT p.slot).wr F.MT_CKSTAT_LASTKIND p.kind
  let s := match p.half with | some h => s.wr F.MT_CKSTAT_HALF h | none => s
  (s.wr F.MT_CKSEQ_CKSEQ p.ckseq).alarmEnd 5

/-- A part's read-back fails (R414). -/
def State.ckFail (s : State) (p : CkPart) : State :=
  let s := s.tear (some p)
  let s := ((s.wr F.MT_CKSTAT_WRFAIL 1).bump F.MT_CKFAIL_COUNT).pairEvent 4 0 p.ckseq 0
  ({ s with mt := { s.mt with nextFull := true } } : State).alarm 5

/-- Window length of LENT, in µs: 100 to 2,000, which one being the hub's own choice (R406). -/
def State.lendNow (s : State) : State :=
  ({ s with mt := { s.mt with lent := true, lending := false } } : State).emit (.mate 5 (beBytes (100 + s.freeW.toNat % 1901) 2)) |>.used

/-- The final checkpoint is captured as soon as no write and no lent window stands before it (R411, R414, R415). -/
def State.finalCapture (s : State) : State :=
  if s.pow.final && s.store.fitted && s.mt.writing.isNone && s.mt.finalPart.isNone && !s.mt.lent then
    { s with mt := { s.mt with finalPart := some (s.ckCapture false true) } }
  else s

/-- What waits for the end of a write or a window: the final checkpoint, then a LEND, then the deferred checkpoint. -/
def State.ckNextUp (s : State) : State :=
  let s := s.finalCapture
  if s.mt.finalPart.isSome then s
  else if s.mt.lending then s.lendNow
  else if s.mt.due then
    let full := s.mt.dueFull
    ({ s with mt := { s.mt with due := false, dueFull := false } } : State).ckDue full
  else s

/-- Every entry not yet in the store goes there. -/
def State.tallyFlush (s : State) : State :=
  let new := s.mg.tally.filter fun e => s.mg.toStore.contains e.seq
  { s with store := { s.store with tally := (new ++ s.store.tally).take 65536 }, mg := { s.mg with toStore := [] } }

/-- The end of YIELD (R424): SURRENDER, the store released, the core stopped. -/
def State.yieldEnd (s : State) : State :=
  let s := s.tallyFlush.emit (.mate 3 (beBytes (s.rd F.MT_CKSEQ_CKSEQ) 4))
  ((s.storeRelease).wr F.PW_RSTCAUSE_STOP 1).powerDown

/-- CHECKPOINT_WRITTEN. `ok`: the part read back with its CRC. -/
def execCheckpointWritten (ok : Bool) (s : State) : Host.Outcome State Fault Refusal :=
  .next (match s.mt.writing with
    | none => s
    | some p =>
      let s := { s with mt := { s.mt with writing := none } }
      let s := if ok then s.ckDone p else s.ckFail p
      let s := if s.mt.forCmd && !s.mt.due then
          { s with mt := { s.mt with forCmd := false }, mg := { s.mg with longRes := some (if ok then 0 else 0x1D) } }
        else s
      if s.mt.yielding && !s.mt.due then
        (if ok then s.yieldEnd
         else ({ s with mt := { s.mt with yielding := false }, mg := { s.mg with longRes := some 0x1D } } : State).ckNextUp)
      else s.ckNextUp)

/-- PFW_ASSERT: the final checkpoint of the active begins, after a write in progress; while it is not complete there is no second one (R361,
R363, R414). -/
def execPfwAssert (s : State) : Host.Outcome State Fault Refusal :=
  .next (if s.on F.PW_PFWSTAT_ACTIVE then s
    else
      let s := s.pfwOn
      if s.corePowered && s.isActive && !s.pow.final then
        ({ s with pow := { s.pow with final := true } } : State).finalCapture
      else s)

/-- FINAL_CHECKPOINT_DONE: the tally is in the store, and the final checkpoint, which is read back as every part is (R414); complete, it
writes a power event. One that still waits for its turn is not done. -/
def execFinalCheckpointDone (ok : Bool) (s : State) : Host.Outcome State Fault Refusal :=
  .next (if s.pow.final && (!s.store.fitted || s.mt.finalPart.isSome) then
      let part := s.mt.finalPart
      let s := { s with pow := { s.pow with final := false }, mt := { s.mt with finalPart := none } }
      let s := if s.store.fitted then s.tallyFlush else s
      match part with
      | some p => (if ok then (s.ckDone p).powEvent 3 0 0 0 else s.ckFail p).ckNextUp
      | none => s.powEvent 3 0 0 0
    else s)

/-- TALLY_STORE_WRITE: the oldest entry due for the store (R440), which its owner alone writes (R409). -/
def execTallyStoreWrite (ok : Bool) (s : State) : Host.Outcome State Fault Refusal :=
  .next (match s.mg.toStore with
    | [] => s
    | q :: qs =>
      if !s.owner then s
      else
      let s := { s with mg := { s.mg with toStore := qs } }
      match (if ok then s.mg.tally.find? fun e => e.seq == q else none) with
      | some e => { s with store := { s.store with tally := (e :: s.store.tally).take 65536 } }.alarmEnd 11
      | none => (s.bump F.TL_LOST_COUNT).alarm 11)

/-! ### Lent windows (R415) -/

/-- LEND: the owner finishes the part it writes first. -/
def execLend (f : MateFrame) (s : State) : Host.Outcome State Fault Refusal :=
  .next (if !mateGood f 0 then s.mateBad
    else if !s.owner || s.mt.lent then s
    else if s.mt.writing.isSome || s.mt.finalPart.isSome then { s with mt := { s.mt with lending := true } }
    else s.lendNow)

/-- LENT: the non-owner's read window opens. -/
def execLent (f : MateFrame) (s : State) : Host.Outcome State Fault Refusal :=
  .next (if !mateGood f 2 then s.mateBad
    else if s.owner then s else { s with mt := { s.mt with window := true } })

/-- BACK: the owner has CKB again and takes every deferred checkpoint as one. -/
def execBack (f : MateFrame) (s : State) : Host.Outcome State Fault Refusal :=
  .next (if !mateGood f 0 then s.mateBad
    else if s.owner && s.mt.lent then ({ s with mt := { s.mt with lent := false } } : State).ckNextUp else s)

/-- LEND_WINDOW_END, at either side. -/
def execLendWindowEnd (s : State) : Host.Outcome State Fault Refusal :=
  .next (if s.owner then (if s.mt.lent then ({ s with mt := { s.mt with lent := false } } : State).ckNextUp else s)
    else { s with mt := { s.mt with window := false } })

end Sys2Proof.Machine
end

