-- ==== Sys2Proof/Machine/UsbPort.lean ====
section
/-! DEFINITION. The ports of chapter 12 as register writes need them: S attached and reset (R317, R329, R330), the field ports' power, line
coding and transmission (R333, R334, R336). -/

namespace Sys2Proof.Machine

/-! ### S -/

/-- A reset of S. A control transfer in progress loses against it: one that carried a command or a block is entered in the tally and
counted; a transfer that only waits for its completion is one of these (R329). Bulk requests not begun are discarded and counted, the
response of one in progress is to be discarded, notices go, RWEN clears (R330). `host`: the speed a host drives; none: no host follows. -/
def State.usbReset (s : State) (host : Option Bool) (inFlight : Option Nat) : State :=
  let req := match s.usb.ctl with
    | some x => some x.req
    | none => inFlight
  let s := match req with
    | none => s
    | some r =>
      let s := s.wr F.US_CSTAT_RSTOUT 2
      if r = 0x10 || r = 0x20 then (s.tallyInternal .s 0x8007 0x1E false 0 r).bump F.US_RSTABORT_COUNT else s
  let s := (s.bump F.US_RESETS_COUNT).bumpBy F.US_BULKDISC_COUNT s.usb.bulk.length
  let s := { s with usb := { s.usb with
    notices := [], ctl := none, busy := s.usb.busy.map (fun (b : BulkMsg × Bool) => (b.1, true)), bulk := [], before := 0, halted := [] } }
  let s := (((s.wr F.US_SSTAT_RWEN 0).wr F.US_SSTAT_ADDR 0).wr F.US_SOF_SOFVALID 0).wr F.US_SSTAT_HS (match host with | some h => b2n h | none => 0)
  s.wr F.US_SSTAT_STATE (if host.isSome then 2 else 0)

/-- The pull-up is connected where ENABLE is set and VBUS is valid (R317). -/
def State.usbAttach (s : State) : State :=
  if s.on F.US_SCTL_ENABLE && s.on F.US_SSTAT_VBUS && s.rd F.US_SSTAT_STATE == 0 then s.wr F.US_SSTAT_STATE 1 else s

/-- The pull-up is released: a reset that no host follows. -/
def State.usbDetach (s : State) : State := if s.rd F.US_SSTAT_STATE = 0 then s else s.usbReset none none

/-! ### Field ports -/

/-- A field port besides its registers. -/
def State.field (s : State) (n : Nat) : FieldSt := Tbl.get FieldSt.init n s.usb.fields

def State.setField (s : State) (n : Nat) (f : FieldSt) : State :=
  { s with usb := { s.usb with fields := Tbl.put FieldSt.init n f s.usb.fields } }

/-- A transmission is over: GO and BUSY read 0 again (R336). -/
def State.txEnd (s : State) (n : Nat) : State := (s.wr (F.US_FPn_TXCTL_BUSY n) 0).wr (F.US_FPn_TXCTL_GO n) 0

/-- A transmission ends in an error (R336). -/
def State.txFail (s : State) (n : Nat) : State :=
  ((s.txEnd n).wr (F.US_FPn_TXCTL_TXERR n) 1).bump (F.US_FPn_XERR_COUNT n)

/-- The device of a port is gone; a transmission to it fails. -/
def State.fieldDetach (s : State) (n : Nat) : State :=
  let s := if s.on (F.US_FPn_TXCTL_BUSY n) then s.txFail n else s
  (((s.wr (F.US_FPn_STAT_SPEED n) 0).wr (F.US_FPn_STAT_DRIVER n) 0).wr (F.US_FPn_ID_VID n) 0).wr (F.US_FPn_ID_PID n) 0

/-- The port loses its power. -/
def State.fieldOff (s : State) (n : Nat) : State :=
  ((s.fieldDetach n).wr (F.US_FPn_STAT_STATE n) 0).setField n { s.field n with tries := 0, waiting := false }

/-- The port takes power where ENABLE and POWER are 1: from off, or from an over-current that no retry waits for (R333). -/
def State.fieldOn (s : State) (n : Nat) : State :=
  if s.on (F.US_FPn_CTL_ENABLE n) && s.on (F.US_FPn_CTL_POWER n) && !(s.field n).waiting &&
      (s.rd (F.US_FPn_STAT_STATE n) == 0 || s.rd (F.US_FPn_STAT_STATE n) == 4) then
    (s.wr (F.US_FPn_STAT_STATE n) 1).setField n { s.field n with tries := 0 }
  else s

/-- What a write of US_FPn_CTL does. -/
def State.fieldCtl (s : State) (n : Nat) : State :=
  if s.on (F.US_FPn_CTL_ENABLE n) && s.on (F.US_FPn_CTL_POWER n) then s.fieldOn n
  else if s.rd (F.US_FPn_STAT_STATE n) = 0 then s else s.fieldOff n

/-- SET_LINE_CODING goes to a CDC device (R334). -/
def State.fieldLine (s : State) (n : Nat) : State :=
  if s.rd (F.US_FPn_STAT_DRIVER n) = 4 then s.emit (.lineCoding n (s.rd (F.US_FPn_LINE_BAUD n)) (s.rd (F.US_FPn_LINE_FORMAT n))) else s

/-- The bytes of US_FPn_TXD0 to US_FPn_TXD15. -/
def State.fieldBytes (s : State) (n : Nat) : List Byte :=
  (List.range 16).flatMap fun i => leBytes (s.rd (F.US_FPn_TXDi_DATA n i)) 4

/-- GO is set (R8): LEN bytes go to a CDC or vendor device; to any other port the transmission fails at once (R336). -/
def State.fieldGo (s : State) (n : Nat) : State :=
  if s.rd (F.US_FPn_STAT_DRIVER n) = 1 || s.rd (F.US_FPn_STAT_DRIVER n) = 4 then
    ((s.wr (F.US_FPn_TXCTL_GO n) 1).wr (F.US_FPn_TXCTL_BUSY n) 1).emit (.fieldOut n ((s.fieldBytes n).take (s.rd (F.US_FPn_TXCTL_LEN n))))
  else s.txFail n

end Sys2Proof.Machine
end

