-- ==== Sys2Proof/Machine/Access.lean ====
section
/-! DEFINITION. Reads and writes of registers: what a read shows and does, when a write is refused, what a write does (R6 to R11, R40 to R42,
and the register tables of every chapter). -/

namespace Sys2Proof.Machine

/-! ### Tally entries as words (R438, R441, R450) -/

/-- The 32 bytes of an entry. -/
def TEntry.bytes (e : TEntry) : List Byte :=
  leBytes e.seq 8 ++ leBytes e.sec 4 ++ leBytes e.ns 4 ++ leBytes e.source 2 ++ leBytes e.code 2 ++ leBytes e.result 2 ++ leBytes e.flags 2
    ++ leBytes e.digest 4 ++ leBytes e.detail 4

/-- What stands for an entry that is not held (R441). -/
def missing (seq : Nat) : TEntry :=
  { seq := seq, sec := 0, ns := 0, source := 0, code := 0x8000, result := 0, flags := 8, digest := 0, detail := 0 }

/-- A read of an entry, on chip or in the store. -/
def State.tallyEntry (s : State) (seq : Nat) : TEntry :=
  match s.mg.tally.find? fun e => e.seq == seq with
  | some e => e
  | none =>
    match (if s.store.fitted && s.on F.TL_STORE_PRESENT then s.store.tally.find? fun e => e.seq == seq else none) with
    | some e => e
    | none => missing seq

/-- The number that window k shows: the one above TL_HEAD - 1,024 that is k modulo 1,024; none below 1. -/
def State.windowSeq (s : State) (k : Nat) : Nat :=
  let h := s.tallyHead
  if k ≤ h % 1024 then h - h % 1024 + k else h - h % 1024 + k - 1024

/-- Word w of window k. -/
def State.windowWord (s : State) (k w : Nat) : Nat :=
  let q := s.windowSeq k
  if q = 0 || decide (s.tallyHead < q) then 0
  else
    let e := match s.mg.tally.find? fun e => e.seq == q with | some e => e | none => missing q
    leAt e.bytes (4 * w) 4

/-- Word w of entry i of the fetch buffer. -/
def State.fetchWord (s : State) (i w : Nat) : Nat :=
  match s.mg.fetchBuf[i]? with
  | some e => leAt e.bytes (4 * w) 4
  | none => 0

/-! ### Result slots (R435) -/

/-- The management source of the running image that a ring source is, by its record's place. -/
def State.sourceIndex (s : State) (r n : Nat) : Option Nat :=
  match s.weave with
  | none => none
  | some w => ((w.sources.zip (List.range w.sources.length)).find? fun x => x.1.ring == r && (x.1.node == n || x.1.node == 0xFFFF)).map (·.2)

/-- The slot of a source; none for a ring source without one. -/
def State.slotKey (s : State) : Src → Option Nat
  | .lxb => some 0xFFFF0
  | .mc0 => some 0xFFFF1
  | .mc1 => some 0xFFFF2
  | .s => some 0xFFFF3
  | .ring r n => s.sourceIndex r.toNat n.toNat

/-- What a source's slot holds; zeros for a source without one. -/
def State.slotOf (s : State) (src : Src) : ResSlot :=
  match s.slotKey src with
  | some k => Tbl.get ResSlot.init k s.mg.slots
  | none => ResSlot.init

/-! ### The pair table entry that RG_PSEL selects (R148) -/

/-- RG_PSTAT. -/
def State.pstat (s : State) : Nat :=
  let i := s.rd F.RG_PSEL_INDEX
  if s.on F.RG_PSEL_SIDE then
    let e := Tbl.get DstEntry.init i s.pair.dst
    e.pnode + e.pring * 2 ^ 12 + b2n e.used * 2 ^ 16
  else
    let e := Tbl.get SrcEntry.init i s.pair.src
    let st := match e.state with | .free => 0 | .active => 1 | .sync => 2 | .dead => 3
    e.pnode + e.pring * 2 ^ 12 + st * 2 ^ 16 + e.kept.length % 16 * 2 ^ 19 + e.race % 4 * 2 ^ 23 + e.tries % 8 * 2 ^ 25

/-- RG_PSEQ. -/
def State.pseq (s : State) : Nat :=
  let i := s.rd F.RG_PSEL_INDEX
  if s.on F.RG_PSEL_SIDE then (Tbl.get DstEntry.init i s.pair.dst).expect
  else
    let e := Tbl.get SrcEntry.init i s.pair.src
    let old := match e.kept with | k :: _ => k.cell.seq.toNat | [] => 0
    e.next + old * 2 ^ 16

/-! ### Reads -/

/-- An index of a register array. -/
def ix (is : List Nat) (j : Nat) : Nat := is.getD j 0

/-- Word i of the head REPORT (R121). -/
def State.reportWord (s : State) (i : Nat) : Nat :=
  match s.mem.fifo with
  | p :: _ => beAt p (4 * i) 4
  | [] => 0

/-- The words of a capture: SEC; NS, FALL and VALID (R246). -/
def State.capWord (s : State) (c j : Nat) : Nat :=
  match s.caps c with
  | (sec, ns, fall) :: _ => if j = 0 then sec else ns + b2n fall * 2 ^ 30 + 2 ^ 31
  | [] => 0

/-- The words of a transmit stamp: SEC; NS and VALID; SEQID and MSGTYPE (R243). -/
def State.stampWord (s : State) (n j : Nat) : Nat :=
  match s.stamps n with
  | (sec, ns, seqid, mt) :: _ => if j = 0 then sec else if j = 1 then ns + 2 ^ 31 else seqid % 65536 + mt % 16 * 65536
  | [] => 0

/-- Queue levels of a weaver (R266). -/
def State.queueLevels (s : State) (n : Nat) : Nat :=
  let w := s.wvr n
  w.tx.length % 16 + w.rx.length % 16 * 16 + w.acts.length % 16 * 256 + w.back.length % 2048 * 2 ^ 16

/-- RUNNING and STALLED of a basket. -/
def State.basketStat (s : State) (m : Nat) : Nat :=
  ((List.range 8).map fun i =>
    (if s.rd (F.WVn_STAT_STATE (8 * m + i)) = 1 then 2 ^ i else 0) + (if s.rd (F.WVn_STAT_STATE (8 * m + i)) = 2 then 2 ^ (8 + i) else 0)).sum

/-- The weaver lane that drives a pin. -/
def State.driverOf (s : State) (pin : Nat) : Option (Nat × Nat) :=
  match s.holder 1 pin with
  | some (4, n) => ((List.range 8).find? fun l => s.drives n l && s.rd (F.WVn_LANEl_PIN n l) == pin).map fun l => (n, l)
  | _ => none

/-- The level at one ball: the one a lane drives, where ROLE is high (R403); otherwise the outside world's, a free value. A bank without
supply reads 0 (R260). -/
def State.ballLevel (s : State) (free : Nat) (pin : Nat) : Bool :=
  if !s.bankOn pin then false
  else
    match s.driverOf pin with
    | some (n, l) =>
      let (en, lvl) := (s.lane n l).seen s.clock.tick
      if en && s.roleHigh then lvl else bitsOf free (pin % 32) 1 == 1
    | none => bitsOf free (pin % 32) 1 == 1

/-- BK_PINi. -/
def State.pinWord (s : State) (free i : Nat) : Nat := ((List.range 32).map fun j => b2n (s.ballLevel free (32 * i + j)) * 2 ^ j).sum

/-- What queue q of output n shows: ELIG, SHWAIT, GWAIT, LWAIT, UNSEND, PAUSED and DEFICIT (R223). -/
def State.queueStat (s : State) (n q : Nat) : Nat :=
  let o := s.outOf n
  let gated := decide (2 ≤ n)
  let all := b2n (!s.shaperOk n q) * 2 + b2n (!s.notPaused n q) * 32 + o.defs.getD q 0 % 2 ^ 17 * 256
  match o.head q with
  | none => all + b2n (gated && !s.gateOpen n q) * 4
  | some h =>
    all + b2n (s.eligible n q) + b2n (gated && (!s.gateOpen n q || !s.gateFits n q h.len)) * 4 + b2n (!s.launchOk n h) * 8
      + b2n (gated && s.unsendable n q) * 16

/-- NS of a queue's eligible time. -/
def State.queueElig (s : State) (n q : Nat) : Nat :=
  match (s.outOf n).elig.getD q none with
  | some e => (e / 65536 % (secNs : Nat)).toNat
  | none => 0

/-- Minutes of unlock time left, a part of one counted whole (R431). -/
def State.minutesLeft (s : State) : Nat :=
  match s.mg.debugUntil with
  | some t => (t - s.clock.tick + 29999999999) / 30000000000
  | none => 0

/-- Registers whose value the hub composes when they are read; none: the stored value. -/
def State.composed (s : State) (src : Src) (id : RegId) (is : List Nat) : Option Nat :=
  match id with
  | .NC_CMDSTAT => some ((s.slotOf src).code + (s.slotOf src).result * 65536)
  | .NC_CMDSEQL => some ((s.slotOf src).seq % 2 ^ 32)
  | .NC_CMDSEQH => some ((s.slotOf src).seq / 2 ^ 32)
  | .NC_CMDTAG => some (s.slotOf src).tag
  | .NC_CMDQ => some s.mg.longQ.length
  | .NC_DEBUG => some ((s.reg F.NC_DEBUG_UNLOCKED.key).toNat % 65536 + s.minutesLeft * 65536)
  | .RG_PSTAT => some s.pstat
  | .RG_PSEQ => some s.pseq
  | .RG_RPTCNT => some s.mem.fifo.length
  | .RG_RPTi => some (s.reportWord (ix is 0))
  | .RG_RPT5 => some (s.reportWord 5)
  | .TM_SEC => some s.sec
  | .TM_SEC48L => some (s.sec48 % 2 ^ 32)
  | .TM_TICKNOW => some (s.clock.tick % 2 ^ 32)
  | .TM_CAPc_S => some (s.capWord (ix is 0) 0)
  | .TM_CAPc_NS => some (s.capWord (ix is 0) 1)
  | .TM_CAPc_STAT => some (s.caps (ix is 0)).length
  | .TM_TXSn => some (s.stampWord (ix is 0) 0)
  | .TM_TXNSn => some (s.stampWord (ix is 0) 1)
  | .TM_TXIDn => some (s.stampWord (ix is 0) 2)
  | .SW_QSTATn_q => some (s.queueStat (ix is 0) (ix is 1))
  | .SW_QELIGn_q => some (s.queueElig (ix is 0) (ix is 1))
  | .WVn_QSTAT => some (s.queueLevels (ix is 0))
  | .WVn_RXT => some (match (s.wvr (ix is 0)).rx with | (tag, _) :: _ => if s.on (F.WVn_CTL_RXDEST (ix is 0)) then 0 else tag + 2 ^ 31 | [] => 0)
  | .WVn_RXD => some (match (s.wvr (ix is 0)).rx with | (_, d) :: _ => if s.on (F.WVn_CTL_RXDEST (ix is 0)) then 0 else d | [] => 0)
  | .BKm_STAT => some (s.basketStat (ix is 0))
  | .BK_PINi => some (s.pinWord s.freeW.toNat (ix is 0))
  | .EQ_POP0 => (consumer src).map fun c => (s.eqLatch c 0).toNat
  | .EQ_POPj => (consumer src).map fun c => (s.eqLatch c (ix is 0)).toNat
  | .TL_HEADL => some (s.tallyHead % 2 ^ 32)
  | .TL_HEADH => some (s.mg.latchHead / 2 ^ 32)
  | .TL_TAILL => some (s.mg.latchTail % 2 ^ 32)
  | .TL_TAILH => some (s.mg.latchTail / 2 ^ 32)
  | .TL_FBi_w => some (s.fetchWord (ix is 0) (ix is 1))
  | .TL_WINk_w => some (s.windowWord (ix is 0) (ix is 1))
  | _ => none

/-- What brings a register up to date before it is read. -/
def State.beforeRead (s : State) (src : Src) (id : RegId) (is : List Nat) : State :=
  match id with
  | .WVn_SHIFT => s.wvSettle (ix is 0)
  | .WVn_SHCNT => s.wvSettle (ix is 0)
  | .WVn_STAT => s.wvSettle (ix is 0)
  | .BK_PINi => s.wvSettleAll
  | .SW_GSTATn => s.gateShow (ix is 0)
  | .EQ_POP0 => (match consumer src with | some c => s.eqPop c true | none => s)
  | _ => s

/-- What a read does besides clearing RC fields: latches (R227, R450), removals (R121, R243, R246, R267), a free value used. -/
def State.afterRead (s : State) (id : RegId) (is : List Nat) : State :=
  match id with
  | .TM_SEC => s.timeLatch
  | .TM_SEC48L => s.timeLatch
  | .RG_RPT5 => { s with mem := { s.mem with fifo := s.mem.fifo.tail } }
  | .TM_CAPc_NS => s.capPop (ix is 0)
  | .TM_TXIDn => s.stampPop (ix is 0)
  | .WVn_RXD => s.rxPop (ix is 0)
  | .BK_PINi => s.used
  | .TL_HEADL => { s with mg := { s.mg with latchHead := s.tallyHead, latchTail := s.tallyTail } }
  | _ => s

/-- The word a register shows: WO fields and reserved bits zero (R7, R8). -/
def State.shown (s : State) (src : Src) (key : Nat) (f : Fam) (is : List Nat) : Word :=
  match s.composed src f.id is with
  | some v => BitVec.ofNat 32 v
  | none => BitVec.ofNat 32 ((s.reg key).toNat &&& maskOf (fun x => x.acc != .wo) f.fields)

/-- A read of a register at a place: the word, RC fields cleared after it (R8), and what else the read does. -/
def State.readAt (s : State) (src : Src) (key : Nat) (f : Fam) (is : List Nat) : State × Word :=
  let s := s.beforeRead src f.id is
  let w := s.shown src key f is
  let rc := maskOf (fun x => x.acc == .rc) f.fields
  let s := if rc = 0 then s else s.setReg key (BitVec.ofNat 32 ((s.reg key).toNat &&& (0xFFFFFFFF ^^^ rc)))
  (s.afterRead f.id is, w)

/-- Registers that a ring source cannot read or write: the queue's pop registers (R344), the frame buffer (R448). -/
def ringHidden : RegId → Bool
  | .EQ_POP0 => true
  | .EQ_POPj => true
  | .NC_FTXD0 => true
  | .NC_FTXD1 => true
  | .NC_FTXD2 => true
  | .NC_FTXD3 => true
  | .NC_FTXSTAT => true
  | .NC_FTXBUFi => true
  | _ => false

/-- The source is on the ring. -/
def Src.isRing : Src → Bool
  | .ring _ _ => true
  | _ => false

/-- The receive entry that an offset of class 0x05 spells: controller, entry, word (R316). -/
def rxAt (off : Nat) : Option (Nat × Nat × Nat) :=
  let o := off % 0x8000
  if off < 0x40000 && decide (0x2000 ≤ o) && decide (o < 0x4000) && decide (o % 0x80 < 0x50) then
    some (off / 0x8000, (o - 0x2000) / 0x80, o % 0x80 / 4)
  else none

/-- What does not answer in recovery (R453): all but class 0x0C, the command registers and the ring reset, which needs no firmware (R389).
MC0, which runs the boot ROM, reaches its own units. -/
def State.hiddenNow (s : State) (src : Src) (cls off : Nat) : Bool :=
  s.on F.FW_STAT_RECOVERY && src != .mc0 && cls != 0xC && !(cls == 0 && (off == 0x420 || (decide (0x100 ≤ off) && decide (off < 0x130))))

/-- A read of one register by class and offset; none: an address error. -/
def State.readReg (s : State) (src : Src) (cls off : Nat) : Option (State × Word) :=
  if off % 4 != 0 || s.hiddenNow src cls off then none
  else
    match (if cls = 5 then rxAt off else none) with
    | some (k, e, i) => some (s, s.canRxWord k e i)
    | none =>
      match regAt cls off with
      | none => none
      | some (f, is) => if src.isRing && ringHidden f.id then none else some (s.readAt src (keyOf cls off) f is)

/-! ### When a write is refused (R41) -/

/-- A field of a value. -/
def vf (v : Nat) (f : Fld) : Nat := bitsOf v f.lo f.width

/-- The lanes of a weaver in use, with one of them as a value would make it: (lane, pin, reach). -/
def State.lanesWith (s : State) (n l v : Nat) : List (Nat × Nat × Nat) :=
  ((List.range 8).map fun j => (j, if j = l then v else (s.reg (F.WVn_LANEl_PIN n j).key).toNat)).filterMap fun (j, x) =>
    if vf x (F.WVn_LANEl_ROLE n j) = 7 then none else some (j, vf x (F.WVn_LANEl_PIN n j), vf x (F.WVn_LANEl_REACH n j))

/-- The weaver is on, so that R273 refuses the write and sets PROGREF. -/
def State.progHit (s : State) (id : RegId) (is : List Nat) (old v : Nat) : Bool :=
  let n := ix is 0
  match id with
  | .WVn_CTL => s.wvOn n && (vf v (F.WVn_CTL_JOIN n) != vf old (F.WVn_CTL_JOIN n) || vf v (F.WVn_CTL_RXDEST n) != vf old (F.WVn_CTL_RXDEST n))
  | .WVn_WSRC => s.wvOn n
  | .WVn_SHIFT => s.wvOn n
  | .WVn_SC => s.wvOn n
  | .WVn_CN => s.wvOn n
  | .WVn_LOOP => s.wvOn n
  | .WVn_TRS => s.wvOn n
  | .WVn_TRNS => s.wvOn n
  | .WVn_LANEl => s.wvOn n
  | .WVn_QCFG => s.wvOn n
  | .WVn_PROGs => s.wvOn n
  | _ => false

/-- The wait sources that the program of a weaver uses. -/
def State.usedSources (s : State) (n : Nat) : Nat :=
  (List.range 64).foldl (fun a i => a ||| wordSources (s.rd (F.WVn_PROGs_WORD n i))) 0

/-- The list armed at an output, or active. -/
def State.listBusy (s : State) (n l : Nat) : Bool := (s.outOf n).active == some l || (s.outOf n).armed == some l

/-- A transmit request of some named buffer that R304 refuses: `can` is the part of the same write at CFk_TXCAN. -/
def State.requestBad (s : State) (k mask can : Nat) : Bool :=
  [0, 1, 2].any fun b => bitsOf mask b 1 == 1 &&
    (bitsOf can b 1 == 1 || (s.on (F.CFk_TBb_CTL_FDF k b) && s.on (F.CFk_TBb_CTL_RTR k b)) ||
      (s.on (F.CFk_TBb_CTL_BRS k b) && !s.on (F.CFk_TBb_CTL_FDF k b)) || (s.on (F.CFk_TBb_CTL_FDF k b) && !s.on (F.CFk_MODE_FDOE k)))

/-- ILIM x RSENSE lies from 5 mV to 50 mV; in units of 10 nV (R352). -/
def senseOk (ilim rsense : Nat) : Bool := decide (500000 ≤ ilim * rsense) && decide (ilim * rsense ≤ 5000000)

/-- A block of firmware is being taken from FW_BLKBUF (R458). -/
def State.blockBusy (s : State) : Bool :=
  s.mg.longQ.any fun c => (match c.cmd.words with | w :: _ => w.toNat % 65536 == 0x21 | [] => false) && c.cmd.src != .s

/-- Combinations of values and states of units that refuse a write (the third case of R41). `old` is the register as it stands, `nw` as the
write would leave its kept fields, `v` the value written, `next` the word that the same access writes above it. -/
def State.lockHit (s : State) (id : RegId) (is : List Nat) (old v nw : Nat) (next : Option Nat) : Bool :=
  let a := ix is 0
  let b := ix is 1
  match id with
  | .NC_CMDi => true
  | .NC_RSTREQ => v != 0x57525354
  | .NC_FTXBUFi => s.on F.NC_FTXSTAT_BUSY
  | .NC_FTXD0 => s.on F.NC_FTXSTAT_BUSY
  | .NC_FTXD1 => s.on F.NC_FTXSTAT_BUSY
  | .NC_FTXD2 => s.on F.NC_FTXSTAT_BUSY
  | .NC_FTXD3 =>
    let d := (Tbl.get 0 0x600 s.mg.ftx).toNat
    s.on F.NC_FTXSTAT_BUSY || decide (s.rd (F.SW_PCFGn_MAXLEN (bitsOf d 16 4 + 3)) < bitsOf d 0 14 + 4)
  | .TM_RATE => s.rd F.TM_DSTAT_STATE != 0 && (!s.on F.NC_MODE_POLICY || s.on F.TM_DCFG_SERVO)
  | .TM_CTL => bitsOf v 0 1 == 1 && !s.mayStep
  | .TM_CMPk_S => s.on (F.TM_CMPk_CFG_ARM a)
  | .TM_CMPk_NS => s.on (F.TM_CMPk_CFG_ARM a)
  | .TM_CMPk_PER => s.on (F.TM_CMPk_CFG_ARM a)
  | .SW_HASHCTL => [0, 1, 2].any fun h => s.switching h && bitsOf v h 1 != bitsOf old h 1
  | .SW_SEEDh_s => s.switching a && s.sel a == b
  | .SW_FCn => vf nw (F.SW_FCn_XOFF a) != 0 && decide (vf nw (F.SW_FCn_XOFF a) ≤ vf nw (F.SW_FCn_XON a))
  | .SW_FDBMACL => s.on F.SW_FDBCMD_BUSY
  | .SW_FDBMACH => s.on F.SW_FDBCMD_BUSY
  | .SW_FDBDST => s.on F.SW_FDBCMD_BUSY
  | .SW_FDBCMD => s.on F.SW_FDBCMD_BUSY
  | .SW_GCTLn => bitsOf v 0 1 == 1 && !s.gateArmOk a (vf v (F.SW_GCTLn_PLIST a))
  | .SW_GLENn_l => s.listBusy a b
  | .SW_GSn_l_e => s.listBusy a b
  | .SW_GIn_l_e => s.listBusy a b
  | .SW_GSWAPSn => s.on (F.SW_GCTLn_ARM a)
  | .SW_GSWAPNSn => s.on (F.SW_GCTLn_ARM a)
  | .WVn_CTL => vf v (F.WVn_CTL_JOIN a) == 3
  | .WVn_WSRC => s.usedSources a &&& (7 ^^^ nw % 8) != 0
  | .WVn_LANEl => !lanesOk a (s.lanesWith a b nw)
  | .WVn_PROGs => malformed nw || wordSources nw &&& (7 ^^^ (s.reg (F.WVn_WSRC_PINS a).key).toNat % 8) != 0
  | .BK_GTS => s.on F.BK_GCTL_ARM
  | .BK_GTNS => s.on F.BK_GCTL_ARM
  | .BK_GMASKi => s.on F.BK_GCTL_ARM
  | .CFk_MODE =>
    (bitsOf v 0 1 == 0 && !s.canEnabled a) ||
      (!s.on (F.CFk_MODE_INITACT a) && [F.CFk_MODE_OPMODE a, F.CFk_MODE_FDOE a, F.CFk_MODE_TRIPLE a, F.CFk_MODE_PXD a].any fun f => vf v f != vf old f) ||
      (vf v (F.CFk_MODE_TRIPLE a) == 1 && !tripleOk (s.reg (F.CFk_NBT_NBRP a).key).toNat)
  | .CFk_NBT =>
    !s.on (F.CFk_MODE_INITACT a) || !nbtOk nw || !dbtOk nw (s.reg (F.CFk_DBT_DBRP a).key).toNat || (s.on (F.CFk_MODE_TRIPLE a) && !tripleOk nw)
  | .CFk_DBT => !s.on (F.CFk_MODE_INITACT a) || !dbtOk (s.reg (F.CFk_NBT_NBRP a).key).toNat nw
  | .CFk_TDC => !s.on (F.CFk_MODE_INITACT a)
  | .CFk_TXREQ => s.requestBad a v (next.getD 0)
  | .CFk_RXACK => decide (s.rd (F.CFk_RXSTAT_OWNED a) < v % 128)
  | .CFk_TBb_ID => s.requested a b
  | .CFk_TBb_CTL => s.requested a b
  | .CFk_TBb_LTS => s.requested a b
  | .CFk_TBb_LTNS => s.requested a b
  | .CFk_TBb_LTOL => s.requested a b
  | .CFk_TBb_DATAi => s.requested a b
  | .US_FPn_TXDi => s.on (F.US_FPn_TXCTL_BUSY a)
  | .US_FPn_TXCTL => s.on (F.US_FPn_TXCTL_BUSY a)
  | .BX_WINn_CFG => s.rd (F.BX_WINn_BASE_BASE a) % 2 ^ vf nw (F.BX_WINn_CFG_SIZE a) != 0
  | .BX_WINn_BASE => nw % 2 ^ s.rd (F.BX_WINn_CFG_SIZE a) != 0
  | .BX_FARn_BASEL => nw % 2 ^ 28 != 0
  | .EQ_MARKS => decide (vf nw F.EQ_MARKS_HWM ≤ vf nw F.EQ_MARKS_LWM)
  | .PW_INCFG => !senseOk (vf nw F.PW_INCFG_ILIM) (s.rd F.PW_INPWR_RSENSE)
  | .PW_INPWR => !senseOk (s.rd F.PW_INCFG_ILIM) (vf nw F.PW_INPWR_RSENSE)
  | .PW_INVTH =>
    decide (vf nw F.PW_INVTH_OV < vf nw F.PW_INVTH_UV + 50) || decide (s.rd F.PW_PFWCFG_TH ≤ vf nw F.PW_INVTH_UV)
  | .PW_PFWCFG => decide (vf nw F.PW_PFWCFG_TH ≤ s.rd F.PW_INVTH_UV)
  | .PW_Bb_CTL =>
    s.pow.frozen || (bitsOf v 12 1 == 1 && !s.curveOk a) ||
      (bitsOf v 0 1 == 1 && (bitsOf old 0 1 == 0 || s.branch a != 1) && (Tbl.get [] a s.pow.curves).isEmpty)
  | .FW_BLKBUFi => s.blockBusy
  | _ => false

/-- The write would make a unit take a resource it holds no claim for (R41, R59). -/
def State.claimHit (s : State) (id : RegId) (is : List Nat) (old v nw : Nat) : Bool :=
  let a := ix is 0
  match id with
  | .TM_CMPk_CFG => bitsOf v 0 1 == 1 && (s.holder 2 a).isNone
  | .TM_CAPc_CFG => bitsOf v 0 1 == 1 && bitsOf old 0 1 == 0 && !s.claims 3 a 2 0
  | .TM_PPSi_CFG => bitsOf v 0 1 == 1 && bitsOf old 0 1 == 0 && !s.claims 4 a 2 0
  | .WVn_LANEl =>
    let role := vf nw (F.WVn_LANEl_ROLE 0 0)
    let pin := vf nw (F.WVn_LANEl_PIN 0 0)
    if [0, 2, 3, 4].contains role then !s.claims 1 pin 4 a else if role = 1 || role = 5 then !s.listens pin a else false
  | .BX_WINn_CFG => bitsOf v 0 1 == 1 && bitsOf old 0 1 == 0 && !s.claims 7 a 7 0
  | .PW_Bb_CTL => bitsOf v 0 1 == 1 && (bitsOf old 0 1 == 0 || s.branch a != 1) && !s.branchClaimed a
  | _ => false

/-- The write would change a closed RWL bit (R41); a bare hub leaves none open. -/
def State.closedHit (s : State) (key : Nat) (f : Fam) (old v : Nat) : Bool :=
  (old ^^^ v) &&& maskOf (fun x => x.acc == .rwl) f.fields &&& (0xFFFFFFFF ^^^ s.openBits key) != 0

/-- A changed RW or RWL field, or a WO value field, would be out of its range (R41). -/
def rangeHit (f : Fam) (old v : Nat) : Bool :=
  f.fields.any fun x =>
    if x.acc == .wo then !x.accepts (x.of v)
    else x.keeps && x.of v != x.of old && !x.accepts (x.of v)

/-- A refused write is counted once, and captured while VALID is clear (R42). -/
def State.refuse (s : State) (src : Src) (cls off : Nat) (claim : Bool) : State :=
  let s := if claim then s.bump F.WE_CLAIMREF_COUNT else s.bump F.WE_LOCKREF_COUNT
  if s.on F.WE_REFADR_VALID then s
  else
    let who := match src with
      | .ring r n => n.toNat + r.toNat * 4096
      | .lxb => 2 ^ 16
      | .mc0 => 2 ^ 16 + 2 ^ 17
      | .mc1 => 2 ^ 16 + 2 * 2 ^ 17
      | .s => 2 ^ 16 + 3 * 2 ^ 17
    (s.setReg F.WE_REFADR_VALID.key (BitVec.ofNat 32 (off + cls * 2 ^ 20 + b2n claim * 2 ^ 28 + 2 ^ 31))).setReg F.WE_REFSRC_NODE.key
      (BitVec.ofNat 32 who)

/-! ### What a write does -/

/-- The bits a write leaves in a register: RW and RWL bits as written, W1C bits written 1 cleared, the rest as they were (R8). -/
def merged (f : Fam) (old v : Nat) : Nat :=
  let keep := maskOf FieldSpec.keeps f.fields
  let clear := maskOf (fun x => x.acc == .w1c) f.fields &&& v
  (old &&& (0xFFFFFFFF ^^^ keep) &&& (0xFFFFFFFF ^^^ clear)) ||| (v &&& keep)

/-- A frame of NC_FTXBUF is submitted (R448): sent from slath port 19; with LAUNCH, under a launch table entry, or dropped if none is free. -/
def State.frameSubmit (s : State) (tol : Nat) : State :=
  let w (o : Nat) : Nat := (Tbl.get 0 o s.mg.ftx).toNat
  let d := w 0x600
  let bytes := (List.range 2304).flatMap fun i => leBytes (w (0x1000 + 4 * i)) 4
  let f := frameOf (bytes.take (bitsOf d 0 14))
  let go (s : State) (lti : Nat) : State :=
    s.enqueue (bitsOf d 16 4 + 3) { mkItem (.frame f) (bitsOf d 20 3) 0 19 lti with tsreq := bitsOf d 24 1 == 1 }
  if bitsOf d 25 1 = 1 then
    match s.launchTake (w 0x604) (w 0x608 % 2 ^ 30) 0 tol with
    | (s, some i) => go s i
    | (s, none) => s.wr F.NC_FTXSTAT_DROPPED 1
  else go s 0

/-- One action of a write, if its bit is set. -/
def State.when (s : State) (b : Bool) (f : State → State) : State := if b then f s else s

/-- What a write that is taken does beyond the bits it leaves. Where one write triggers several actions, they run in the order given here:
what stops or disarms before what starts or arms (assumption 13); a STOP of a weaver leaves no START of the same write (R277). -/
def State.afterWrite (s : State) (src : Src) (id : RegId) (is : List Nat) (old v : Nat) : State :=
  let a := ix is 0
  let b := ix is 1
  let bit (i : Nat) : Bool := bitsOf v i 1 == 1
  match id with
  | .NC_MODE => (s.when (bit 2 && bitsOf old 2 1 == 0) State.directedNow).speedWritten
  | .NC_RSTREQ =>
    match src with
    | .ring r n => s.ringNow r.toNat n.toNat
    | .lxb => s.ringNow 16 0
    | .mc0 => s.ringNow 16 1
    | .mc1 => s.ringNow 16 2
    | .s => s.ringNow 16 3
  | .NC_URST => s.urst v
  | .NC_WRST => s.wrst v
  | .NC_ERST => s.erst v
  | .NC_FTXBUFi => { s with mg := { s.mg with ftx := Tbl.put 0 (0x1000 + 4 * a) (BitVec.ofNat 32 v) s.mg.ftx } }
  | .NC_FTXD0 => { s with mg := { s.mg with ftx := Tbl.put 0 0x600 (BitVec.ofNat 32 v) s.mg.ftx } }
  | .NC_FTXD1 => { s with mg := { s.mg with ftx := Tbl.put 0 0x604 (BitVec.ofNat 32 v) s.mg.ftx } }
  | .NC_FTXD2 => { s with mg := { s.mg with ftx := Tbl.put 0 0x608 (BitVec.ofNat 32 v) s.mg.ftx } }
  | .NC_FTXD3 => s.frameSubmit v
  | .RGp_CTL => (s.linkEnable (bitsOf old 0 1 == 1) a).when (bit 4) (·.linkRetrain a)
  | .RGp_I2C => s.when (bit 31) (·.i2cStart a)
  | .RG_ENUM => s.when (bit 12) State.enumStart
  | .TM_CTL => (s.when (bit 1) State.timeLatch).when (bit 0) State.stepWritten
  | .TM_CMPk_CFG => (s.when (bit 1) (·.cmpDisarm a)).when (bit 0) (·.cmpArm a)
  | .SW_HASHCTL => [0, 1, 2].foldl (fun s h => s.when (bitsOf v h 1 != bitsOf old h 1) (·.switchBegin h)) s
  | .SW_FDBCMD => s.when (bit 31) State.fdbGo
  | .SW_PCFGn => s.when (bitsOf old 0 1 == 1 && !bit 0) (·.portOff a)
  | .SW_GCTLn =>
    ((s.when (bit 2) (·.gateOff a)).when (bit 1) (·.gateDisarm a)).when (bit 0)
      fun s => if (s.outOf a).armed.isSome then s else s.gateArm a (vf v (F.SW_GCTLn_PLIST a))
  | .WVn_CTL => (s.when (bit 0) (·.wvStop a)).when (bit 1 && !bit 0) fun s => s.wvStart s.startTick a
  | .WVn_DIV0 => s.when (!s.on (F.WVn_STAT_DIVACT a)) (·.divChange a)
  | .WVn_DIV1 => s.when (s.on (F.WVn_STAT_DIVACT a)) (·.divChange a)
  | .WVn_TXQ => s.txPush a v
  | .WVn_LANEl => s.lanePark a b s.clock.tick
  | .BKm_START => s.wvStartAll s.startTick (masked (8 * a) v 8)
  | .BKm_STOP => s.wvStopAll (masked (8 * a) v 8)
  | .BKm_CLKRST => s.clkRestart (masked (8 * a) v 8)
  | .BKm_FLAGS => s.flagsClear a (v % 65536)
  | .BKm_FSET => s.flagsSet a (v % 65536)
  | .BKm_IRQ => s.linesRaise a (v % 16)
  | .BK_GCTL =>
    (((s.when (bit 3) fun s => s.wvStopAll s.gmask).when (bit 0 && !bit 3) fun s => s.wvStartAll s.startTick s.gmask).when (bit 2)
      State.globalDisarmSet).when (bit 1) State.globalArmSet
  | .CFk_MODE =>
    (s.when (bit 0 != (bitsOf old 0 1 == 1)) fun s => if bit 0 then s.canStop a else s.canJoin a).when (bit 11) (·.canRecoverNow a)
  | .CFk_TXREQ => s.eachTb (fun s b => s.canRequest a b) v [0, 1, 2]
  | .CFk_TXCAN => s.eachTb (fun s b => s.canCancel a b) v [0, 1, 2]
  | .CFk_RXACK => s.canAck a (v % 128)
  | .US_SCTL => if bit 0 then s.usbAttach else s.usbDetach
  | .US_FPn_CTL => s.fieldCtl a
  | .US_FPn_LINE => s.fieldLine a
  | .US_FPn_TXCTL => s.when (bit 8) (·.fieldGo a)
  | .EQ_PUSHi =>
    if a = 3 then s.eqPush (BitVec.ofNat 32 v) else { s with eq := { s.eq with push := Tbl.put 0 a (BitVec.ofNat 32 v) s.eq.push } }
  | .EQ_MARKS => s.eqAfter
  | .PW_Bb_CTL => (s.when (bit 12) (·.curveCommit a)).when (bit 0 || bitsOf old 0 1 == 1) (·.branchWritten a (bit 0))
  | .FW_BLKBUFi => { s with fw := { s.fw with blk := Tbl.put 0 a (BitVec.ofNat 32 v) s.fw.blk } }
  | _ => s

/-- The right a register needs of its writer: NC_RSTREQ commands besides writing (R389), FW_BLKBUF the firmware right (R458). -/
def State.mayWrite (s : State) (src : Src) (id : RegId) : Bool :=
  match id with
  | .NC_RSTREQ => s.hasRight src 1 && s.hasRight src 2
  | .FW_BLKBUFi => s.hasRight src 3
  | _ => s.hasRight src 1

/-- What brings a register up to date before it is written. -/
def State.beforeWrite (s : State) (id : RegId) (is : List Nat) : State :=
  match id with
  | .WVn_STAT => s.wvSettle (ix is 0)
  | .WVn_DIV0 => s.wvSettle (ix is 0)
  | .WVn_DIV1 => s.wvSettle (ix is 0)
  | _ => s

/-- A write of a register at a place, taken whole or refused whole (R41). `next`: the word the same access writes above it. -/
def State.writeAt (s : State) (src : Src) (cls off : Nat) (f : Fam) (is : List Nat) (v : Nat) (next : Option Nat) : State × Status :=
  let key := keyOf cls off
  let s := s.beforeWrite f.id is
  let old := (s.reg key).toNat
  let nw := merged f old v
  let claim := s.claimHit f.id is old v nw
  let prog := s.progHit f.id is old v
  if claim || prog || s.closedHit key f old v || rangeHit f old v || s.lockHit f.id is old v nw next then
    let s := if prog then s.wr (F.WVn_STAT_PROGREF (ix is 0)) 1 else s
    (s.refuse src cls off claim, if claim then .claimed else .locked)
  else ((s.setReg key (BitVec.ofNat 32 nw)).afterWrite src f.id is old v, .ok)

/-- A write of one register by class and offset. -/
def State.writeReg (s : State) (src : Src) (cls off v : Nat) (next : Option Nat) : State × Status :=
  if off % 4 != 0 || s.hiddenNow src cls off then (s, .addrErr)
  else if cls == 5 && (rxAt off).isSome then (s, .ok)
  else
    match regAt cls off with
    | none => (s, .addrErr)
    | some (f, is) =>
      if src.isRing && ringHidden f.id then (s, .addrErr)
      else if !s.mayWrite src f.id then (s.bump F.WE_MGRREF_COUNT, .refused)
      else if f.id = .RGp_I2C && s.on (F.RGp_I2C_BUSY (ix is 0)) then (s, .ok)
      else s.writeAt src cls off f is v next

/-! ### Accesses of several registers (R6, R153) -/

/-- Words read one at a time in ascending order; none: some word does not exist, and nothing has happened. -/
def State.readWords (s : State) (src : Src) (cls : Nat) : Nat → Nat → Option (State × List Word)
  | _, 0 => some (s, [])
  | off, k + 1 =>
    match s.readReg src cls off with
    | none => none
    | some (s, w) =>
      match State.readWords s src cls (off + 4) k with
      | none => none
      | some (s, ws) => some (s, w :: ws)

/-- Words written one at a time in ascending order, up to the first that fails. -/
def State.writeWords (s : State) (src : Src) (cls : Nat) : Nat → List Word → State × Status
  | _, [] => (s, .ok)
  | off, w :: ws =>
    match s.writeReg src cls off w.toNat (ws.head?.map (·.toNat)) with
    | (s, .ok) => State.writeWords s src cls (off + 4) ws
    | (s, st) => (s, st)

/-- Registers that a refusal may change. -/
def refusalKeys : List Nat :=
  [F.WE_LOCKREF_COUNT.key, F.WE_CLAIMREF_COUNT.key, F.WE_MGRREF_COUNT.key, F.WE_REFADR_VALID.key, F.WE_REFSRC_NODE.key]

/-- What a refused access leaves: the counts and captures of its refusal alone. -/
def State.refusalOnly (s t : State) : State := refusalKeys.foldl (fun (r : State) k => r.setReg k (t.reg k)) s

/-- The PROGREF bits that a refusal set stand as well (R273). -/
def State.progrefFrom (s t : State) : List Nat → State
  | [] => s
  | n :: ns => State.progrefFrom (if t.on (F.WVn_STAT_PROGREF n) && !s.on (F.WVn_STAT_PROGREF n) then s.wr (F.WVn_STAT_PROGREF n) 1 else s) t ns

/-- A write of whole words that is applied whole or answered with its first failure and changes nothing (R153). -/
def State.writeAll (s : State) (src : Src) (cls off : Nat) (ws : List Word) : State × Status :=
  match s.writeWords src cls off ws with
  | (t, .ok) => (t, .ok)
  | (t, st) => ((s.refusalOnly t).progrefFrom t (if cls = 4 then [off / 0x400] else []), st)

/-- Words that bytes spell, byte 0 lowest (R150). -/
def wordsOf (bs : List Byte) : Nat → List Word
  | 0 => []
  | k + 1 => BitVec.ofNat 32 (leAt bs 0 4) :: wordsOf (bs.drop 4) k

/-- Bytes of words. -/
def bytesOf (ws : List Word) : List Byte := ws.flatMap fun w => leBytes w.toNat 4

end Sys2Proof.Machine
end

