-- ==== Sys2Proof/Machine/Crypto.lean ====
section
/-! DEFINITION. SHA-256 and the verification of an ECDSA P-256 signature, which R57 and R455 name (FIPS 180-4, FIPS 186-4; assumption
10). -/

namespace Sys2Proof.Machine

/-! ### SHA-256

The eight working variables are held as two numbers of four 32-bit words, a to d and e to h, and the message schedule as a window of 16
words that slides with the rounds. Words of a number are counted from its low end. -/

/-- Word k of a number. -/
def lane (x k : Nat) : Nat := x / 2 ^ (32 * k) % 2 ^ 32

/-- A 32-bit word turned right. -/
def turn (x n : Nat) : Nat := lane (x * (2 ^ 32 + 1) / 2 ^ n) 0

/-- The integer root of n, its bits from the highest of k. -/
def primeRoot (power n : Nat) : Nat → Nat → Nat
  | 0, x => x
  | k + 1, x => primeRoot power n k (if (x + 2 ^ k) ^ power ≤ n then x + 2 ^ k else x)

/-- The first 32 bits of the fraction of a root of p. -/
def rootFraction (power p : Nat) : Nat := lane (primeRoot power (p * 2 ^ (32 * power)) 37 0) 0

/-- The first 64 primes. -/
def shaPrimes : List Nat :=
  (List.range 312).filter fun n => decide (2 ≤ n) && [2, 3, 5, 7, 11, 13, 17].all fun d => n == d || n % d != 0

/-- The round constants: cube roots of the primes. -/
def shaConstants : List Nat := shaPrimes.map (rootFraction 3)

/-- The initial hash: square roots of the first eight primes, the first one in the highest word. -/
def shaStart : Nat := (shaPrimes.take 8).foldl (fun h p => h * 2 ^ 32 + rootFraction 2 p) 0

/-- Window, a to d, e to h. -/
structure ShaSt where
  w : Nat
  hi : Nat
  lo : Nat

/-- One round. -/
def ShaSt.round (s : ShaSt) (k : Nat) : ShaSt :=
  let (a, e) := (lane s.hi 3, lane s.lo 3)
  let (x, y) := (lane s.w 14, lane s.w 1)
  let choice := lane s.lo 1 ^^^ (e &&& (lane s.lo 2 ^^^ lane s.lo 1))
  let majority := (a &&& (lane s.hi 2 ||| lane s.hi 1)) ||| (lane s.hi 2 &&& lane s.hi 1)
  let t := k + lane s.w 15 + lane s.lo 0 + choice + (turn e 6 ^^^ turn e 11 ^^^ turn e 25)
  let new := lane s.w 15 + lane s.w 6 + (turn x 7 ^^^ turn x 18 ^^^ x / 2 ^ 3) + (turn y 17 ^^^ turn y 19 ^^^ y / 2 ^ 10)
  { w := s.w % 2 ^ 480 * 2 ^ 32 + lane new 0
    hi := lane (t + majority + (turn a 2 ^^^ turn a 13 ^^^ turn a 22)) 0 * 2 ^ 96 + s.hi / 2 ^ 32
    lo := lane (t + lane s.hi 0) 0 * 2 ^ 96 + s.lo / 2 ^ 32 }

/-- Words of two numbers added, k of them. -/
def laneSum (x y : Nat) (k : Nat) : Nat := ((List.range k).map fun i => lane (lane x i + lane y i) 0 * 2 ^ (32 * i)).sum

/-- The hash of a message, block by block of 64 bytes. -/
def shaOver : Nat → List Byte → Nat → Nat
  | 0, _, h => h
  | n + 1, msg, h =>
    let s := shaConstants.foldl ShaSt.round { w := beAt msg 0 64, hi := h / 2 ^ 128, lo := h % 2 ^ 128 }
    shaOver n (msg.drop 64) (laneSum h (s.hi * 2 ^ 128 + s.lo) 8)

/-- SHA-256 of a byte string: a one bit, zeros to 8 bytes short of a block's end, and the length in bits follow it. -/
def sha256 (bs : List Byte) : List Byte :=
  let blocks := (bs.length + 72) / 64
  let msg := bs ++ 0x80 :: List.replicate (64 * blocks - bs.length - 9) 0 ++ beBytes (8 * bs.length) 8
  beBytes (shaOver blocks msg shaStart) 32

/-! ### ECDSA P-256 -/

/-- The field prime, the group order and the curve constant b. -/
def pP : Nat := 2 ^ 256 - 2 ^ 224 + 2 ^ 192 + 2 ^ 96 - 1
def pN : Nat := 0xFFFFFFFF00000000FFFFFFFFFFFFFFFFBCE6FAADA7179E84F3B9CAC2FC632551
def pB : Nat := 0x5AC635D8AA3A93E7B3EBBD55769886BC651D06B0CC53B0F63BCE3C3E27D2604B

/-- The base point. -/
def pG : Nat × Nat :=
  (0x6B17D1F2E12C4247F8BCE6E563A440F277037D812DEB33A0F4A13945D898C296, 0x4FE342E2FE1A7F9B8EE7EB4A7C0F9E162BCE33576B315ECECBB6406837BF51F5)

/-- x to the power e mod m, bits of e from the highest of k. -/
def powBits (m x e : Nat) : Nat → Nat → Nat
  | 0, r => r
  | k + 1, r =>
    let r := r * r % m
    powBits m x e k (if e / 2 ^ k % 2 = 1 then r * x % m else r)

/-- The inverse of x modulo a prime. -/
def invMod (m x : Nat) : Nat := powBits m x (m - 2) 256 1

/-- A point; none: the point at infinity. -/
abbrev CurvePt := Option (Nat × Nat)

/-- The third point of a chord or tangent of slope l. -/
def curveThird (l : Nat) (a b : Nat × Nat) : CurvePt :=
  let x := (l * l + 2 * pP - a.1 - b.1) % pP
  some (x, (l * (a.1 + pP - x) + pP - a.2) % pP)

/-- The sum of two points. -/
def curveAdd : CurvePt → CurvePt → CurvePt
  | none, q => q
  | p, none => p
  | some a, some b =>
    if a.1 = b.1 then
      if a.2 = b.2 && a.2 != 0 then curveThird (3 * (a.1 * a.1 % pP + pP - 1) * invMod pP (2 * a.2 % pP) % pP) a b
      else none
    else curveThird ((b.2 + pP - a.2) * invMod pP ((b.1 + pP - a.1) % pP) % pP) a b

/-- A multiple of a point, bits of the multiplier from the highest of k. -/
def curveMul (q : CurvePt) (e : Nat) : Nat → CurvePt → CurvePt
  | 0, r => r
  | k + 1, r =>
    let r := curveAdd r r
    curveMul q e k (if e / 2 ^ k % 2 = 1 then curveAdd r q else r)

/-- A public key's coordinates are those of a point of the curve. -/
def onCurve (x y : Nat) : Bool := decide (x < pP) && decide (y < pP) && y * y % pP == (x * x * x + pB + (pP - 3) * x) % pP

/-- The signature (r, s) of a digest verifies under the key (x, y). -/
def ecdsaVerify (digest : Nat) (r s x y : Nat) : Bool :=
  if decide (1 ≤ r) && decide (r < pN) && decide (1 ≤ s) && decide (s < pN) && onCurve x y then
    let w := invMod pN s
    match curveAdd (curveMul (some pG) (digest * w % pN) 256 none) (curveMul (some (x, y)) (r * w % pN) 256 none) with
    | some p => p.1 % pN == r
    | none => false
  else false

end Sys2Proof.Machine
end

