-- ==== Sys2Proof/Machine/Image.lean ====
section
/-! DEFINITION. The weave image: its layout, and the checks 2 to 10 of R63 (chapter 02). -/

namespace Sys2Proof.Machine

/-! ### Layout (R43 to R46) -/

/-- A splint: image offset of its header, length of its body. -/
structure Splint where
  pos : Nat
  len : Nat
  deriving DecidableEq, Repr

/-- A record and its image offset. -/
structure Located (α : Type) where
  at' : Nat
  val : α
  deriving DecidableEq, Repr

/-- A preset or management source record as it stands (R49, R51). -/
structure RawPreset where
  splint : Nat
  cls : Nat
  kind : Nat
  res : Nat
  off : Nat
  value : Nat
  opn : Nat
  deriving DecidableEq, Repr

/-- An image after check 2: its bytes, its splints in the order of R43, its records. -/
structure Image where
  raw : List Byte
  sp : List Splint
  pins : List (Located (PinRec × Nat))
  presets : List (Located RawPreset)
  pool : List (Located (PoolRec × Nat))
  claims : List (Located ClaimRec)
  deriving DecidableEq, Repr

/-- A failure of a load: CODE of WE_STATUS, splint, image offset, and for check 8 the resource and the two owners (class, index). -/
structure LoadErr where
  code : Nat
  splint : Option Nat
  off : Nat
  res : Nat × Nat
  own1 : Nat × Nat
  own2 : Nat × Nat
  deriving DecidableEq, Repr

/-- A failure that names an item. -/
def errAt (code splint off : Nat) : LoadErr := { code := code, splint := some splint, off := off, res := (0, 0), own1 := (0, 0), own2 := (0, 0) }

/-- A failure that names none (checks 1 and 4 to 6). -/
def errOf (code : Nat) : LoadErr := { code := code, splint := none, off := 0, res := (0, 0), own1 := (0, 0), own2 := (0, 0) }

/-- The splint IDs in the order of R43, as little-endian words: HEAD, PINS, UNIT, POOL, PORT, SCHD, ADDR, TIME, POWR, EVNT, CLAM, SIGN. -/
def splintIds : List Nat :=
  [0x44414548, 0x534e4950, 0x54494e55, 0x4c4f4f50, 0x54524f50, 0x44484353, 0x52444441, 0x454d4954, 0x52574f50, 0x544e5645, 0x4d414c43,
   0x4e474953]

/-- Record size of a splint; none for HEAD and SIGN (R46). -/
def recordSize (k : Nat) : Option Nat :=
  if k = 0 || k = 11 then none else if k = 1 || k = 3 || k = 10 then some 8 else some 16

/-- Zero bytes that pad a body to eight (R43). -/
def padOf (len : Nat) : Nat := (8 - len % 8) % 8

/-- The header at a position is that of the k-th splint, its body of a length it may have (R43, R44, R46). -/
def splintOk (raw : List Byte) (id k pos : Nat) : Bool :=
  let len := leAt raw (pos + 4) 4
  leAt raw pos 4 == id && leAt raw (pos + 8) 2 == 1 &&
    (match recordSize k with
      | some z => decide (8 ≤ len) && leAt raw (pos + 18) 2 == z && len == 8 + leAt raw (pos + 16) 2 * z
      | none => len == if k = 0 then 80 else 132)

/-- The splints from the k-th on, or the failing item: TOTAL, at the lower offset, where the image ends before a splint does or after the last;
otherwise the first splint that is out of order or of a wrong length. TOTAL is the offset after the last byte of SIGN (R45): R43 pads that
body with four zero bytes, and whether these belong to SIGN the spec does not say; the model takes either, with the four bytes present and
zero in boot flash either way (assumption 11). -/
def locate (raw : List Byte) (total : Nat) : List Nat → Nat → Nat → Sum LoadErr (List Splint)
  | [], _, pos => if pos = total || pos = total + 4 then .inr [] else .inl (errAt 2 0 0x28)
  | id :: ids, k, pos =>
    let len := leAt raw (pos + 4) 4
    let last := pos + 16 + len
    if total < pos + 16 then .inl (errAt 2 0 0x28)
    else if !splintOk raw id k pos then .inl (errAt 2 k pos)
    else if total < last then .inl (errAt 2 0 0x28)
    else
      match locate raw total ids (k + 1) (last + padOf len) with
      | .inl e => .inl e
      | .inr r => .inr ({ pos := pos, len := len } :: r)

/-- The records of a splint with their offsets. -/
def recordsOf (raw : List Byte) (sp : Splint) (size : Nat) : List (Nat × List Byte) :=
  (List.range ((sp.len - 8) / size)).map fun i => (sp.pos + 24 + i * size, slice raw (sp.pos + 24 + i * size) size)

def noSplint : Splint := { pos := 0, len := 0 }

/-- The k-th splint. -/
def Image.sp! (i : Image) (k : Nat) : Splint := i.sp.getD k noSplint

/-- The body of the k-th splint. -/
def Image.body (i : Image) (k : Nat) : List Byte := slice i.raw ((i.sp! k).pos + 16) (i.sp! k).len

/-- A PINS record (R47) with its reserved byte. -/
def pinOf (r : List Byte) : PinRec × Nat :=
  ({ pin := leAt r 0 1, weaver := leAt r 1 1, role := leAt r 2 1, lane := leAt r 3 1, drive := leAt r 4 1, park := leAt r 5 1, reach := leAt r 6 1 },
   leAt r 7 1)

/-- A POOL record (R53) with its reserved byte. -/
def poolOf (r : List Byte) : PoolRec × Nat :=
  ({ region := leAt r 0 1, owner := leAt r 1 1, flags := leAt r 2 1, first := leAt r 4 2, cells := leAt r 6 2 }, leAt r 3 1)

/-- A CLAM record (R55). -/
def claimOf (r : List Byte) : ClaimRec :=
  { resource := leAt r 0 1, mode := leAt r 1 1, oclass := leAt r 2 1, oindex := leAt r 3 1, first := leAt r 4 2, count := leAt r 6 2 }

/-- A preset record (R49). -/
def presetOf (k : Nat) (r : List Byte) : RawPreset :=
  { splint := k, cls := leAt r 0 1, kind := leAt r 1 1, res := leAt r 2 2, off := leAt r 4 4, value := leAt r 8 4, opn := leAt r 12 4 }

/-- Check 2: the header of HEAD, MAGIC, FORMAT, TOTAL, splint order and lengths; the failing item is the one at the lowest offset. -/
def parseImage (flash : List Byte) : Sum LoadErr Image :=
  if !splintOk flash 0x44414548 0 0 then .inl (errAt 2 0 0)
  else if leAt flash 16 4 != 0x56574856 then .inl (errAt 2 0 16)
  else if leAt flash 20 2 != 2 then .inl (errAt 2 0 20)
  else
    let total := leAt flash 0x28 4
    if decide (2 ^ 20 < total) || decide (flash.length < total) then .inl (errAt 2 0 0x28)
    else
      let raw := flash.take (total + padOf total)
      match locate raw total splintIds 0 0 with
      | .inl e => .inl e
      | .inr sp =>
        let s (k : Nat) : Splint := sp.getD k noSplint
        let loc {α : Type} (k size : Nat) (f : List Byte → α) : List (Located α) :=
          (recordsOf raw (s k) size).map fun r => { at' := r.1, val := f r.2 }
        .inr { raw := raw, sp := sp, pins := loc 1 8 pinOf, pool := loc 3 8 poolOf, claims := loc 10 8 claimOf,
               presets := [2, 4, 5, 6, 7, 8, 9].flatMap fun k => loc k 16 (presetOf k) }

/-- Bytes from HEAD to the byte before SIGN (R57). -/
def Image.signed (i : Image) : List Byte := i.raw.take (i.sp! 11).pos

/-- Management sources (R51). -/
def Image.isSource (r : RawPreset) : Bool := r.splint == 6 && r.kind == 1

/-- The presets of KIND 0, for the state. -/
def Image.weave (i : Image) : Weave :=
  { bytes := i.raw, pins := i.pins.map (·.val.1), pool := i.pool.map (·.val.1), claims := i.claims.map (·.val)
    presets := (i.presets.filter fun r => !Image.isSource r.val).map fun r =>
      { splint := r.val.splint, cls := r.val.cls, off := r.val.off, value := r.val.value, opn := r.val.opn, at' := r.at' }
    sources := (i.presets.filter fun r => Image.isSource r.val).map fun r => { ring := r.val.cls, node := r.val.off, rights := r.val.value }
    imgver := leAt i.raw 0x18 4 }

/-! ### Checks 3 to 6 -/

/-- Check 3. -/
def Image.crcBad (i : Image) : Option LoadErr :=
  ((List.range 12).find? fun k => (crc32c (i.body k)).toNat != leAt i.raw ((i.sp! k).pos + 12) 4).map fun k => errAt 3 k (i.sp! k).pos

/-- A signature trailer laid out as the SIGN body (R56): its slot is usable and holds the hash of its key (R57). R63 has check 4 look at the
slot's state and check 5 at the signature; a public key whose hash is not the slot's the model reports at check 4, as KEY: the spec names
neither check for it (assumption 11). -/
def State.keyGood (s : State) (sign : List Byte) : Bool :=
  let slot := leAt sign 0 1
  let k := Tbl.get KeySlot.blank slot s.otp.keys
  decide (slot ≤ 3) && k.prov && !k.revoked && sha256 (slice sign 68 64) == k.hash

/-- The signature over bytes verifies. -/
def signGood (bytes sign : List Byte) : Bool :=
  ecdsaVerify (beNat (sha256 bytes)) (beAt sign 4 32) (beAt sign 36 32) (beAt sign 68 32) (beAt sign 100 32)

/-- A version lies within an ACCEPT pair. -/
def inPair (bs : List Byte) (off v : Nat) : Bool := decide (leAt bs off 4 ≤ v) && decide (v ≤ leAt bs (off + 4) 4)

/-- Check 6: DEVICE, stepping, ACCEPT against the running components 1 to 4 (R45). -/
def State.compatWeave (s : State) (i : Image) : Bool :=
  let h := i.body 0
  leAt h 0x0C 2 == 0x1288 && decide (leAt h 0x0E 1 ≤ 2) && decide (2 ≤ leAt h 0x0F 1) &&
    [1, 2, 3, 4].all fun c => inPair h (0x20 + 8 * (c - 1)) (s.rd (F.FW_RUNc_VERSION c))

/-! ### Check 7 -/

/-- Splint k may name a register of a class at an offset (R50, R148, R203, R223). -/
def splintNames (k cls off : Nat) : Bool :=
  match k with
  | 2 => [0, 4, 5, 6, 10].contains cls
  | 4 => (cls == 1 && !(decide (0x3200 ≤ off) && decide (off < 0x3240))) || (cls == 3 && decide (off < 0x80000))
  | 5 => cls == 3 && decide (0x80000 ≤ off)
  | 6 => (cls == 1 && decide (0x3200 ≤ off) && decide (off < 0x3240)) || cls == 7
  | 7 => cls == 2
  | 8 => cls == 9
  | 9 => cls == 8
  | _ => false

/-- One preset against its register (R49). -/
def presetGood (r : RawPreset) : Bool :=
  r.kind == 0 && r.res == 0 && splintNames r.splint r.cls r.off &&
  match (if r.off % 4 = 0 && decide (r.off < 0x100000) then regAt r.cls r.off else none) with
  | none => false
  | some (f, _) =>
    let keep := f.fields.filter FieldSpec.keeps
    !keep.isEmpty && keep.all (fun x => x.accepts (x.of r.value)) &&
      r.value &&& (0xFFFFFFFF ^^^ maskOf FieldSpec.keeps f.fields) == 0 &&
      r.opn &&& (0xFFFFFFFF ^^^ maskOf (fun x => x.acc == .rwl) f.fields) == 0

/-- VALUE of the preset that names a register. -/
def Image.valueOf (i : Image) (cls off : Nat) : Option Nat :=
  (i.presets.find? fun r => r.val.kind == 0 && r.val.cls == cls && r.val.off == off).map fun r => r.val.value

/-- VALUE of a preset, or the register's reset value. -/
def Image.valueOr (i : Image) (cls off : Nat) : Nat := (i.valueOf cls off).getD (regReset (keyOf cls off)).toNat

/-- One management source record (R51), its number given. -/
def sourceGood (n : Nat) (r : RawPreset) : Bool :=
  decide (n < 32) && decide (r.value < 32) && r.opn == 0 && r.res == 0 &&
    (decide (r.cls ≤ 15) && (decide (r.off ≤ 4095) || r.off == 0xFFFF) || (r.cls == 255 && r.off == 0))

/-- Lanes of a weaver from the PINS records: lane, role. -/
def Image.rolesOf (i : Image) (n : Nat) : List (Nat × Nat) := (i.pins.filter fun p => p.val.1.weaver == n).map fun p => (p.val.1.lane, p.val.1.role)

/-- Presets of weavers: lanes agree with PINS (R280), words are formed, allowed and fit (R294, R295). -/
def Image.weaverGood (i : Image) (r : RawPreset) : Bool :=
  if r.cls != 4 || decide (0x20000 ≤ r.off) then true
  else
    let n := r.off / 0x400
    let o := r.off % 0x400
    if decide (0x40 ≤ o) && decide (o < 0x60) then
      match i.pins.find? fun p => p.val.1.weaver == n && p.val.1.lane == (o - 0x40) / 4 with
      | some p => 
        let p := p.val.1
        r.value % 2 ^ 15 == p.laneValue || ((p.role == 1 || p.role == 5) && r.value % 2 ^ 15 == { p with drive := p.drive + 1 }.laneValue)
      | none => r.value % 2 ^ 15 == 7 * 2 ^ 8
    else if decide (0x100 ≤ o) && decide (o < 0x200) then
      !malformed r.value && wordFits (i.rolesOf n) r.value &&
        wordSources r.value &&& (7 ^^^ ((i.valueOf 4 (n * 0x400 + 0x10)).getD 0 % 8)) == 0
    else true

/-- Presets of CAN FD controllers (R299, R300). -/
def Image.canGood (i : Image) (r : RawPreset) : Bool :=
  if r.cls != 5 then true
  else
    let b := r.off / 0x8000 * 0x8000
    let nbt := i.valueOr 5 (b + 4)
    match r.off % 0x8000 with
    | 0 => bitsOf r.value 5 1 == 0 || tripleOk nbt
    | 4 => nbtOk r.value && dbtOk r.value (i.valueOr 5 (b + 8)) && (bitsOf (i.valueOr 5 b) 5 1 == 0 || tripleOk r.value)
    | 8 => dbtOk nbt r.value
    | _ => true

/-- A preset curve as the load would commit it satisfies R366 (R350). -/
def State.curveGood (s : State) (i : Image) (r : RawPreset) : Bool :=
  if r.cls = 9 && decide (0x100 ≤ r.off) && decide (r.off < 0x300) && decide (0x20 ≤ r.off % 0x40) then
    let b := r.off / 0x40 * 0x40
    let v (o : Nat) : Nat := (i.valueOf 9 (b + o)).getD (s.reg (keyOf 9 (b + o))).toNat
    curveValid ((List.range 8).map fun k => (bitsOf (v (0x20 + 4 * k)) 0 16, bitsOf (v (0x20 + 4 * k)) 16 12, bitsOf (v (0x20 + 4 * k)) 28 4))
      (bitsOf (v 8) 0 16) (bitsOf (v 0xC) 0 16)
  else true

/-- The least offset among faults (R63). -/
def leastFault : List (Nat × Nat) → Option (Nat × Nat)
  | [] => none
  | f :: fs =>
    match leastFault fs with
    | none => some f
    | some g => some (if f.1 ≤ g.1 then f else g)

/-- Records of one splint that fail a test, as (offset, splint). -/
def faultsIn {α : Type} (k : Nat) (rs : List (Located α)) (good : α → Bool) : List (Nat × Nat) :=
  (rs.filter fun r => !good r.val).map fun r => (r.at', k)

/-- Reserved bytes, padding and NAME (R43 to R46, R56). -/
def Image.reservedFaults (i : Image) : List (Nat × Nat) :=
  let zero (k off n : Nat) : List (Nat × Nat) := if leAt i.raw off n = 0 then [] else [(off, k)]
  let h := (i.sp! 0).pos + 16
  let name := slice i.raw (h + 0x40) 16
  ((List.range 12).flatMap fun k =>
    let p := i.sp! k
    zero k (p.pos + 10) 2 ++ zero k (p.pos + 16 + p.len) (padOf p.len)
      ++ (if (recordSize k).isSome then zero k (p.pos + 20) 4 else [])) ++
  zero 0 (h + 6) 2 ++ zero 0 (h + 0x1C) 4 ++
  (if name.all (fun b => decide (b.toNat < 128)) && (name.dropWhile fun b => b != 0).all (· == 0) then [] else [(h + 0x40, 0)]) ++
  (if decide (leAt i.raw ((i.sp! 11).pos + 16) 1 ≤ 3) then [] else [((i.sp! 11).pos + 16, 11)]) ++ zero 11 ((i.sp! 11).pos + 17) 3

/-- Records after one with the same key. -/
def repeats {α β : Type} [DecidableEq β] (key : α → β) : List (Located α) → List β → List (Located α)
  | [], _ => []
  | r :: rs, seen => if key r.val ∈ seen then r :: repeats key rs seen else repeats key rs (key r.val :: seen)

/-- Check 7: the failing item, if any. -/
def State.fieldFault (s : State) (i : Image) : Option (Nat × Nat) :=
  let presets := i.presets.filter fun r => !Image.isSource r.val
  let sources := i.presets.filter fun r => Image.isSource r.val
  let weavers := (i.pins.map fun p => p.val.1.weaver).eraseDups
  leastFault (i.reservedFaults ++
    faultsIn 1 i.pins (fun p => decide (p.1.weaver ≤ 127) && decide (p.1.role ≤ 5) && decide (p.1.lane ≤ 7) &&
      (decide (p.1.drive ≤ 1) || p.1.role == 1 || p.1.role == 5) &&
      decide (p.1.park ≤ 3) && decide (p.1.reach ≤ 1) && p.2 == 0) ++
    ((repeats (fun (p : PinRec × Nat) => (p.1.weaver, p.1.lane)) i.pins []).map fun r => (r.at', 1)) ++
    (weavers.flatMap fun n =>
      let rs := i.pins.filter fun p => p.val.1.weaver == n
      if lanesOk n (rs.map fun p => (p.val.1.lane, p.val.1.pin, p.val.1.reach)) then [] else (rs.take 1).map fun r => (r.at', 1)) ++
    faultsIn 3 i.pool (fun p => decide (p.1.region ≤ 7) && decide (p.1.flags ≤ 1) && p.2 == 0 && decide (1 ≤ p.1.cells) &&
      decide (p.1.first + p.1.cells ≤ 49152) &&
      (match p.1.region with | 0 => true | 4 => decide (p.1.owner ≤ 7) | _ => p.1.owner == 0)) ++
    faultsIn 10 i.claims (fun c =>
      let lim := match c.resource with | 1 => 256 | 2 => 32 | 3 => 4 | 4 => 2 | 5 => 49152 | 6 => 8 | 7 => 8 | _ => 0
      decide (c.mode ≤ 1) && decide (1 ≤ c.count) && decide (c.first + c.count ≤ lim)) ++
    ((sources.zip (List.range sources.length)).filter (fun x => !sourceGood x.2 x.1.val)).map (fun x => (x.1.at', 6)) ++
    (presets.filter fun r => !(presetGood r.val && i.weaverGood r.val && i.canGood r.val && s.curveGood i r.val)).map
      (fun r => (r.at', r.val.splint)) ++
    (repeats (fun (r : RawPreset) => (r.cls, r.off)) presets []).map fun r => (r.at', r.val.splint))

/-! ### Check 8 (R59 to R62, R493) -/

/-- A claim covers an index of a resource. -/
def ClaimRec.covers (c : ClaimRec) (res idx : Nat) : Bool := c.resource == res && decide (c.first ≤ idx) && decide (idx < c.first + c.count)

/-- Two claims share an index: the lowest. -/
def ClaimRec.meets (a b : ClaimRec) : Option Nat :=
  if a.resource = b.resource && decide (a.first < b.first + b.count) && decide (b.first < a.first + a.count) then some (max a.first b.first) else none

/-- The owner of an index: the first own claim; 0xFF, 0xFF where there is none. -/
def Image.owner (i : Image) (res idx : Nat) : Nat × Nat :=
  match i.claims.find? fun c => c.val.mode == 0 && c.val.covers res idx with
  | some c => (c.val.oclass, c.val.oindex)
  | none => (255, 255)

/-- A unit's own claim, or its listen claim where that serves, covers an index. -/
def Image.backed (i : Image) (res idx : Nat) (who : Nat × Nat) (listen : Bool) : Bool :=
  i.claims.any fun c => (c.val.mode == 0 || listen) && (c.val.oclass, c.val.oindex) == who && c.val.covers res idx

/-- A failure of check 8. -/
def claimErr (splint off res idx : Nat) (own1 own2 : Nat × Nat) : LoadErr :=
  { code := 7, splint := some splint, off := off, res := (res, idx), own1 := own1, own2 := own2 }

/-- Faults of claim records against the ones before them. R63 gives WE_ERROWN for two own claims and for an unbacked record; for a listen
claim on another resource than a pin, and for an own and a listen claim of one unit on one pin, it gives none: the model names no owner
(0xFF, 0xFF) and the claimant in the first case, the unit twice in the second (assumption 11). -/
def claimFaults : List (Located ClaimRec) → List (Located ClaimRec) → List LoadErr
  | [], _ => []
  | c :: cs, before =>
    let who := (c.val.oclass, c.val.oindex)
    let here :=
      (if c.val.mode = 1 && c.val.resource != 1 then [claimErr 10 c.at' c.val.resource c.val.first (255, 255) who] else []) ++
      before.flatMap fun b =>
        match b.val.meets c.val with
        | none => []
        | some idx =>
          let w := (b.val.oclass, b.val.oindex)
          if (b.val.mode = 0 && c.val.mode = 0) || (b.val.mode != c.val.mode && w == who) then [claimErr 10 c.at' c.val.resource idx w who] else []
    here ++ claimFaults cs (before ++ [c])

/-- The unit that holds a region's cells (R493). -/
def regionUnit (region owner : Nat) : Nat × Nat :=
  match region with
  | 0 => (3, owner)
  | 1 => (1, 0)
  | 2 => (1, 1)
  | 3 => (4, 0)
  | 4 => (5, owner)
  | 5 => (8, 0)
  | 6 => (11, 0)
  | _ => (0, 0)

/-- The first cell from one on, below an end, that a unit holds no own claim on; the number of steps bounds the search. -/
def Image.uncovered (i : Image) (who : Nat × Nat) (hi : Nat) : Nat → Nat → Option Nat
  | 0, lo => if lo < hi then some lo else none
  | k + 1, lo =>
    if hi ≤ lo then none
    else match i.claims.find? fun c => c.val.mode == 0 && (c.val.oclass, c.val.oindex) == who && c.val.covers 5 lo with
      | some c => i.uncovered who hi k (c.val.first + c.val.count)
      | none => some lo

/-- What a preset makes a unit use: resource, index, class. A compare slot is used by a preset of its EVENT or SIGNAL. -/
def presetUses (r : RawPreset) : Option (Nat × Nat × Nat) :=
  if r.cls = 2 && decide (0x1000 ≤ r.off) && decide (r.off < 0x1200) && r.off % 0x10 = 0xC then
    if r.value / 4 % 4 = 0 then none else some (2, (r.off - 0x1000) / 0x10, 2)
  else if r.value % 2 = 0 then none
  else if r.cls = 2 && decide (0x2000 ≤ r.off) && decide (r.off < 0x2040) && r.off % 0x10 = 0 then some (3, (r.off - 0x2000) / 0x10, 2)
  else if r.cls = 2 && (r.off = 0x2100 || r.off = 0x2104) then some (4, (r.off - 0x2100) / 4, 2)
  else if r.cls = 9 && decide (0x100 ≤ r.off) && decide (r.off < 0x300) && r.off % 0x40 = 0 then some (6, (r.off - 0x100) / 0x40, 9)
  else if r.cls = 7 && decide (0x100 ≤ r.off) && decide (r.off < 0x180) && r.off % 0x10 = 0 then some (7, (r.off - 0x100) / 0x10, 7)
  else none

/-- Check 8: every fault. With SIGNAL the unit that a compare slot's own claim names acts (R244), so any own claim backs it; EVENT alone needs
that of the time unit (R493). -/
def Image.claimErrs (i : Image) : List LoadErr :=
  claimFaults i.claims [] ++
  (i.pins.flatMap fun p =>
    let r := p.val.1
    if i.backed 1 r.pin (4, r.weaver) (r.role == 1 || r.role == 5) then [] else [claimErr 1 p.at' 1 r.pin (i.owner 1 r.pin) (4, r.weaver)]) ++
  (i.pool.flatMap fun p =>
    let r := p.val.1
    let who := regionUnit r.region r.owner
    match i.uncovered who (r.first + r.cells) i.claims.length r.first with
    | some c => [claimErr 3 p.at' 5 c (i.owner 5 c) who]
    | none => []) ++
  ((i.presets.filter fun r => r.val.kind == 0).flatMap fun r =>
    match presetUses r.val with
    | none => []
    | some (res, idx, c) =>
      if i.backed res idx (c, 0) false || (res == 2 && bitsOf r.val.value 3 1 == 1 && i.owner 2 idx != (255, 255)) then []
      else [claimErr r.val.splint r.at' res idx (i.owner res idx) (c, 0)])

/-- The error at the least offset. -/
def leastErr : List LoadErr → Option LoadErr
  | [] => none
  | e :: es =>
    match leastErr es with
    | none => some e
    | some g => some (if e.off ≤ g.off then e else g)

/-! ### Check 9 (R54, R184, R266, R311) -/

/-- Records that overlap an earlier one. -/
def poolOverlaps : List (Located (PoolRec × Nat)) → List (Located (PoolRec × Nat)) → List (Nat × Nat)
  | [], _ => []
  | p :: ps, before =>
    (if before.any (fun b => decide (b.val.1.first < p.val.1.first + p.val.1.cells) && decide (p.val.1.first < b.val.1.first + b.val.1.cells))
      then [(p.at', 3)] else []) ++ poolOverlaps ps (before ++ [p])

/-- A preset of CFk_MODE with INIT = 0 enables the controller (R303). -/
def Image.canOn (i : Image) (k : Nat) : Bool :=
  match i.valueOf 5 (0x8000 * k) with
  | some v => v % 2 == 0
  | none => false

/-- Check 9: the failing item, if any. -/
def Image.poolFault (i : Image) : Option (Nat × Nat) :=
  let held (g o : Nat) : Nat := carveCells (i.pool.map (·.val.1)) g o
  let backlog := ((i.presets.filter fun r => r.val.kind == 0 && r.val.cls == 4 && decide (r.val.off < 0x20000) && r.val.off % 0x400 == 0x64).map
    fun r => r.val.value % 2048).sum
  let edges := (List.range 16).filter fun e => match i.valueOf 3 (0x4000 + 0x40 * (e + 3)) with | some v => v % 2 == 1 | none => false
  let low := held 1 0 != 256 || held 2 0 != 256 || decide (held 5 0 < 256) || decide (held 6 0 < 128) || decide (held 7 0 < 6144) ||
    decide (held 3 0 < 64 + (backlog * 8 + 255) / 256) ||
    ([0, 1, 2, 19, 20, 21, 22, 23, 24, 25, 26].any fun n => decide (held 0 n < 9)) || (edges.any fun e => decide (held 0 (e + 3) < 36)) ||
    (List.range 8).any fun k => i.canOn k && decide (held 4 k < 20)
  leastFault (poolOverlaps i.pool [] ++
    faultsIn 3 i.pool (fun p => p.1.region != 0 || decide (p.1.owner ≤ 26) || p.1.owner == 255) ++
    if low then [((i.sp! 3).pos, 3)] else [])

/-! ### Check 10 (R67) -/

/-- The records of the transit regions. -/
def transitRecs (ps : List PoolRec) : List PoolRec := ps.filter fun p => p.region == 1 || p.region == 2

/-- The transit carve of the bare hub (R67). -/
def bareTransit : List PoolRec :=
  [{ region := 1, owner := 0, flags := 0, first := 0, cells := 256 }, { region := 2, owner := 0, flags := 0, first := 256, cells := 256 }]

/-- Check 10: a changed transit record, or a changed ROOT or RINGNUM. Where what changed is a record or a preset that the image lacks, no item
of the image fails: the model then names the end of the POOL body, and the PORT splint header (assumption 11). -/
def State.liveFault (s : State) (i : Image) : Option (Nat × Nat) :=
  let now := match s.weave with | some w => transitRecs w.pool | none => bareTransit
  let pools := if transitRecs (i.pool.map (·.val.1)) = now then []
    else ((i.pool.filter fun p => (p.val.1.region == 1 || p.val.1.region == 2) && !now.contains p.val.1).map fun p => (p.at', 3))
      ++ [((i.sp! 3).pos + 16 + (i.sp! 3).len, 3)]
  let role := i.valueOr 1 0x3118
  let old := match s.weave with
    | some w => ((w.presets.find? fun p => p.cls == 1 && p.off == 0x3118).map (·.value)).getD (regReset (keyOf 1 0x3118)).toNat
    | none => (regReset (keyOf 1 0x3118)).toNat
  let pick (v : Nat) (f : Fld) : Nat := bitsOf v f.lo f.width
  let same := pick role F.RG_ROLE_ROOT == pick old F.RG_ROLE_ROOT && pick role F.RG_ROLE_RINGNUM == pick old F.RG_ROLE_RINGNUM
  leastFault (pools ++ if same then [] else
    match i.presets.find? fun r => r.val.kind == 0 && r.val.cls == 1 && r.val.off == 0x3118 with
    | some r => [(r.at', 4)]
    | none => [((i.sp! 4).pos, 4)])

/-! ### All checks -/

/-- Checks 2 to 5: form, CRCs, key, signature (R459 names them too). -/
def State.imageForm (s : State) (flash : List Byte) : Sum LoadErr Image :=
  match parseImage flash with
  | .inl e => .inl e
  | .inr i =>
    match i.crcBad with
    | some e => .inl e
    | none =>
      if !s.keyGood (i.body 11) then .inl (errOf 5)
      else if !signGood i.signed (i.body 11) then .inl (errOf 4)
      else .inr i

/-- Checks 2 to 9, and 10 for a load into a running hub. -/
def State.verifyImage (s : State) (flash : List Byte) (live : Bool) : Sum LoadErr Image :=
  match s.imageForm flash with
  | .inl e => .inl e
  | .inr i =>
    if !s.compatWeave i then .inl (errOf 6)
    else match s.fieldFault i with
      | some (off, k) => .inl (errAt 2 k off)
      | none =>
        match leastErr i.claimErrs with
        | some e => .inl e
        | none =>
          match i.poolFault with
          | some (off, k) => .inl (errAt 8 k off)
          | none =>
            match (if live then s.liveFault i else none) with
            | some (off, k) => .inl (errAt 9 k off)
            | none => .inr i

/-- Splints whose bodies differ from those of the running image; every one where none runs (R64). -/
def State.changedSplints (s : State) (i : Image) : List Nat :=
  match s.weave with
  | none => List.range 12
  | some w =>
    match parseImage w.bytes with
    | .inl _ => List.range 12
    | .inr o => (List.range 12).filter fun k => i.body k != o.body k

end Sys2Proof.Machine
end

