-- ==== Sys2Proof/Machine/Loader.lean ====
section
/-! DEFINITION. The weave loader: boot load, live load, the switch (R63 to R72, R350). -/

namespace Sys2Proof.Machine

/-! ### What a load reports (R63, R72) -/

/-- Step 1 of every load clears what the last failure named. -/
def State.errClear (s : State) : State :=
  (((s.wr F.WE_ERRSPL_ID 0).wr F.WE_ERROFF_OFFSET 0).setReg F.WE_ERRRES_KIND.key 0).setReg F.WE_ERROWN_INDEX1.key 0

/-- The failure that ends a load. -/
def State.failShow (s : State) (e : LoadErr) : State :=
  let s := s.wr F.WE_ERRSPL_ID (match e.splint with | some k => splintIds.getD k 0 | none => 0)
  let s := s.wr F.WE_ERROFF_OFFSET e.off
  let s := (s.wr F.WE_ERRRES_KIND e.res.1).wr F.WE_ERRRES_INDEX e.res.2
  let s := (s.wr F.WE_ERROWN_CLASS1 e.own1.1).wr F.WE_ERROWN_INDEX1 e.own1.2
  (s.wr F.WE_ERROWN_CLASS2 e.own2.1).wr F.WE_ERROWN_INDEX2 e.own2.2

/-- What the registers show of an image put in force, from slot 0 (A) or 1 (B). Boot flash marks its slot current (R71, R461). -/
def State.inForce (s : State) (i : Image) (slot : Nat) : State :=
  let s := ((s.wr F.WE_STATUS_CODE 1).wr F.WE_STATUS_BARE 0).wr F.WE_STATUS_SLOT slot
  let s := (s.wr F.WE_STATUS_STAGE 0).wr F.WE_IMGVER_IMGVER (leAt i.raw 0x18 4)
  let s := (s.wr F.WE_IMGID_ID (crc32c i.signed).toNat).bump F.WE_LOADS_COUNT
  let s := s.wr F.WE_KEYSLOT_SLOT (leAt (i.body 11) 0 1)
  { s with fw := { s.fw with curWeave := slot } }

/-! ### Presets (R49, R68, R350) -/

/-- The registers named take the values of the running image in their RW and RWL bits. -/
def State.applyKeys (s : State) : List Nat → State
  | [] => s
  | k :: ks => State.applyKeys (s.setReg k (BitVec.ofNat 32 (withKept k (s.reg k).toNat (s.imageReset k)))) ks

/-- A branch's preset curve is committed; its ON is the preset's at the first load after AON power-on, and as it was later (R350). `ons`:
the ON fields before the load. -/
def State.powerPresets (s : State) (ons : List Nat) (curves : List Nat) : List Nat → State
  | [] => { s with pow := { s.pow with loaded := true } }
  | b :: bs =>
    let s := if curves.contains b then s.curveCommit b else s
    let s := if s.pow.loaded then s.wr (F.PW_Bb_CTL_ON b) (ons.getD b 0)
      else if s.on (F.PW_Bb_CTL_ON b) then s.branchWritten b true else s
    State.powerPresets s ons curves bs

/-- Branches for which an image presets a point of a curve. -/
def curveBranches (w : Weave) : List Nat :=
  (List.range 8).filter fun b => w.presets.any fun p =>
    p.cls == 9 && decide (0x120 + 0x40 * b ≤ p.off) && decide (p.off < 0x140 + 0x40 * b)

/-- ON fields of the branches. -/
def State.onFields (s : State) : List Nat := (List.range 8).map fun b => s.rd (F.PW_Bb_CTL_ON b)

/-- A preset of NC_MODE.SPEED starts a change as a write does (R396). -/
def State.speedPreset (s : State) : State :=
  if s.rd F.NC_MODE_SPEED = s.rd F.NC_SPSTAT_TGT then s else s.speedWritten

/-! ### The boot load (R69, R70) -/

/-- A CAN FD controller that the image enables starts bus integration (R303). -/
def State.canStart (s : State) (k : Nat) : State := if s.canEnabled k then s.canJoin k else s

/-- S follows ENABLE. -/
def State.svcStart (s : State) : State := if s.on F.US_SCTL_ENABLE then s.usbAttach else s.usbDetach

/-- Units start under the values in force: the links, the CAN FD controllers that the image enables, the field ports, S. -/
def State.unitsStart (s : State) : State :=
  (((s.eachUnit (State.linkEnable · false) [0, 1, 2]).eachUnit State.canStart (List.range 8)).eachUnit State.fieldCtl [0, 1, 2, 3]).svcStart

/-- Weavers with a lane in use take their parked levels (R259). -/
def State.parkAll (s : State) : State :=
  match s.weave with
  | none => s
  | some w => s.eachUnit (fun s n => s.wvPark n s.clock.tick) (w.pins.map (·.weaver)).eraseDups

/-- After a boot load list 0 is to become active at each output whose preset GLEN is not 0 (R218). -/
def State.listsDue (s : State) : State :=
  s.eachUnit (fun s n => s.setOut n { s.outOf n with bootList := s.rd (F.SW_GLENn_l_LEN n 0) != 0 }) ((List.range 17).map (· + 2))

/-- The image comes into force at a boot load, no unit started yet. -/
def State.bootForce (s : State) (i : Image) (slot : Nat) : State :=
  let ons := s.onFields
  let s := { s with weave := some i.weave }
  let s := (s.applyKeys s.imageKeys).powerPresets ons (curveBranches i.weave) (List.range 8)
  let s := ((s.inForce i slot).rootTake).speedPreset
  s.listsDue.parkAll.eqAfter

/-- What hangs on registers that a checkpoint has restored: the root role, the speed mode, the event routes. -/
def State.restoredTake (s : State) : State := s.rootTake.speedPreset.eqAfter

/-- The register checkpoint that a cold start restores with RESUME = 1 (R404): one that the running firmware and weave match (R418). -/
def State.resumable (s : State) : Option (CkPart × Option CkPart) :=
  if s.on F.MT_CFG_RESUME && s.owner && s.mt.taking.isNone then
    match s.ckBest with
    | some (f, d) =>
      let last := d.getD f
      let mfw := Tbl.get [] 1 s.fw.running
      if restores mfw f.format && restores mfw last.format && s.rd F.WE_IMGID_ID == last.imgid then some (f, d) else none
    | none => none
  else none

/-- The image comes into force at a boot load; the first since AON power-on is a cold start's. -/
def State.bootTake (s : State) (i : Image) (slot : Nat) : State :=
  let cold := !s.pow.loaded
  let s := s.bootForce i slot
  match (if cold then s.resumable else none) with
  | some (f, d) => ((s.ckRestore f d).restoredTake.unitsStart).ckWeavers f d
  | none => s.unitsStart.autoDue

/-- The hub runs bare: every branch off (R69). -/
def State.bareForce (s : State) (code : Nat) : State :=
  let s := (s.wr F.WE_STATUS_BARE 1).wr F.WE_STATUS_CODE code
  s.eachUnit (fun s b => if s.branch b = 0 && !s.on (F.PW_Bb_CTL_ON b) then s else (s.wr (F.PW_Bb_CTL_ON b) 0).branchWritten b false)
    (List.range 8)

/-- The hub runs bare, its links started. -/
def State.bareTake (s : State) (code : Nat) : State := (s.bareForce code).unitsStart

/-- One slot of boot flash: read, and checks 1 to 9. -/
def State.loadSlot (s : State) (slot : Nat) (readErr : Bool) : Sum LoadErr Image :=
  if readErr then .inl (errOf 12) else s.verifyImage (Tbl.get [] (5 + slot) s.fw.slots) false

/-- What ends every boot load: the mark of an abandoned load is shown and cleared, the entry is made, an owner after a cold start asserts ROLE
(R70, R403, R439). -/
def State.bootEnd (s : State) (slot result : Nat) : State :=
  let ab := b2n s.sup.loadMark
  let s := { s.wr F.WE_STATUS_ABORTED ab with sup := { s.sup with loadMark := false } }
  let s := s.tallyInternal .mc0 0x8009 result false 0 (slot + 2 * ab)
  if s.owner && s.mt.taking.isNone && !s.isActive then (s.wr F.MT_STAT_ROLE 1).wr F.PW_OWN_OWNER 1 else s

/-- A boot load is due: firmware runs, and no load has ended since the core started. A takeover makes its own (R417). -/
def State.bootDue (s : State) : Bool := s.mt.taking.isNone && s.sup.mcUp && !s.on F.FW_STAT_RECOVERY && s.rd F.WE_STATUS_CODE == 0

/-- The boot load: the current weave slot, then the other, then bare. -/
def State.bootLoad (s : State) (errA errB : Bool) : State :=
  let a := s.fw.curWeave
  let s := s.errClear
  match s.loadSlot a (if a = 0 then errA else errB) with
  | .inr i => (s.bootTake i a).bootEnd a 0
  | .inl _ =>
    match s.loadSlot (1 - a) (if a = 0 then errB else errA) with
    | .inr i => (s.bootTake i (1 - a)).bootEnd (1 - a) 0
    | .inl e => ((s.failShow e).bareTake e.code).bootEnd (1 - a) (0x100 + e.code)

/-! ### A load into the running hub (R64 to R68) -/

/-- A load ends: idle, the mark cleared, the command's result known. -/
def State.loadEnd (s : State) (result : Nat) : State :=
  { s.wr F.WE_STATUS_STAGE 0 with
    sup := { s.sup with loadMark := false }, we := { s.we with live := none }, mg := { s.mg with longRes := some result } }

/-- A check fails: nothing of the running image changes; code LIVE marks the new slot current for the next boot load (R67, R71). -/
def State.loadFail (s : State) (slot : Nat) (e : LoadErr) : State :=
  let s := (s.failShow e).wr F.WE_STATUS_CODE e.code
  let s := if e.code = 9 then { s with fw := { s.fw with curWeave := slot } } else s
  s.loadEnd (0x100 + e.code)

/-- Step 1 of R64. ABORTED clears here: an ACTIVATE of the weave that ends before its load starts, as R461 lets one end, leaves it (the
model's reading of "the next ACTIVATE of the weave" in R70, assumption 11). -/
def State.loadStart (s : State) (image : List Byte) (slot : Nat) : State :=
  let s := ({ s with sup := { s.sup with loadMark := true } }.wr F.WE_STATUS_ABORTED 0).errClear
  { s.wr F.WE_STATUS_STAGE 1 with we := { live := some { image := image, slot := slot }, quietLost := false } }

/-- The loader goes on: from verify by the checks of steps 2 to 5 to stage, from stage to the quiet-point race. -/
def State.loadOn (s : State) : State :=
  match s.we.live with
  | none => s
  | some l =>
    if s.rd F.WE_STATUS_STAGE = 1 then
      match s.verifyImage l.image true with
      | .inl e => s.loadFail l.slot e
      | .inr _ => s.wr F.WE_STATUS_STAGE 2
    else s.wr F.WE_STATUS_STAGE 3

/-- Regions of the pool whose records differ: (region, owner). -/
def changedRegions (old new : List PoolRec) : List (Nat × Nat) :=
  ((old.filter fun r => !new.contains r) ++ (new.filter fun r => !old.contains r)).map (fun r => (r.region, r.owner)) |>.eraseDups

/-- The outputs that hold cells of region 0: the one that owns them, or all for shared cells. -/
def regionOuts (owner : Nat) : List Nat := if owner = 255 then List.range 27 else [owner]

/-- An output restarts: U and an edge port as units; the queues of a ring port, which forwards on, and of an internal output are emptied. -/
def State.outRestart (s : State) (n : Nat) : State :=
  if n = 2 then s.uplinkUnitReset else if isEdge n then s.outUnitReset n else s.flushOut n

/-- The tally region restarts: entries on chip go; those not yet in the store are lost. -/
def State.tallyRestart (s : State) : State :=
  { s.bumpBy F.TL_LOST_COUNT s.mg.toStore.length with mg := { s.mg with tally := [], toStore := [] } }

/-- A unit that owns a changed region restarts, its queued data discarded and counted (R67). Which counter takes them at a ring port, an
internal output, a CAN FD controller and the tally the spec does not say: SW_FLUSHn, CFk_RXOVR and TL_LOST here; of region 7, the frame under
way to an edge port, the image staying (assumption 11). -/
def State.regionRestart (s : State) (r : Nat × Nat) : State :=
  match r with
  | (0, n) => s.eachUnit State.outRestart (regionOuts n)
  | (3, _) => s.eachUnit (fun s n =>
      let w := s.wvr n
      if w.back.isEmpty then s else (s.bumpBy (F.WVn_TXDROP_COUNT n) w.back.length).setWv n { w with back := [] }) (List.range 128)
  | (4, k) => ((s.canUnitReset k).bumpBy (F.CFk_RXOVR_COUNT k) (s.rd (F.CFk_RXSTAT_OWNED k))).canStart k
  | (5, _) => State.eqAfter { s.bumpBy F.EQ_LOST_COUNT s.eq.entries.length with eq := { s.eq with entries := [] } }
  | (6, _) => s.tallyRestart
  | (7, _) => { s with mg := { s.mg with ftx := [], fetchBuf := [] } }
  | _ => s

/-- Keys of the gate list registers of output n. -/
def listKeys (n l : Nat) : List Nat :=
  (F.SW_GLENn_l_LEN n l).key :: (List.range 256).flatMap fun e => [(F.SW_GSn_l_e_STATE n l e).key, (F.SW_GIn_l_e_INTERVAL n l e).key]

/-- Registers take the values the image gives others. -/
def State.copyImage (s : State) : List (Nat × Nat) → State
  | [] => s
  | (k, from') :: ks => State.copyImage (s.setReg k (BitVec.ofNat 32 (s.imageReset from'))) ks

/-- A live load that changes SCHD at output n (R218): an armed swap is disarmed, the new list, list 0 of the image, goes into the list not
active, and takes over as a swap at this instant; with its GLEN 0 no list is active. The list it replaces then takes its own presets. -/
def State.gateTake (s : State) (n : Nat) : State :=
  let s := if (s.outOf n).armed.isSome then s.gateUnarm n else s
  let was := (s.outOf n).active
  let l := if was = some 0 then 1 else 0
  let s := s.copyImage ((listKeys n l).zip (listKeys n 0))
  let s := if s.rd (F.SW_GLENn_l_LEN n l) = 0 then (if was.isSome then s.gateActivate n none s.clock.site else s)
    else (s.wr (F.SW_GSTATn_SWAPOUT n) 2).gateActivate n (some l) s.clock.site
  s.toImage (listKeys n (1 - l))

/-- Registers that splint k names, in the old image and in the new (R68). -/
def splintKeys (old : Option Weave) (new : Weave) (k : Nat) : List Nat :=
  let keys (w : Weave) : List Nat := (w.presets.filter fun p => p.splint == k).map fun p => keyOf p.cls p.off
  ((match old with | some w => keys w | none => []) ++ keys new).eraseDups

/-- Weavers, with their presets from the new image (R67). -/
def State.weaversRestart (s : State) : State := s.eachUnit State.weaverUnitReset (List.range 128)

/-- A key is one of a gate list. -/
def isListKey (k : Nat) : Bool :=
  decide (0x380000 ≤ k) && decide (k < 0x400000) && (k % 0x4000 == 0x10 || k % 0x4000 == 0x14 || decide (0x1000 ≤ k % 0x4000))

/-- Regions whose owners restart under a new image: (region, owner). -/
def State.newRegions (s : State) (old : Option Weave) (new : Weave) : List (Nat × Nat) :=
  changedRegions (match old with | some w => w.pool | none => State.carve { s with weave := none }) new.pool

/-- A unit that splint k restarts is still transmitting a frame, a cell or a CAN FD frame (R65). -/
def State.stillSends (s : State) (new : Weave) (k : Nat) : Bool :=
  let out (n : Nat) : Bool := decide (2 ≤ n) && (s.outOf n).sending.isSome
  match k with
  | 2 => (List.range 8).any fun c => (s.canOf c).inFrame
  | 3 => (s.newRegions s.weave new).any fun r =>
      match r with
      | (0, n) => (regionOuts n).any out
      | (4, c) => (s.canOf c).inFrame
      | _ => false
  | 4 => (List.range 17).any fun n => out (n + 2)
  | _ => false

/-- The quiet point is reached (R65). Accesses to the hub's own units begin and end within one command here, so none is between acceptance
and response. -/
def State.quiet (s : State) (i : Image) : Bool := !(s.changedSplints i).any (s.stillSends i.weave)

/-- The effect of one changed splint at step 8 (R67). -/
def State.splintEffect (s : State) (old : Option Weave) (new : Weave) (k : Nat) : State :=
  let keys := splintKeys old new k
  match k with
  | 1 => s.weaversRestart
  | 2 =>
    let s := (s.applyKeys keys).weaversRestart.speedPreset
    let s := (s.eachUnit State.canUnitReset (List.range 8)).eachUnit State.canStart (List.range 8)
    (s.fieldUnitReset.eachUnit State.fieldCtl [0, 1, 2, 3]).svcStart
  | 3 => (s.newRegions old new).foldl State.regionRestart s
  | 4 =>
    let was := [0, 1].filter fun p => s.on (F.RGp_CTL_ENABLE p)
    let s := ((s.applyKeys keys).eachUnit State.edgeUnitReset (List.range 16)).uplinkUnitReset
    s.eachUnit (fun s p => s.linkEnable (was.contains p) p) [0, 1]
  | 5 => (s.applyKeys (keys.filter (!isListKey ·))).eachUnit State.gateTake ((List.range 17).map (· + 2))
  | 6 => s.bridgeUnitReset.applyKeys keys
  | 7 => s.timeUnitReset.applyKeys keys
  | 8 => s.applyKeys keys
  | 9 => (s.applyKeys keys).eqAfter
  | _ => s

/-- Step 8: changed units stopped, claims and presets swapped; the restarted units run (R64, R67). STAGE is switch until it ends, and no access
is served meanwhile. -/
def State.switchTo (s : State) (i : Image) (slot : Nat) : State :=
  let s := s.wr F.WE_STATUS_STAGE 4
  let ch := s.changedSplints i
  let old := s.weave
  let ons := s.onFields
  let new := i.weave
  let s := { s with weave := some new }
  let s := ch.foldl (fun s k => s.splintEffect old new k) s
  let s := if ch.contains 8 then s.powerPresets ons (curveBranches new) (List.range 8) else { s with pow := { s.pow with loaded := true } }
  let s := s.inForce i slot
  if ch.contains 1 || ch.contains 2 then s.autoDue else s

/-- QUIET_POINT_REACHED: it wins, and step 8 takes place; after the timeout it is late (R66). While a unit to be restarted still transmits it is
not reached. -/
def execQuietPointReached (s : State) : Host.Outcome State Fault Refusal :=
  let s := s.loadOn.loadOn
  .next (match s.we.live with
    | some l =>
      (match parseImage l.image with
        | .inr i => if s.quiet i then (((s.wr F.WE_QSTAT_OUTCOME 1).switchTo i l.slot).loadEnd 0) else s
        | .inl e => s.loadFail l.slot e)
    | none =>
      if s.we.quietLost then { s.bump F.WE_LATE_COUNT with we := { s.we with quietLost := false } } else s)

/-- QUIET_TIMEOUT: the load is abandoned with CODE QUIET. -/
def execQuietTimeout (s : State) : Host.Outcome State Fault Refusal :=
  let s := s.loadOn.loadOn
  .next (match s.we.live with
    | some _ =>
      let s := ((s.wr F.WE_QSTAT_OUTCOME 2).wr F.WE_STATUS_CODE 10).loadEnd 0x10A
      { s with we := { s.we with quietLost := true } }
    | none => s)

end Sys2Proof.Machine
end

