-- ==== Sys2Proof/Machine/Firmware.lean ====
section
/-! DEFINITION. Components, staging, verification, activation (R451 to R466). -/

namespace Sys2Proof.Machine

/-! ### Images (R451, R454, R455) -/

/-- Largest image of a component. -/
def largest (c : Nat) : Nat := if c = 1 then 2 ^ 22 else 2 ^ 20

/-- Boot flash slot of a component: the current one, for MFW and the weave; `other`: the one not current. -/
def State.flashSlot (s : State) (c : Nat) (other : Bool) : Nat :=
  let pick (cur : Nat) : Nat := if other then 1 - cur else cur
  match c with
  | 1 => pick s.fw.curMfw
  | 5 => 5 + pick s.fw.curWeave
  | n => n

/-- Every byte of a range is zero. -/
def zeros (bs : List Byte) (off n : Nat) : Bool := (slice bs off n).all (· == 0)

/-- FW_ERR.CODE of an image that R455 does not accept: 1 FORMAT, 4 KEY, 3 SIGN; for the weave, checks 2 to 5 of R63 (R459). -/
def State.imageError (s : State) (c : Nat) (img : List Byte) : Option Nat :=
  if c = 5 then
    match s.imageForm img with
    | .inr _ => none
    | .inl e => some (match e.code with | 3 => 2 | 4 => 3 | 5 => 4 | _ => 1)
  else
    let total := leAt img 0x10 4
    let raw := img.take total
    let sign := raw.drop (total - 132)
    let ckf := c == 1 || zeros raw 0x48 6
    if leAt img 0 4 != 0x57464856 || leAt img 4 1 != c || leAt img 6 2 != 1 || decide (largest c < total) || decide (total < 260) ||
        decide (img.length < total) || !zeros raw 5 1 || !zeros raw 0x14 4 || !zeros raw 0x4E 2 || !zeros raw 0x60 32 || !ckf ||
        !zeros sign 1 3 then some 1
    else if !s.keyGood sign then some 4
    else if !signGood (raw.take (total - 132)) sign then some 3
    else none

/-- The part of an image that holds its ACCEPT pairs and stepping range: the header, or the body of HEAD. -/
def acceptOf (c : Nat) (img : List Byte) : List Byte := if c = 5 then img.drop 16 else img

/-- VERSION of an image, or IMGVER. -/
def versionOf (c : Nat) (img : List Byte) : Nat := if c = 5 then leAt img 0x18 4 else imageVersion img

/-- The running image of a component; none for a factory copy, or for the weave of a bare hub. -/
def State.runningOf (s : State) (c : Nat) : Option (List Byte) :=
  if c = 5 then s.weave.map (·.bytes)
  else
    match Tbl.get [] c s.fw.running with
    | [] => none
    | b => some b

/-- The running version of a component (r_Y). -/
def State.runVersion (s : State) (c : Nat) : Nat := if c = 5 then s.rd F.WE_IMGVER_IMGVER else s.rd (F.FW_RUNc_VERSION c)

/-- The counter moves past the free values of one comparison of versions. -/
def State.usedMany (s : State) : State := { s with freeCtr := s.freeCtr + 8 }

/-- The other components that run: a bare hub has no weave. -/
def State.others (s : State) (x : Nat) : List Nat := [1, 2, 3, 4, 5].filter fun y => y != x && (y != 5 || s.weave.isSome)

/-- R460 for a candidate: rule 1; else the first component Y that fails, with the rule's SIDE and the version that failed. The ACCEPT pairs of
a factory copy are not given: a free value decides for it. -/
def State.compat (s : State) (x : Nat) (img : List Byte) : Option (Nat × Nat × Nat) :=
  let h := acceptOf x img
  let v := versionOf x img
  if leAt h 0x0C 2 != 0x1288 || decide (2 < leAt h 0x0E 1) || decide (leAt h 0x0F 1 < 2) then some (0, 0, v)
  else
    match (s.others x).find? fun y => !inPair h (0x20 + 8 * (y - 1)) (s.runVersion y) with
    | some y => some (y, 0, s.runVersion y)
    | none =>
      ((s.others x).find? fun y =>
        match s.runningOf y with
        | some r => !inPair (acceptOf y r) (0x20 + 8 * (x - 1)) v
        | none => !Config.freeBit (s.freeCtr + y)).map fun y => (y, 1, v)

/-! ### Errors and the session (R456 to R459) -/

/-- FW_ERR. -/
def State.fwErr (s : State) (code comp : Nat) (block : Option Nat) : State :=
  let s := (((s.wr F.FW_ERR_CODE code).wr F.FW_ERR_COMP comp).wr F.FW_ERR_OTHER 0).wr F.FW_ERR_SIDE 0
  match block with
  | some b => s.wr F.FW_ERR_BLOCK b
  | none => s

/-- A command has its final result. -/
def State.done (s : State) (result : Nat) : State := { s with mg := { s.mg with longRes := some result } }

/-- FW_STAT.STATE outside an activation. -/
def State.fwState (s : State) : State := s.wr F.FW_STAT_STATE (if s.fw.verified then 2 else if s.fw.holder.isSome then 1 else 0)

/-- COUNT and FIRSTGAP. -/
def State.fwProg (s : State) : State :=
  let n := s.fw.staging.length
  (s.wr F.FW_PROG_COUNT n).wr F.FW_PROG_FIRSTGAP (((List.range (n + 1)).find? fun i => (Tbl.get [] i s.fw.staging).isEmpty).getD 0)

/-- FWBEGIN: staging is erased, a session opens. -/
def State.fwBegin (s : State) (src : Src) (seq comp total : Nat) : State :=
  let s := { s with fw := { s.fw with staging := [], stComp := comp, stTotal := total, verified := false, holder := some src } }
  let s := ((s.wr F.FW_STAT_COMP comp).wr F.FW_SESSION_SESSION seq).wr F.FW_TOTAL_TOTAL total
  (s.fwProg.fwState).done 0

/-- A block fails a check. -/
def State.blockFail (s : State) (code block result : Nat) : State :=
  (({ s with fw := { s.fw with verified := false } }.fwState).fwErr code s.fw.stComp (some block)).done result

/-- A block goes through the checks of R458. `ok`: flash takes it and reads it back. -/
def State.fwBlock (s : State) (src : Src) (block : List Byte) (ok : Bool) : State :=
  let off := leAt block 0 4
  let len := leAt block 4 2
  let data := slice block 16 len
  let i := off / 4096
  if s.fw.holder != some src || leAt block 6 1 != s.fw.stComp || leAt block 12 4 != s.rd F.FW_SESSION_SESSION then
    s.blockFail 7 i 0x15
  else if off % 4096 != 0 || len == 0 || decide (4096 < len) || decide (s.fw.stTotal < off + len) ||
      (len != 4096 && off + len != s.fw.stTotal) || data.length != len then s.blockFail 6 i 0x11
  else if (crc32c data).toNat != leAt block 8 4 then s.blockFail 2 i 0x11
  else
    let old := Tbl.get [] i s.fw.staging
    if !old.isEmpty then
      if old = data then ({ s with fw := { s.fw with verified := false } }.fwState).done 0 else s.blockFail 6 i 0x11
    else if ok then
      (({ s with fw := { s.fw with staging := Tbl.put [] i data s.fw.staging, verified := false } }.fwProg).fwState).done 0
    else s.blockFail 8 i 0x15

/-- The block that FW_BLKBUF holds. -/
def State.blkBytes (s : State) : List Byte := (List.range 1028).flatMap fun i => leBytes (Tbl.get 0 i s.fw.blk).toNat 4

/-- The staged image. -/
def State.stagedImage (s : State) : List Byte := ((s.fw.staging.map (·.2)).flatten).take s.fw.stTotal

/-- Every block from offset 0 to TOTAL is staged. -/
def State.stagedWhole (s : State) : Bool := s.fw.stTotal != 0 && s.fw.staging.length == (s.fw.stTotal + 4095) / 4096

/-- FWVERIFY (R459): a missing block or no session is STATE, an image that is not valid BADARG; its TOTAL is the session's. -/
def State.fwVerify (s : State) : State :=
  if s.fw.holder.isNone then (s.fwErr 7 s.fw.stComp none).done 0x15
  else if !s.stagedWhole then (s.fwErr 9 s.fw.stComp none).done 0x15
  else
    let img := s.stagedImage
    let total := leAt img (if s.fw.stComp = 5 then 0x28 else 0x10) 4
    match (if total = s.fw.stTotal then s.imageError s.fw.stComp img else some 1) with
    | some e => (s.fwErr e s.fw.stComp none).done 0x11
    | none => ({ s with fw := { s.fw with verified := true } }.fwState).done 0

/-- FWABORT: the session closes, what is staged no longer counts as verified. -/
def State.fwAbort (s : State) : State := { s with fw := { s.fw with verified := false, holder := none } }.fwState

/-! ### Activation (R461 to R463) -/

/-- An activation ends. -/
def State.actEnd (s : State) (result : Nat) : State := (s.fwState).done result

/-- R460 fails: FW_ERR and FW_ERRVAL. -/
def State.compatFail (s : State) (x : Nat) (e : Nat × Nat × Nat) : State :=
  let s := ((s.fwErr 5 x none).wr F.FW_ERR_OTHER e.1).wr F.FW_ERR_SIDE e.2.1
  s.wr F.FW_ERRVAL_VERSION e.2.2

/-- The image is in its slot and runs. -/
def State.nowRuns (s : State) (c : Nat) (img : List Byte) : State :=
  { s with fw := { s.fw with running := Tbl.put [] c img s.fw.running } }.wr (F.FW_RUNc_VERSION c) (versionOf c img)

/-- SDM: one link goes down with LINKDOWN and comes up again under the new microcode; a port not enabled needs neither. -/
def State.sdmLinks (s : State) : List Nat → State
  | [] => ({ s with fw := { s.fw with sdm := [] } } : State).actEnd 0
  | p :: ps =>
    if s.on (F.RGp_CTL_ENABLE p) then
      { ((s.wr (F.RGp_LSTAT_CAUSE p) 6).toDown p).toAcquire p with fw := { s.fw with sdm := p :: ps } }
    else State.sdmLinks s ps

/-- The pause of a component (R462): what follows the boot record update. -/
def State.pause (s : State) (c : Nat) (img : List Byte) (src : Src) (seq : Nat) : State :=
  let s := s.nowRuns c img
  match c with
  | 1 =>
    let s := { s with fw := { s.fw with curMfw := 1 - s.fw.curMfw, trial := true, trialCmd := some (seq, src) } }
    ((s.wr F.FW_STAT_MFWSLOT s.fw.curMfw).wr F.FW_STAT_TRIAL 1).actEnd 0
  | 2 => s.sdmLinks [0, 1, 2]
  | 3 => { s.usbDetach with fw := { s.fw with sdm := [3] } }
  | _ => s.actEnd 0

/-- ACTIVATE. `ok`: the slot reads back well; one that does not holds no image (assumption 60). -/
def State.fwActivate (s : State) (src : Src) (seq c : Nat) (rollback ok : Bool) : State :=
  let s := s.wr F.FW_STAT_STATE 3
  if !rollback && (!s.fw.verified || s.fw.stComp != c) then (s.fwErr 10 c none).actEnd 0x15
  else
    let img := if rollback then Tbl.get [] (s.flashSlot c true) s.fw.slots else s.stagedImage
    match (if rollback then s.imageError c img else none) with
    | some e => (s.fwErr e c none).actEnd 0x15
    | none =>
      match s.compat c img with
      | some e => ((s.compatFail c e).actEnd 0x15).usedMany
      | none =>
        let slot := s.flashSlot c (c == 1 || c == 5)
        if !rollback && !ok then
          (({ s with fw := { s.fw with slots := Tbl.put [] slot [] s.fw.slots } } : State).fwErr 8 c none).actEnd 0x15
        else
          let s := { s with fw := { s.fw with slots := Tbl.put [] slot img s.fw.slots } }
          if c = 5 then (s.loadStart img (slot - 5)) else s.pause c img src seq

/-- SDM_NEXT_LINK: the link before has been UP for HOLD + 1 ms. -/
def execSdmNextLink (s : State) : Host.Outcome State Fault Refusal :=
  .next (match s.fw.sdm with
    | p :: ps => if decide (p ≤ 2) && s.isUp p then s.sdmLinks (ps.filter fun q => decide (q ≤ 2)) else s
    | [] => s)

/-- UDS_RECONNECT. -/
def execUdsReconnect (s : State) : Host.Outcome State Fault Refusal :=
  .next (if s.fw.sdm.contains 3 then ({ s with fw := { s.fw with sdm := [] } }.usbAttach).actEnd 0 else s)

/-- TRIAL_END. -/
def execTrialEnd (s : State) : Host.Outcome State Fault Refusal :=
  .next (if s.fw.trial && s.sup.mcUp then { s.wr F.FW_STAT_TRIAL 0 with fw := { s.fw with trial := false, trialCmd := none } } else s)

/-! ### The shelf (R464) -/

/-- FW_SHELF: the shelf holds the running version of each component. -/
def State.shelfShow (s : State) : State :=
  s.wr F.FW_SHELF_HELD (([1, 2, 3, 4, 5].map fun c =>
    match s.runningOf c with
    | some r => if Tbl.get [] c s.store.shelf = r then 2 ^ (c - 1) else 0
    | none => 0).sum)

/-- SHELF_WRITE: the active writes one running image that the shelf lacks. `ok`: it reads back. -/
def execShelfWrite (c : Fin 5) (ok : Bool) (s : State) : Host.Outcome State Fault Refusal :=
  .next (if s.isActive && s.owner && s.store.fitted && ok then
      match s.runningOf (c.val + 1) with
      | some r => { s with store := { s.store with shelf := Tbl.put [] (c.val + 1) r s.store.shelf } }.shelfShow
      | none => s
    else s)

/-! ### Start of the firmware (R440, R453) -/

/-- The next sequence number after a core start (R440). -/
def State.seqStart (s : State) : State :=
  if s.store.fitted then { s with mg := { s.mg with nextSeq := s.store.reserved + 1 } }
  else { s with mg := { s.mg with startCount := s.mg.startCount + 1, nextSeq := (s.mg.startCount + 1) % 65536 * 2 ^ 48 + 1 } }

/-- SDM, UDS and PPT from their slots, from staging, or the factory copies, whose versions are free values. -/
def State.loadOthers (s : State) : List Nat → State
  | [] => s
  | c :: cs =>
    let img := Tbl.get [] c s.fw.slots
    let st := if s.fw.stComp = c && s.stagedWhole then s.stagedImage else []
    State.loadOthers
      (if (s.imageError c img).isNone then s.nowRuns c img
       else if (s.imageError c st).isNone then s.nowRuns c st
       else ((s.wr F.FW_STAT_FALLBACK 1).wr (F.FW_RUNc_VERSION c) s.freeW.toNat).used) cs

/-- Alarms kept through the restart are raised (R385, R404, R429, R380). -/
def State.alarmsRaise (s : State) : List Nat → State
  | [] => { s with sup := { s.sup with alarms := 0 } }
  | b :: bs => State.alarmsRaise (if bitsOf s.sup.alarms b 1 = 1 then (if b = 4 then s.alarm b else s.alarmOnce b) else s) bs

/-- The START entry (R439): for a ring reset, from its writer and at the time it was written. -/
def State.startEntry (s : State) : State :=
  let cause := (s.reg F.PW_RSTCAUSE_AONPOR.key).toNat % 256
  match s.sup.writer with
  | some (ring, node, sec, ns) =>
    let src : Src := if ring < 16 then .ring (BitVec.ofNat 4 ring) (BitVec.ofNat 12 node)
      else match node with | 0 => .lxb | 1 => .mc0 | 2 => .mc1 | _ => .s
    let s := { s.tallyInternal src 0x8004 0 (cause != 1) 0 cause with sup := { s.sup with writer := none } }
    match s.mg.tally with
    | e :: es => { s with mg := { s.mg with tally := { e with sec := sec, ns := ns } :: es } }
    | [] => s
  | none => s.tallyInternal .mc0 0x8004 0 (cause != 1) 0 cause

/-- Some pair of running components breaks R460; a factory copy leaves it to a free value. -/
def State.matrixBad (s : State) : Bool :=
  [1, 2, 3, 4, 5].any fun c => match s.runningOf c with
    | some r => (s.compat c r).isSome
    | none => false

/-- FW_STAT.MATRIX (R453). -/
def State.matrixShow (s : State) : State := (s.wr F.FW_STAT_MATRIX (b2n s.matrixBad)).usedMany

/-- BOOT_LOAD. `errA`, `errB`: the flash device fails to read slot A, slot B (check 1). With the weave, the set of components is whole. -/
def execBootLoad (errA errB : Bool) (s : State) : Host.Outcome State Fault Refusal :=
  .next (if s.bootDue then (s.bootLoad errA errB).matrixShow else s)

/-- MFW of a slot runs, and then the rest of step 12 up to the boot load. -/
def State.mfwRun (s : State) (slot : Nat) : State :=
  let s := { s.nowRuns 1 (Tbl.get [] slot s.fw.slots) with fw := { s.fw with curMfw := slot } }
  let s := { s with fw := { s.fw with running := Tbl.put [] 1 (Tbl.get [] slot s.fw.slots) [] }, sup := { s.sup with mcUp := true } }
  let s := ((s.wr F.FW_STAT_MFWSLOT slot).wr F.FW_STAT_TRIAL (b2n s.fw.trial)).wr F.PW_SEQ_STEP 12
  let s := (s.loadOthers [2, 3, 4])
  let s := s.matrixShow
  let s := (s.seqStart.startEntry).alarmsRaise (List.range 12)
  let s := if s.rd F.MT_STAT_ROLE = 1 || s.owner then s.shelfShow else s
  s.inletEvent

/-- A trial that a reset ended: the old slot is in use again, and an ACTIVATE still without its completion ends STATE (R463). -/
def State.trialLost (s : State) : State :=
  let s := { s with fw := { s.fw with trial := false, curMfw := 1 - s.fw.curMfw } }
  s.fwErr 11 1 none

/-- The boot ROM finds MFW: the current slot, then the other, then recovery (R453). -/
def State.mfwBoot (s : State) : State :=
  let lost := s.fw.trial
  let cmd := if lost then s.fw.trialCmd else none
  let s := if lost then s.trialLost else s
  let s := { s with fw := { s.fw with trialCmd := none } }
  let a := s.fw.curMfw
  let good (k : Nat) : Bool := (s.imageError 1 (Tbl.get [] k s.fw.slots)).isNone
  if good a || good (1 - a) then
    let s := s.mfwRun (if good a then a else 1 - a)
    match cmd with
    | some (seq, src) => s.tallyAdd src 0x23 0x15 4 0 (seq % 2 ^ 32)
    | none => s
  else { s.wr F.FW_STAT_RECOVERY 1 with fw := { s.fw with recov := 0 }, sup := { s.sup with mcUp := true } }

/-- MFW_BOOT: after step 11 of R379. -/
def execMfwBoot (s : State) : Host.Outcome State Fault Refusal :=
  .next (if s.coreRuns && !s.sup.mcUp && s.sup.held == 0 && !s.sup.locking then s.mfwBoot else s)

end Sys2Proof.Machine
end

