-- ==== Sys2Proof/Machine/Commands.lean ====
section
/-! DEFINITION. The command mailbox: the latch, the command codes, long commands and their completion (R428 to R437, R442). -/

namespace Sys2Proof.Machine

/-! ### Commands as words (R432) -/

/-- The eight words of a command. -/
def cmdWords (code : Nat) (tag : BitVec 16) (x : Args) : List Word :=
  [BitVec.ofNat 32 (code % 65536 + tag.toNat * 65536), x.a1, x.a2, x.a3, x.a4, x.a5, x.a6, x.a7]

/-- CODE. -/
def Cmd.code (c : Cmd) : Nat := (c.words.getD 0 0).toNat % 65536

/-- TAG. -/
def Cmd.tag (c : Cmd) : Nat := (c.words.getD 0 0).toNat / 65536

/-- ARGi. -/
def Cmd.arg (c : Cmd) (i : Nat) : Nat := (c.words.getD i 0).toNat

/-- The digest: CRC-32C over ARG1 to ARG7, in address order. -/
def Cmd.digest (c : Cmd) : Nat := (crc32c (bytesOf ((c.words.drop 1).take 7))).toNat

/-! ### The command table (R436) -/

/-- The further right of a code, where it has one; none: BADCMD. -/
def furtherRight (code : Nat) : Option (Option Nat) :=
  match code with
  | 0x01 => some none
  | 0x02 => some none
  | 0x10 => some (some 1)
  | 0x11 => some (some 1)
  | 0x12 => some (some 1)
  | 0x20 => some (some 3)
  | 0x21 => some (some 3)
  | 0x22 => some (some 3)
  | 0x23 => some (some 3)
  | 0x24 => some (some 3)
  | 0x30 => some (some 1)
  | 0x31 => some (some 1)
  | 0x32 => some (some 1)
  | 0x40 => some (some 3)
  | 0x50 => some (some 4)
  | 0x51 => some none
  | 0x60 => some (some 0)
  | _ => none

/-- A long command. -/
def isLong (code : Nat) : Bool := [0x11, 0x12, 0x20, 0x21, 0x22, 0x23, 0x30, 0x32, 0x60].contains code

/-- Arguments a to 7 are zero. -/
def Cmd.zeroFrom (c : Cmd) (a : Nat) : Bool := (c.words.drop a).all (· == 0)

/-- The arguments are in range, those the table does not name zero. -/
def Cmd.argsOk (c : Cmd) : Bool :=
  match c.code with
  | 0x02 => decide (c.arg 2 ≤ 1) && c.zeroFrom 3
  | 0x10 => decide (c.arg 1 ≤ 13) && c.zeroFrom 5
  | 0x20 => decide (1 ≤ c.arg 1) && decide (c.arg 1 ≤ 5) && decide (1 ≤ c.arg 2) && decide (c.arg 2 ≤ largest (c.arg 1)) && c.zeroFrom 3
  | 0x23 =>
    decide (1 ≤ c.arg 1) && decide (c.arg 1 ≤ 5) && decide (c.arg 2 ≤ 1) && (c.arg 2 == 0 || c.arg 1 == 1 || c.arg 1 == 5) && c.zeroFrom 3
  | 0x40 => decide (c.arg 1 ≤ 3) && c.zeroFrom 2
  | 0x50 => decide (1 ≤ c.arg 1) && decide (c.arg 1 ≤ 1440) && c.zeroFrom 2
  | 0x60 => decide (1 ≤ c.arg 3) && decide (c.arg 3 ≤ 256) && c.zeroFrom 4
  | _ => c.zeroFrom 1

/-- A long command of a code is queued or runs. -/
def State.queued (s : State) (code : Nat) : Bool := s.mg.longQ.any fun x => x.cmd.code == code

/-- Revoking a slot leaves one that is provisioned and not revoked (R58). -/
def State.keyLeft (s : State) (slot : Nat) : Bool :=
  [0, 1, 2, 3].any fun i => i != slot && (Tbl.get KeySlot.blank i s.otp.keys).prov && !(Tbl.get KeySlot.blank i s.otp.keys).revoked

/-- The value that a REGWRITE writes: (old and not mask) or (value and mask). Bits outside the mask act as not written: only RW and RWL bits
have an old value to write back, so that a W1C, W1S or WO bit there gets 0 (assumption 57). -/
def State.regwriteValue (s : State) (c : Cmd) : Nat :=
  let key := keyOf (c.arg 1) (c.arg 2)
  let old := (s.reg key).toNat &&& keptBits key
  (old &&& (0xFFFFFFFF ^^^ c.arg 4)) ||| (c.arg 3 &&& c.arg 4)

/-- The write of a REGWRITE. -/
def State.regwrite (s : State) (c : Cmd) : State × Status := s.writeReg c.src (c.arg 1) (c.arg 2) (s.regwriteValue c) none

/-- RESULT for the answer to a register write (R436, R437). -/
def resultOf : Status → Nat
  | .ok => 0
  | .addrErr => 0x18
  | .locked => 0x16
  | .claimed => 0x17
  | .refused => 0x12
  | _ => 0x15

/-- The conditions that R437 names for a code; 0: none holds. -/
def State.condition (s : State) (c : Cmd) : Nat :=
  match c.code with
  | 0x10 => resultOf (s.regwrite c).2
  | 0x12 => if s.isAssigned then 0 else 0x15
  | 0x20 => if s.queued 0x23 then 0x15 else if s.fw.holder.isSome && s.fw.holder != some c.src then 0x13 else 0
  | 0x23 => if s.queued 0x23 then 0x13 else 0
  | 0x30 => if !s.isActive then 0x15 else if !s.on F.MT_STAT_MATEPRES then 0x1C else if !s.on F.MT_MATE_MREADY then 0x1B else 0
  | 0x31 => if s.isActive && s.on F.MT_STAT_MATEPRES then 0 else 0x15
  | 0x32 => if s.isActive && s.store.fitted then 0 else 0x15
  | 0x40 => if s.keyLeft (c.arg 1) then 0 else 0x1A
  | 0x50 => if s.otp.debugDisable then 0x19 else 0
  | 0x60 => if s.queued 0x60 then 0x13 else 0
  | _ => 0

/-- Codes and components that recovery serves (R453). -/
def recoveryServes (c : Cmd) : Bool :=
  decide (0x20 ≤ c.code) && decide (c.code ≤ 0x24) && ((c.code != 0x20 && c.code != 0x23) || c.arg 1 == 1)

/-- Step 2 of R434: the specific right, CODE, the arguments, room for a long command, the conditions. -/
def State.checkCmd (s : State) (c : Cmd) : Nat :=
  match furtherRight c.code with
  | none => 0x10
  | some r =>
    if (match r with | some b => !s.hasRight c.src b | none => false) then 0x12
    else if s.on F.FW_STAT_RECOVERY && !recoveryServes c then 0x10
    else if !c.argsOk then 0x11
    else if isLong c.code && decide (8 ≤ s.mg.longQ.length) then 0x14
    else
      match s.condition c with
      | 0 => if isLong c.code then 1 else 0
      | r => r

/-! ### Entries and slots (R434, R435) -/

/-- URGENT of a command's entries (R438). -/
def Cmd.urgent (c : Cmd) : Nat := if [0x11, 0x40, 0x50].contains c.code || (c.code == 2 && c.arg 2 % 2 == 1) then 2 else 0

/-- DETAIL of a command's entry. -/
def Cmd.detail (c : Cmd) : Nat := c.tag + (if c.code = 2 then c.arg 1 % 65536 * 65536 else 0)

/-- The number a command takes; recovery numbers its commands from a count of its own (R453). -/
def State.cmdSeq (s : State) : Nat := if s.on F.FW_STAT_RECOVERY then 0xFFFF * 2 ^ 48 + (s.fw.recov + 1) % 2 ^ 48 else s.mg.nextSeq

/-- The entry of a command; recovery keeps no tally. -/
def State.enterCmd (s : State) (c : Cmd) (result : Nat) : State :=
  if s.on F.FW_STAT_RECOVERY then { s with fw := { s.fw with recov := s.fw.recov + 1 } }
  else s.tallyAdd c.src c.code result c.urgent c.digest c.detail

/-- The sender's slot shows the command. -/
def State.slotSet (s : State) (c : Cmd) (seq result : Nat) : State :=
  match s.slotKey c.src with
  | some k => { s with mg := { s.mg with slots := Tbl.put ResSlot.init k { code := c.code, result := result, seq := seq, tag := c.tag } s.mg.slots } }
  | none => s

/-- An accepted command joins the replay ring of the store (R409). -/
def State.replayAdd (s : State) (c : Cmd) (seq result : Nat) : State :=
  if s.store.fitted && s.owner && decide (result ≤ 1) then
    { s with store := { s.store with replay := ({ seq := seq, src := c.src, words := c.words } :: s.store.replay).take 4096 } }
  else s

/-! ### Effects -/

/-- Debug locks, with a management event (R431). -/
def State.debugLock (s : State) : State :=
  if s.on F.NC_DEBUG_UNLOCKED then
    { (s.wr F.NC_DEBUG_UNLOCKED 0).mgmtEvent 3 0 0 0 with mg := { s.mg with debugUntil := none } }
  else s

/-- Debug unlocks for a number of minutes. -/
def State.debugUnlock (s : State) (minutes : Nat) : State :=
  let s := { s with mg := { s.mg with debugUntil := some (s.clock.tick + minutes * 30000000000) } }
  (s.wr F.NC_DEBUG_UNLOCKED 1).mgmtEvent 3 1 0 0

/-- A revoked fuse is blown (R58). -/
def State.revoke (s : State) (slot : Nat) : State :=
  let k := Tbl.get KeySlot.blank slot s.otp.keys
  ({ s with otp := { s.otp with keys := Tbl.put KeySlot.blank slot { k with revoked := true } s.otp.keys } }).wr F.WE_KEYSLOT_REVOKED
    (setBits (s.rd F.WE_KEYSLOT_REVOKED) slot 1 1)

/-- What a short command does. -/
def State.shortEffect (s : State) (c : Cmd) : State :=
  match c.code with
  | 0x10 => (s.regwrite c).1
  | 0x24 => s.fwAbort
  | 0x31 => s.emit (.mate 10 [])
  | 0x40 => s.revoke (c.arg 1)
  | 0x50 => s.debugUnlock (c.arg 1)
  | 0x51 => s.debugLock
  | _ => s

/-- A full checkpoint for a command: at once, or when what is written or lent allows it. -/
def State.ckCommand (s : State) : State :=
  if s.ckWaits then { s with mt := { s.mt with due := true, dueFull := true } }
  else { s with mt := { s.mt with writing := some (s.ckCapture true false) } }

/-- TLFETCH: entries from the first number, none above TL_HEAD (R442). -/
def State.tlFetch (s : State) (first count : Nat) : State :=
  let s := s.wr F.TL_FETCH_BUSY 1
  if decide (first < s.tallyTail) || decide (s.tallyHead < first) then s.done 0x18
  else
    let n := min count (s.tallyHead + 1 - first)
    let s := { s with mg := { s.mg with fetchBuf := (List.range n).map fun i => s.tallyEntry (first + i) } }
    (((s.wr F.TL_FETCH_COUNT n).wr F.TL_FETCHL_SEQ (first % 2 ^ 32)).wr F.TL_FETCHH_SEQ (first / 2 ^ 32)).done 0

/-- What a long command does when its turn comes. -/
def State.longEffect (s : State) (x : LongCmd) : State :=
  let c := x.cmd
  match c.code with
  | 0x11 => s.warmNow
  | 0x12 => s.unassign.done 0
  | 0x20 => s.fwBegin c.src (x.seq % 2 ^ 32) (c.arg 1) (c.arg 2)
  | 0x21 => s.fwBlock c.src (match x.block with | some b => b | none => s.blkBytes) x.ok
  | 0x22 => s.fwVerify
  | 0x23 => s.fwActivate c.src x.seq (c.arg 1) (c.arg 2 == 1) x.ok
  | 0x30 =>
    if s.store.fitted then { s.ckCommand with mt := { s.ckCommand.mt with yielding := true } } else s.done 0x1D
  | 0x32 => if s.isActive && s.store.fitted then { s.ckCommand with mt := { s.ckCommand.mt with forCmd := true } } else s.done 0x1D
  | 0x60 => s.tlFetch (c.arg 1 + c.arg 2 * 2 ^ 32) (c.arg 3)
  | _ => s

/-- The first long command of the queue starts. -/
def State.longStart (s : State) : State :=
  match s.mg.longQ with
  | [] => s
  | x :: _ => { s with mg := { s.mg with longRes := none } }.longEffect x

/-- A command through S that has completed gives a notice (R324). -/
def State.cmdNotice (s : State) (c : Cmd) (seq : Nat) : State := if c.src = .s then s.notice 3 seq else s

/-- Steps 1 to 6 of R434, but for the answer: `block`, what a FW_BLOCK request carried. A REGWRITE that the register refuses counts there. -/
def State.latch (s : State) (c : Cmd) (block : Option (List Byte)) (ok : Bool) : State :=
  let seq := s.cmdSeq
  let result := s.checkCmd c
  let s := if 2 ≤ result then s.bump F.NC_CMDREF_COUNT else s
  let s := ((s.enterCmd c result).slotSet c seq result).replayAdd c seq result
  if isLong c.code && result == 1 then
    let first := s.mg.longQ.isEmpty
    let s := { s with mg := { s.mg with longQ := s.mg.longQ ++ [{ seq := seq, cmd := c, block := block, ok := ok }] } }
    if first then s.longStart else s
  else (if result = 0 || (c.code == 0x10 && [0x16, 0x17, 0x18].contains result) then s.shortEffect c else s).cmdNotice c seq

/-- A command that lacks the send-commands right: REFUSED, and entered (R433). -/
def State.latchRefused (s : State) (c : Cmd) : State :=
  let seq := s.cmdSeq
  let s := (s.bump F.NC_CMDREF_COUNT).bump F.WE_MGRREF_COUNT
  (s.enterCmd c 0x12).slotSet c seq 0x12

/-- A write of the mailbox: the answer, and what follows (R432, R433). While no firmware runs, the command waits: nothing happens yet. -/
def State.mailbox (s : State) (c : Cmd) (ok : Bool) : State × Status :=
  if !s.sup.mcUp then (s, .ok)
  else if s.hasRight c.src 2 then (s.latch c none ok, .ok)
  else (s.latchRefused c, .refused)

/-- A command row: the sender's write of its eight words, and the answer (R434 steps 1 to 6; the answer is put out before the effect). -/
def State.command (s : State) (src : Src) (code : Nat) (tag : BitVec 16) (x : Args) (ok : Bool) : State :=
  let c : Cmd := { src := src, words := cmdWords code tag x }
  if s.sup.mcUp then (((s.emit (.answer src (s.mailbox c ok).2 [])).mailbox c ok).1) else s

/-- The completion of the long command that runs: its entry, its slot, the notice; the next one starts (R434). -/
def State.complete (s : State) : State :=
  match s.mg.longQ, s.mg.longRes with
  | x :: xs, some r =>
    let s := if s.on F.FW_STAT_RECOVERY then s
      else s.tallyAdd x.cmd.src x.cmd.code r (4 + x.cmd.urgent) x.cmd.digest (x.seq % 2 ^ 32)
    let s := if (s.slotOf x.cmd.src).seq = x.seq then s.slotSet x.cmd x.seq r else s
    let s := s.cmdNotice x.cmd x.seq
    let s := if x.cmd.code = 0x60 then s.wr F.TL_FETCH_BUSY 0 else s
    let s := if x.cmd.code = 0x23 then { s with fw := { s.fw with trialCmd := none } }.fwState else s
    { s with mg := { s.mg with longQ := xs, longRes := none } }.longStart
  | _, _ => s

/-! ### The cores (R429, R431) -/

/-- MC1 restarts: an alarm, the entry, the field hub and host engine reset. -/
def State.mc1Restart (s : State) (why : Nat) : State :=
  ((s.alarmOnce 9).tallyInternal .mc0 0x8008 0 true 0 why).fieldUnitReset

/-- MC1_WATCHDOG. -/
def execMc1Watchdog (s : State) : Host.Outcome State Fault Refusal := .next (if s.sup.mcUp then s.mc1Restart 1 else s)

/-- SRAM_PARITY: in MC1 SRAM it restarts MC1, in MC0 SRAM it acts as a watchdog expiry. -/
def execSramParity (mc1 : Bool) (s : State) : Host.Outcome State Fault Refusal :=
  .next (if !s.sup.mcUp then s else if mc1 then s.mc1Restart 2 else s.watchdog)

/-- DEBUG_TIMEOUT. -/
def execDebugTimeout (s : State) : Host.Outcome State Fault Refusal := .next s.debugLock

end Sys2Proof.Machine
end

