-- ==== Sys2Proof/Machine/Reach.lean ====
section
/-! DEFINITION. An access to the hub's own units by class, offset and length: rights, memory classes, the mailbox, register units and atomics
(R6, R26 to R28, R52, R153, R156, R433). LXB windows have their own path at the bridge. -/

namespace Sys2Proof.Machine

/-! ### Rights (R51, R52, R389, R433, R458) -/

/-- The right to write at a place is there; a place without a register asks for the write-registers right. -/
def State.mayWriteAt (s : State) (src : Src) (cls off : Nat) : Bool :=
  match regAt cls off with
  | some (f, _) => s.mayWrite src f.id
  | none => s.hasRight src 1

/-- The right to write words from a place on. -/
def State.mayWriteAll (s : State) (src : Src) (cls off : Nat) : Nat → Bool
  | 0 => s.hasRight src 1
  | 1 => s.mayWriteAt src cls off
  | k + 1 => s.mayWriteAt src cls off && State.mayWriteAll s src cls (off + 4) k

/-! ### Memory classes (R26 to R28, R430) -/

/-- Bytes that the spec gives no value for: MC SRAM as diagnostics see it. -/
def freeBytes (ctr : Nat) : Nat → List Byte
  | 0 => []
  | k + 1 => (Config.freeWord ctr).extractLsb' 0 8 :: freeBytes (ctr + 1) k

/-- A read of n free bytes. -/
def State.readFree (s : State) (n : Nat) : State × List Byte := ({ s with freeCtr := s.freeCtr + n }, freeBytes s.freeCtr n)

/-- A byte of overflow memory (R28, R188): what was stored in its block last; a free value, always the same, where nothing was. -/
def State.overflowAt (s : State) (a : Nat) : Byte :=
  ((Tbl.get [] (a / 256) s.slath.blocks)[a % 256]?).getD (Config.overflowByte a)

/-- Bytes of overflow memory: none where none is fitted. -/
def State.overflowSize (s : State) : Nat :=
  if s.on F.SW_OVCFG_FITTED then
    match s.rd F.SW_OVCFG_SIZE with
    | 0 => 2 * 2 ^ 30
    | 1 => 4 * 2 ^ 30
    | _ => 8 * 2 ^ 30
  else 0

/-- Bytes that answer reads in a memory class: MC SRAM while debug is unlocked, the overflow memory fitted. -/
def State.memoryExtent (s : State) (src : Src) (cls : Nat) : Nat :=
  if s.hiddenNow src cls 0 then 0
  else if cls = 0x0E then if s.on F.NC_DEBUG_UNLOCKED then 0x80000 else 0
  else if cls = 0x20 then s.overflowSize
  else 0

/-- Registers occupy the words, and the source may see them. -/
def State.wordsExist (s : State) (src : Src) (cls off : Nat) : Nat → Bool
  | 0 => true
  | k + 1 =>
    !s.hiddenNow src cls off &&
      (match regAt cls off with
        | some (f, _) => !(src.isRing && ringHidden f.id)
        | none => cls == 5 && (rxAt off).isSome) && State.wordsExist s src cls (off + 4) k

/-! ### Reads and writes of 1 to 64 bytes -/

/-- CAN receive entries that a read of class 0x05 touches have failed parity. -/
def State.rxSpoil (s : State) (off n : Nat) : State :=
  match rxAt off with
  | some (k, _, _) => s.canSpoil k (((List.range n).filterMap fun i => (rxAt (off + 4 * i)).map fun x => x.2.1).eraseDups)
  | none => s

/-- A read of the hub's own units: `bad`, parity fails in the memory read. -/
def State.unitRead (s : State) (src : Src) (cls off n : Nat) (bad : Bool) : State × Status × List Byte :=
  if !s.hasRight src 0 then (s.bump F.WE_MGRREF_COUNT, .refused, [])
  else if cls ≤ 0x0D then
    if off % 4 != 0 || n % 4 != 0 then (s, .addrErr, [])
    else
      let s := if bad && cls == 5 then s.rxSpoil off (n / 4) else s
      match s.readWords src cls off (n / 4) with
      | some (s, ws) => (s, .ok, bytesOf ws)
      | none => (s, .addrErr, [])
  else if s.memoryExtent src cls < off + n then (s, .addrErr, [])
  else if bad then (s, .poison, [])
  else if cls = 0x20 then (s, .ok, (List.range n).map fun i => s.overflowAt (off + i))
  else
    let (s, bs) := s.readFree n
    (s, .ok, bs)

/-- A write of the hub's own units: the mailbox takes exactly 32 bytes at NC_CMD0, register units whole words, memory classes nothing. Rights
of every word, then its place, then its refusal (R153). -/
def State.unitWrite (s : State) (src : Src) (cls off : Nat) (bs : List Byte) : State × Status :=
  if cls = 0 && off = 0x100 && bs.length = 32 then s.mailbox { src := src, words := wordsOf bs 8 } true
  else if !s.mayWriteAll src cls off (bs.length / 4) then (s.bump F.WE_MGRREF_COUNT, .refused)
  else if cls ≤ 0x0D && off % 4 == 0 && bs.length % 4 == 0 && s.wordsExist src cls off (bs.length / 4) then s.writeAll src cls off (wordsOf bs (bs.length / 4))
  else (s, .addrErr)

/-! ### Atomics (R156) -/

/-- Every field of the registers is RW or RWL. -/
def plainWords (cls off : Nat) : Nat → Bool
  | 0 => true
  | k + 1 =>
    (match regAt cls off with
      | some (f, _) => f.fields.all fun x => x.acc == .rw || x.acc == .rwl
      | none => false) && plainWords cls (off + 4) k

/-- What an atomic does with the old value: none, it writes nothing. -/
def atomicNew (swap : Bool) (size old a b : Nat) : Option Nat :=
  if swap then if old = a then some b else none else some ((old + a) % 2 ^ (8 * size))

/-- FADD (`swap` false, addend a) and CSWAP (compare value a, swap value b) on one register or two. -/
def State.unitAtomic (s : State) (src : Src) (swap : Bool) (cls off size a b : Nat) : State × Status × List Byte :=
  if !s.mayWriteAll src cls off (size / 4) then (s.bump F.WE_MGRREF_COUNT, .refused, [])
  else if 0x0D < cls then (s, .badOp, [])
  else if off % size != 0 || !s.wordsExist src cls off (size / 4) then (s, .addrErr, [])
  else if !plainWords cls off (size / 4) then (s, .badOp, [])
  else
    match s.readWords src cls off (size / 4) with
    | none => (s, .addrErr, [])
    | some (s, ws) =>
      let old := leNat (bytesOf ws)
      match atomicNew swap size old a b with
      | none => (s, .ok, leBytes old size)
      | some v =>
        match s.writeAll src cls off (wordsOf (leBytes v size) (size / 4)) with
        | (s, .ok) => (s, .ok, leBytes old size)
        | (s, .refused) => (s, .refused, [])
        | (s, .addrErr) => (s, .addrErr, [])
        | (s, st) => (s, st, leBytes old size)

/-! ### Rows that are one access of a register -/

/-- A ring source reaches no unit of a hub without a node number (R30). -/
def State.reaches (s : State) (src : Src) : Bool := !src.isRing || s.isAssigned

/-- A row that writes words at a place: the write, and its answer, which goes ahead of a reset that the write causes (R389). -/
def State.rowWrite (s : State) (src : Src) (cls off : Nat) (ws : List Word) : State :=
  if s.reaches src then
    let (t, st) := s.unitWrite src cls off (bytesOf ws)
    if s.sup.mcUp && !t.sup.mcUp then ((s.emit (.answer src st [])).unitWrite src cls off (bytesOf ws)).1 else t.emit (.answer src st [])
  else s

/-- A row that reads words at a place. -/
def State.rowRead (s : State) (src : Src) (cls off k : Nat) : State :=
  if s.reaches src then
    let (t, st, bs) := s.unitRead src cls off (4 * k) false
    t.emit (.answer src st bs)
  else s

/-- The bits of a field. -/
def fieldMask (f : Fld) : Nat := (2 ^ f.width - 1) * 2 ^ f.lo

/-- The bits that fields with values spell. -/
def spell : List (Fld × Nat) → Nat
  | [] => 0
  | (f, v) :: r => (v % 2 ^ f.width * 2 ^ f.lo) ||| spell r

/-- The word that a row writes to a register: the fields it gives, and the other fields that a write keeps as they stand; bits that act when
written 1 are 0 unless given. -/
def State.fieldsWord (s : State) (key : Nat) (fs : List (Fld × Nat)) : Nat :=
  let keep := match regAt (key / 0x100000) (key % 0x100000) with | some (f, _) => maskOf FieldSpec.keeps f.fields | none => 0
  let given := fs.foldl (fun a f => a ||| fieldMask f.1) 0
  ((s.reg key).toNat &&& keep &&& (0xFFFFFFFF ^^^ given)) ||| spell fs

/-- A row that writes fields of one register: the word of them all is written. -/
def State.rowFields (s : State) (src : Src) (fs : List (Fld × Nat)) : State :=
  match fs with
  | [] => s
  | (f, _) :: _ => s.rowWrite src (f.key / 0x100000) (f.key % 0x100000) [BitVec.ofNat 32 (s.fieldsWord f.key fs)]

/-- A row that reads one register. -/
def State.rowReadF (s : State) (src : Src) (f : Fld) : State := s.rowRead src (f.key / 0x100000) (f.key % 0x100000) 1

end Sys2Proof.Machine
end

