-- ==== Sys2Proof/Machine/Transact.lean ====
section
/-! DEFINITION. Site transactions: requests and what they do at their destination (R143, R144, R149 to R156), the source side with its window,
retries and SYNC (R140 to R146), and where a local master's request goes (R29). -/

namespace Sys2Proof.Machine

/-! ### Requests (R149, R150) -/

/-- A request as its cell or a local master gives it. -/
structure Req where
  op : Nat
  cls : Nat
  off : Nat
  count : Nat
  size : Nat
  data : List Byte
  deriving DecidableEq, Repr

/-- The request that a cell carries. -/
def Cell.req (c : Cell) : Req :=
  let a := c.reqAddr
  { op := c.op.toNat, cls := bitsOf a 40 8, off := bitsOf a 0 40, count := beAt c.payload 8 2, size := beAt c.payload 10 1, data := c.payload.drop 16 }

/-- LEN that R149 asks for. -/
def Req.len (r : Req) : Nat :=
  match r.op with
  | 0 => 16
  | 1 => 16 + r.count
  | 2 => 16 + r.count
  | 3 => 16 + r.size
  | _ => 16 + 2 * r.size

/-- COUNT and SIZE as R150 asks for. -/
def Req.countsOk (r : Req) : Bool :=
  if r.op ≤ 2 then decide (1 ≤ r.count) && decide (r.count ≤ 64) && r.size == 0 else (r.size == 4 || r.size == 8) && r.count == r.size

/-- Step 1 of R153. -/
def Cell.wellFormed (c : Cell) : Bool :=
  decide (c.op.toNat ≤ 4) && c.len.toNat == c.req.len && c.req.countsOk && c.reqAddr / 2 ^ 60 == c.dring.toNat
    && bitsOf c.reqAddr 48 12 == c.dnode.toNat

/-- TAG of a request. -/
def Cell.tag (c : Cell) : Nat := beAt c.payload 12 4

/-! ### Applying a request (R153, R156) -/

/-- LXB window n holds an access: enabled, and within its size (R26, R152, R176). -/
def State.windowHolds (s : State) (n off count : Nat) : Bool :=
  s.on (F.BX_WINn_CFG_ENABLE n) && decide (off + count ≤ 2 ^ s.rd (F.BX_WINn_CFG_SIZE n))

/-- The class is an LXB window. -/
def isWindow (cls : Nat) : Bool := decide (0x10 ≤ cls) && decide (cls ≤ 0x17)

/-- What a request comes to: an answer, or a request at the bridge. -/
inductive Applied where
  | done (st : Status) (data : List Byte)
  | bridge (j : LxbJob)
  deriving DecidableEq, Repr

/-- A request to an LXB window. -/
def State.applyWindow (s : State) (src : Src) (r : Req) (poisonAt : Option Nat) (reply : Reply) : State × Applied :=
  if s.on F.FW_STAT_RECOVERY || !s.windowHolds (r.cls - 0x10) r.off r.count then (s, .done .addrErr [])
  else
    (s, .bridge {
      win := r.cls - 0x10, write := r.op != 0, off := r.off, count := r.count, data := r.data
      poisonAt := poisonAt, posted := r.op == 2, src := src, reply := reply, beat := 0, got := [] })

/-- A request whose form is right: rights, place, refusals, effect. -/
def State.applyReq (s : State) (src : Src) (r : Req) (bad : Bool) (poisonAt : Option Nat) (reply : Reply) : State × Applied :=
  match r.op with
  | 0 =>
    if isWindow r.cls && s.hasRight src 0 then s.applyWindow src r none reply
    else
      let (s, st, bs) := s.unitRead src r.cls r.off r.count bad
      (s, .done st bs)
  | 3 =>
    let (s, st, bs) := s.unitAtomic src false r.cls r.off r.size (leNat r.data) 0
    (s, .done st bs)
  | 4 =>
    let (s, st, bs) := s.unitAtomic src true r.cls r.off r.size (leNat (r.data.take r.size)) (leNat (r.data.drop r.size))
    (s, .done st bs)
  | _ =>
    if isWindow r.cls && s.hasRight src 1 then s.applyWindow src r poisonAt reply
    else
      let (s, st) := s.unitWrite src r.cls r.off r.data
      (s, .done st [])

/-! ### The write queue of the bridge (R154) -/

/-- Posted writes in the queue. -/
def State.postedQueued (s : State) : Nat := (s.bridge.jobs.filter (·.posted)).length

/-- A request joins the bridge's queue; a posted write that finds 8 of them there is held. Answers whether it is in. -/
def State.bridgePut (s : State) (j : LxbJob) : State × Bool :=
  if j.posted && decide (8 ≤ s.postedQueued) then
    ({ s with bridge := { s.bridge with held := s.bridge.held ++ [j] } }, false)
  else ({ s with bridge := { s.bridge with jobs := s.bridge.jobs ++ [j] } }, true)

/-! ### The destination side (R143, R144, R151, R152, R155) -/

/-- A response to the source of a request. -/
def State.response (s : State) (c : Cell) (op seq : Nat) (payload : List Byte) : Cell :=
  s.mkCell 2 4 op c.sring.toNat c.snode.toNat seq payload

/-- The response block: TAG, STATUS, DONE, COUNT. -/
def respBlock (tag st done count : Nat) : List Byte := beBytes tag 4 ++ beBytes st 1 ++ beBytes done 1 ++ beBytes count 2

/-- The OP of the response to a request. -/
def responseOp (op : Nat) : Nat :=
  match op with
  | 0 => 0
  | 2 => 2
  | 3 => 3
  | 4 => 3
  | _ => 1

/-- The response to a request with its status and data: ACK to a posted write. A request too short to hold a TAG gets a free one. -/
def State.responseTo (s : State) (c : Cell) (st : Status) (beats : Nat) (data : List Byte) : Cell :=
  if c.op.toNat = 2 then s.response c 2 c.seq.toNat []
  else
    let tag := if c.payload.length < 16 then s.freeW.toNat else c.tag
    s.response c (responseOp c.op.toNat) c.seq.toNat (respBlock tag st.code beats data.length ++ data)

/-- The index of the entry that holds a source's requests. -/
def State.dstFind (s : State) (ring node : Nat) : Option Nat :=
  (s.pair.dst.find? fun e => e.2.used && e.2.pring == ring && e.2.pnode == node).map (·.1)

def State.dst (s : State) (i : Nat) : DstEntry := Tbl.get DstEntry.init i s.pair.dst

def State.setDst (s : State) (i : Nat) (e : DstEntry) : State := { s with pair := { s.pair with dst := Tbl.put DstEntry.init i e s.pair.dst } }

/-- The entry's newest request is still being applied (R155). -/
def DstEntry.applying (e : DstEntry) : Bool :=
  match e.kept with
  | (_, none) :: _ => true
  | _ => false

/-- A request accepted at the bridge may not start: an earlier one of the pair is being applied; or, for all but a posted write, an earlier
write of the pair is not yet finished on the bus (R154). Window requests keep their order in the bridge's queue. -/
def State.mustWait (s : State) (e : DstEntry) (c : Cell) : Bool :=
  e.applying || (c.op.toNat != 2 && !isWindow c.req.cls && s.bridge.jobs.any fun j => j.posted && j.src == c.from)

/-- An ACK to a source: SEQ is EXPECT - 1 as it stands (R144). -/
def State.sendAck (s : State) (i : Nat) : State :=
  let e := s.dst i
  let c := s.mkCell 2 4 2 e.pring e.pnode ((e.expect + 65535) % 65536) []
  ((s.setDst i { e with ackDue := false }).send c none 20).1

/-- SKIPPED with a status; its TAG is free, since a SKIP carries none. -/
def State.sendSkipped (s : State) (c : Cell) (st : Nat) : State :=
  ((s.used).send (s.response c 10 c.seq.toNat (respBlock s.freeW.toNat st 0 0)) none 20).1

/-- A kept response is sent again: to a copy of the request, or to a SKIP. -/
def State.answerCopy (s : State) (i : Nat) (c : Cell) (skip : Bool) (kept : Cell) : State :=
  if kept.op = 10 then (s.sendBuilt kept none 20).1
  else if skip then s.sendSkipped c 8
  else if kept.op = 2 then s.sendAck i
  else (s.sendBuilt kept none 20).1

/-- A request at distance 1 to 8 behind (R143, R155): answered from the kept response, at once or when it exists. -/
def State.duplicate (s : State) (i : Nat) (c : Cell) (skip : Bool) : State :=
  let s := s.bump F.RG_XDUP_COUNT
  let e := s.dst i
  match e.kept.find? fun k => k.1 == c.seq.toNat with
  | some (_, some k) => s.answerCopy i c skip k
  | some (_, none) => s.setDst i { e with copies := e.copies ++ [skip] }
  | none => s

/-- The copies that waited are answered. -/
def State.answerCopies (s : State) (i : Nat) (c : Cell) (kept : Cell) : List Bool → State
  | [] => s
  | k :: ks => State.answerCopies (s.answerCopy i c k kept) i c kept ks

/-- A request has its response: kept, and sent; a posted write's is due within 20 µs (R143, R144, R155). -/
def State.respond (s : State) (c : Cell) (resp : Cell) : State :=
  match s.dstFind c.sring.toNat c.snode.toNat with
  | none => if c.op.toNat = 2 then s else (s.send resp none 20).1
  | some i =>
    let (s, resp) := if c.op.toNat = 2 then (s, resp) else s.withFlow resp
    let e := s.dst i
    let kept := e.kept.map fun k => if k.1 = c.seq.toNat then (k.1, some resp) else k
    let s := s.setDst i { e with kept := kept, copies := [], ackDue := c.op.toNat == 2 }
    let s := if c.op.toNat = 2 then s else (s.sendBuilt resp none 20).1
    s.answerCopies i c resp e.copies

/-- EXPECT advances past a request that starts to apply. -/
def State.advance (s : State) (i : Nat) (c : Cell) : State :=
  let e := s.dst i
  s.setDst i { e with expect := (e.expect + 1) % 65536, kept := ((c.seq.toNat, none) :: e.kept).take 8, copies := [] }

/-- NOSYNC to a source without an entry (R143). -/
def State.answerNosync (s : State) (c : Cell) : State :=
  ((s.bump F.RG_NOSYNC_COUNT).send (s.response c 9 c.seq.toNat []) none 20).1

/-- The request in order is applied and answered. What takes the hub down (R388, R389) or ends its membership (R127) acts after its answer
has gone (R389, R434). -/
def State.applyInOrder (s : State) (i : Nat) (c : Cell) (bad : Bool) (poisonAt : Option Nat) : State :=
  let s := s.advance i c
  if !c.wellFormed then s.used.respond c (s.responseTo c .badOp 0 [])
  else
    let up := s.sup.mcUp
    match s.applyReq c.from c.req bad poisonAt (.ring c) with
    | (t, .done st data) =>
      if up && !t.sup.mcUp then
        let (_, ringB) := s.send (s.responseTo c st 0 data) none 20
        if c.op.toNat = 2 then t else t.emit (.cell (if ringB then 1 else 0) (s.responseTo c st 0 data))
      else if !t.isAssigned then ((s.respond c (s.responseTo c st 0 data)).applyReq c.from c.req bad poisonAt (.ring c)).1
      else t.respond c (t.responseTo c st 0 data)
    | (t, .bridge j) =>
      match t.bridgePut j with
      | (t, true) => if j.posted then t.respond c (t.responseTo c .ok 0 []) else t
      | (t, false) => t

/-- A request cell at its destination (R143). A hub without a number applies nothing (R30). A request that must wait stays among the cells
delivered. -/
def State.request (s : State) (c : Cell) (bad : Bool) (poisonAt : Option Nat) : State :=
  if !s.isAssigned then s.takeCell c
  else
    match s.dstFind c.sring.toNat c.snode.toNat with
    | none => (s.takeCell c).answerNosync c
    | some i =>
      let e := s.dst i
      let dist := (c.seq.toNat + 65536 - e.expect) % 65536
      if dist = 0 then if s.mustWait e c then s else (s.takeCell c).applyInOrder i c bad poisonAt
      else if 65528 ≤ dist then (s.takeCell c).duplicate i c false
      else (s.takeCell c).bump F.RG_XOOSEQ_COUNT

/-- SKIP at the destination (R143). -/
def State.skipAt (s : State) (c : Cell) : State :=
  if !s.isAssigned then s.takeCell c
  else
    match s.dstFind c.sring.toNat c.snode.toNat with
    | none => (s.takeCell c).answerNosync c
    | some i =>
      let e := s.dst i
      let dist := (c.seq.toNat + 65536 - e.expect) % 65536
      if dist = 0 then
        if e.applying then s
        else
          let s := (s.takeCell c).advance i c
          let resp := s.response c 10 c.seq.toNat (respBlock s.freeW.toNat 9 0 0)
          s.used.respond c resp
      else if 65528 ≤ dist then (s.takeCell c).duplicate i c true
      else (s.takeCell c).bump F.RG_XOOSEQ_COUNT

/-- The lowest free destination entry. -/
def State.dstFree (s : State) : Option Nat := (List.range 256).find? fun i => !(s.dst i).used

/-- SYNC at the destination (R140, R143): SYNCED with OLD and OLDVALID, EXPECT becomes BASE. -/
def State.syncAt (s : State) (c : Cell) : State :=
  let ans (s : State) (i : Nat) (old : Nat) (valid : Bool) : State :=
    let s := s.setDst i { DstEntry.init with used := true, pring := c.sring.toNat, pnode := c.snode.toNat, expect := c.seq.toNat }
    (s.send (s.response c 8 c.seq.toNat (beBytes (old + b2n valid * 65536) 4)) none 20).1
  match s.dstFind c.sring.toNat c.snode.toNat with
  | some i => ans s i (s.dst i).expect true
  | none =>
    match s.dstFree with
    | some i => ans s i 0 false
    | none => (s.bump F.RG_PEERFULL_COUNT).answerNosync c

/-! ### The source side (R140 to R142) -/

def State.srcE (s : State) (i : Nat) : SrcEntry := Tbl.get SrcEntry.init i s.pair.src

def State.setSrc (s : State) (i : Nat) (e : SrcEntry) : State := { s with pair := { s.pair with src := Tbl.put SrcEntry.init i e s.pair.src } }

/-- The entry towards a destination. -/
def State.srcFind (s : State) (ring node : Nat) : Option Nat :=
  (s.pair.src.find? fun e => e.2.state != .free && e.2.pring == ring && e.2.pnode == node).map (·.1)

/-- The lowest free source entry. -/
def State.srcFree (s : State) : Option Nat := (List.range 256).find? fun i => (s.srcE i).state == .free

/-- SYNC goes out with a BASE: on the ring R96 chooses, or on the one given. -/
def State.syncSendTo (s : State) (i : Nat) (force : Option Bool) : State :=
  let e := s.srcE i
  let (s, b) := s.send (s.mkCell 1 4 8 e.pring e.pnode e.base []) force 20
  s.setSrc i { s.srcE i with lastB := b, timer := true }

/-- sync(base). -/
def State.syncStart (s : State) (i base : Nat) : State :=
  (s.setSrc i { s.srcE i with state := .sync, base := base % 65536, tries := 0 }).syncSendTo i none

/-- A request gets its number and its FLOW, is kept and is sent; a posted write is kept without its payload (R141). -/
def State.sendReq (s : State) (i : Nat) (c : Cell) (posted : Bool) (w : Waiter) : State :=
  let e := s.srcE i
  let (s, c) := s.withFlow { c with seq := BitVec.ofNat 16 e.next }
  let (s, b) := s.sendBuilt c none 20
  let k : Kept := { cell := if posted then { c with payload := c.payload.take 16 } else c, posted := posted, waiter := w, sentB := b }
  s.setSrc i { e with next := (e.next + 1) % 65536, kept := e.kept ++ [k], timer := true }

/-- Requests that wait go while the entry is active and fewer than 8 are kept. -/
def State.drain (s : State) (i : Nat) : Nat → State
  | 0 => s
  | n + 1 =>
    let e := s.srcE i
    match e.waiting with
    | (c, posted, w) :: r =>
      if e.state == .active && decide (e.kept.length < 8) then
        State.drain ((s.setSrc i { e with waiting := r }).sendReq i c posted w) i n
      else s
    | [] => s

/-- A request that cannot be sent completes UNREACHABLE; a far write is logged as not sent (R142, R152, R172). -/
def State.refuseReq (s : State) (w : Waiter) (c : Cell) : State :=
  match w with
  | .farWrite n addr count => s.farUnsent n addr count
  | w => s.completeTo w c .unreachable []

/-- A request that finds its destination's entry, or a free one; none: it finds no entry. -/
def State.place (s : State) (c : Cell) (posted : Bool) (w : Waiter) : Option State :=
  match s.srcFind c.dring.toNat c.dnode.toNat with
  | some i =>
    let e := s.srcE i
    if e.state = .dead then some (s.refuseReq w c)
    else some ((s.setSrc i { e with waiting := e.waiting ++ [(c, posted, w)] }).drain i 8)
  | none =>
    match s.srcFree with
    | some i =>
      some ((s.setSrc i { SrcEntry.init with pring := c.dring.toNat, pnode := c.dnode.toNat, waiting := [(c, posted, w)] }).syncStart i
        (s.clock.tick % 65536))
    | none => none

/-- A request to another node (R140, R142, R152): UNREACHABLE without a node number or a route; it waits where the table is full. -/
def State.issue (s : State) (c : Cell) (posted : Bool) (w : Waiter) : State :=
  if !s.isAssigned || s.unreachable c.dring.toNat then s.refuseReq w c
  else
    match (if s.pair.queue.any fun q => q.1.dring == c.dring && q.1.dnode == c.dnode then none else s.place c posted w) with
    | some s => s
    | none => (({ s with pair := { s.pair with queue := s.pair.queue ++ [(c, posted, w)] } }).bump F.RG_PEERFULL_COUNT)

/-- Requests that waited for an entry try again, in order. -/
def State.requeue (s : State) : List (Cell × Bool × Waiter) → State
  | [] => s
  | (c, posted, w) :: r =>
    State.requeue (match s.place c posted w with
      | some s => s
      | none => { s with pair := { s.pair with queue := s.pair.queue ++ [(c, posted, w)] } }) r

/-- An entry has become free. -/
def State.entryFreed (s : State) : State :=
  let q := s.pair.queue
  ({ s with pair := { s.pair with queue := [] } }).requeue q

/-- The outcomes of a failed window once SYNCED tells OLD, or that the destination had no entry (R145). -/
def State.settle (s : State) (old : Nat) (valid : Bool) : List Kept → State
  | [] => s
  | k :: ks =>
    let d := (old + 65536 - k.cell.seq.toNat) % 65536
    let before := decide (1 ≤ d) && decide (d < 32768)
    State.settle (if !valid then s.outcomeEvent k.cell (if k.posted then 8 else 11)
      else if k.posted then (if before then s else s.outcomeEvent k.cell 7)
      else s.outcomeEvent k.cell (if before then 9 else 10)) old valid ks

/-- Kept non-posted requests complete with a status. -/
def State.failKept (s : State) (why : Status) : List Kept → State
  | [] => s
  | k :: ks => State.failKept (if k.posted then s else s.completeTo k.waiter k.cell why []) why ks

/-- fail_window(why) (R142): after RESTARTED no SYNC can settle an outcome, so each is unknown (R145). -/
def State.failWindow (s : State) (i : Nat) (why : Status) : State :=
  let e := s.srcE i
  let s := s.bump F.RG_XFAIL_COUNT
  let s := (s.setSrc i { e with kept := [], failed := if why = .timeout then e.kept else [] }).failKept why e.kept
  let s := if why = .timeout then s else s.failedUnknown e.kept
  s.syncStart i (e.next + 8)

/-- The entry becomes DEAD: outcomes stay unknown, and what waited is UNREACHABLE (R142, R145). -/
def State.toDead (s : State) (i : Nat) : State :=
  let e := s.srcE i
  let s := (s.setSrc i { e with state := .dead, timer := false, failed := [], waiting := [] }).failedUnknown e.failed
  s.unsent e.waiting

/-- A kept request is sent again on the other ring, its FLOW as it was (R95): a posted one as a SKIP, a cell of its own. -/
def State.resendKept (s : State) (i : Nat) : List Kept → List Kept → State
  | acc, [] => s.setSrc i { s.srcE i with kept := acc }
  | acc, k :: ks =>
    let b := !k.sentB
    let (s, c) := if k.posted then s.withFlow (s.mkCell 1 4 9 k.cell.dring.toNat k.cell.dnode.toNat k.cell.seq.toNat []) else (s, k.cell)
    State.resendKept (s.sendBuilt c (some b) 20).1 i (acc ++ [{ k with sentB := b }]) ks

/-- RESPONSE_TIMEOUT (R142): the timer wins. -/
def State.timeoutAt (s : State) (i : Nat) : State :=
  let e := s.srcE i
  if !e.timer then s
  else
    let e := { e with race := 2, tries := e.tries + 1 }
    let s := s.setSrc i e
    let out := decide (s.rd F.RG_XCFG_RETRIES < e.tries)
    match e.state with
    | .active => if out then s.failWindow i .timeout else (s.bump F.RG_XRETRY_COUNT).resendKept i [] e.kept
    | _ => if out then s.toDead i else s.syncSendTo i (some !e.lastB)

/-! ### Responses at the source (R142, R144, R145) -/

/-- Where a response belongs: the entry of its sender, while its timer runs. -/
def State.responseEntry (s : State) (c : Cell) : Option Nat :=
  match s.srcFind c.sring.toNat c.snode.toNat with
  | some i => if (s.srcE i).timer then some i else none
  | none => none

/-- A response that completes nothing (R142). -/
def State.lateResponse (s : State) : State := s.bump F.RG_XLATE_COUNT

/-- A kept entry that a response completes: the one of its number, and posted ones up to it. -/
def completes (c : Cell) (k : Kept) : Bool :=
  if c.op = 2 then k.posted && decide ((c.seq.toNat + 65536 - k.cell.seq.toNat) % 65536 < 32768)
  else k.cell.seq == c.seq || (k.posted && decide ((c.seq.toNat + 65536 - k.cell.seq.toNat) % 65536 < 32768))

/-- A completed entry reports: a non-posted one its status and data, a SKIPPED posted one that it is lost. -/
def State.completeKept (s : State) (c : Cell) : List Kept → State
  | [] => s
  | k :: ks =>
    State.completeKept
      (if k.posted then if c.op = 10 && k.cell.seq == c.seq && beAt c.payload 4 1 == 9 then s.outcomeEvent k.cell 7 else s.completeTo k.waiter k.cell .ok []
      else s.completeTo k.waiter k.cell (statusOf (beAt c.payload 4 1)) (c.payload.drop 8)) c ks

/-- A response, an ACK or a SKIPPED arrives (R142). -/
def State.responseAt (s : State) (c : Cell) : State :=
  match s.responseEntry c with
  | none => s.lateResponse
  | some i =>
    let e := s.srcE i
    let done := e.kept.filter (completes c)
    if e.state != .active || done.isEmpty then s.lateResponse
    else
      let rest := e.kept.filter fun k => !completes c k
      let s := s.setSrc i { e with kept := rest, race := 1, tries := 0, timer := !rest.isEmpty }
      (s.completeKept c done).drain i 8

/-- SYNCED: NEXT becomes BASE, outcomes are settled, what waits goes. -/
def State.syncedAt (s : State) (c : Cell) : State :=
  match s.responseEntry c with
  | none => s.lateResponse
  | some i =>
    let e := s.srcE i
    if (e.state != .sync && e.state != .dead) || e.base != c.seq.toNat then s.lateResponse
    else
      let n := beAt c.payload 0 4
      let s := s.setSrc i { e with state := .active, next := e.base, race := 1, tries := 0, timer := false, failed := [] }
      (s.settle (n % 65536) (n / 65536 % 2 == 1) e.failed).drain i 8

/-- NOSYNC: the window fails with RESTARTED; a SYNC so answered leaves the entry DEAD. -/
def State.nosyncAt (s : State) (c : Cell) : State :=
  match s.responseEntry c with
  | none => s.lateResponse
  | some i =>
    let e := s.srcE i
    if e.state = .active then
      if e.kept.any fun k => k.cell.seq == c.seq then (s.setSrc i { e with race := 1 }).failWindow i .restarted else s.lateResponse
    else if e.base = c.seq.toNat then (s.setSrc i { e with race := 1 }).toDead i
    else s.lateResponse

/-! ### Requests of local masters (R29, R30, R142) -/

/-- The request cell of a local master: the block of R150 and the data. -/
def State.reqCell (s : State) (op addr count size tag : Nat) (data : List Byte) : Cell :=
  s.mkCell 1 4 op (addr / 2 ^ 60) (bitsOf addr 48 12) 0
    (beBytes addr 8 ++ beBytes count 2 ++ beBytes size 1 ++ beBytes 0 1 ++ beBytes tag 4 ++ data)

/-- A request to the hub's own units by class and offset: no ring has part in it. -/
def State.requestHome (s : State) (src : Src) (r : Req) (bad : Bool) (w : Waiter) (c : Cell) : State :=
  match s.applyReq src r bad none (.home w) with
  | (s, .done st data) => if r.op = 2 then s else s.completeTo w c st data
  | (s, .bridge j) => (s.bridgePut j).1

/-- A request by site address (R29): to the own units, or as a transaction; `bad`: memory of the hub's own that it reads fails parity. -/
def State.requestSite (s : State) (src : Src) (w : Waiter) (c : Cell) (bad : Bool) : State :=
  if s.isAssigned && c.dring.toNat == s.ownRing && c.dnode.toNat == s.ownNode then
    if c.wellFormed then s.requestHome src c.req bad w c else s.completeTo w c .badOp []
  else s.issue c (c.op.toNat == 2) w

/-! ### Bulk requests of S, one at a time (R322, R323) -/

/-- The entries that a TALLY message returns: from its first number, none above TL_HEAD. -/
def State.tallyRead (s : State) (first count : Nat) : List Byte :=
  (List.range (min count (s.tallyHead + 1 - first))).flatMap fun i => (s.tallyEntry (first + i)).bytes

/-- The bulk request in progress is carried out: with LOCAL, every right over the local path; otherwise as a site request. A
write that takes the hub down is answered before it acts (R434). -/
def State.bulkRun (s : State) (m : BulkMsg) : State :=
  if m.bad then s.bulkAnswer .badOp []
  else if m.op = 3 then if m.addr < s.tallyTail then s.bulkAnswer .addrErr [] else s.bulkAnswer .ok (s.tallyRead m.addr m.count)
  else if m.op = 4 then (s.emit (.console m.data)).bulkAnswer .ok []
  else
    let c := s.reqCell (m.op - 1) m.addr m.count 0 m.tag m.data
    let t := if m.loc then s.requestHome .s c.req m.parityBad (.master .s) c else s.requestSite .s (.master .s) c m.parityBad
    if s.sup.mcUp && !t.sup.mcUp then t.emit (.usbBulk (bulkBytes m .ok [])) else t

/-- The next bulk requests are carried out while none is in progress. -/
def State.bulkGo (s : State) : Nat → State
  | 0 => s
  | n + 1 =>
    match s.usb.busy, s.usb.bulk with
    | none, m :: r => State.bulkGo ({ s with usb := { s.usb with busy := some (m, false), bulk := r } }.bulkRun m) n
    | _, _ => s

/-- What follows a command that may have ended S's request: the next one starts. -/
def State.settled (s : State) : State := s.bulkGo (s.usb.bulk.length + 1)

/-! ### Rows of this chapter -/

/-- READ: `parityBad`, the memory read fails parity. -/
def execRead (c : Cell) (parityBad : Bool) (s : State) : Host.Outcome State Fault Refusal := .next (s.request c parityBad none).settled

/-- WRITE. -/
def execWrite (c : Cell) (s : State) : Host.Outcome State Fault Refusal := .next (s.request c false none).settled

/-- PWRITE: `poisonAt`, the first beat whose data fails parity on its way to the bus. -/
def execPwrite (c : Cell) (poisonAt : Option (Fin 17)) (s : State) : Host.Outcome State Fault Refusal :=
  .next (s.request c false (poisonAt.map (·.val))).settled

/-- FADD. -/
def execFadd (c : Cell) (s : State) : Host.Outcome State Fault Refusal := .next (s.request c false none).settled

/-- CSWAP. -/
def execCswap (c : Cell) (s : State) : Host.Outcome State Fault Refusal := .next (s.request c false none).settled

/-- A request of a reserved OP (R149). -/
def execReservedOpRequest (c : Cell) (s : State) : Host.Outcome State Fault Refusal := .next (s.request c false none).settled

/-- SKIP. -/
def execSkip (c : Cell) (s : State) : Host.Outcome State Fault Refusal := .next (s.skipAt c)

/-- SYNC. -/
def execSync (c : Cell) (s : State) : Host.Outcome State Fault Refusal :=
  .next (if s.isAssigned then (s.takeCell c).syncAt c else s.takeCell c)

/-- ACK_TIMER (R144). -/
def execAckTimer (i : Fin 256) (s : State) : Host.Outcome State Fault Refusal :=
  .next (if (s.dst i.val).used && (s.dst i.val).ackDue then s.sendAck i.val else s)

/-- RESPONSE_TIMEOUT. -/
def execResponseTimeout (i : Fin 256) (s : State) : Host.Outcome State Fault Refusal := .next (s.timeoutAt i.val).settled

/-- DEAD_SYNC_RETRY (R142): SYNC again with the same BASE; the entry stays DEAD until it is answered. -/
def execDeadSyncRetry (i : Fin 256) (s : State) : Host.Outcome State Fault Refusal :=
  .next (if (s.srcE i.val).state = .dead then (s.setSrc i.val { s.srcE i.val with tries := 0 }).syncSendTo i.val none else s)

/-- PAIR_ENTRY_AGE (R140): an idle source entry with an empty window, or an idle destination entry, becomes free. -/
def execPairEntryAge (dest : Bool) (i : Fin 256) (s : State) : Host.Outcome State Fault Refusal :=
  .next (if dest then if (s.dst i.val).applying then s else s.setDst i.val DstEntry.init
    else if (s.srcE i.val).state = .active && (s.srcE i.val).kept.isEmpty && (s.srcE i.val).waiting.isEmpty then
      (s.setSrc i.val SrcEntry.init).entryFreed
    else s)

/-- RDATA. -/
def execRdata (c : Cell) (s : State) : Host.Outcome State Fault Refusal := .next ((s.takeCell c).responseAt c).settled

/-- WDONE. -/
def execWdone (c : Cell) (s : State) : Host.Outcome State Fault Refusal := .next ((s.takeCell c).responseAt c).settled

/-- ACK. -/
def execAck (c : Cell) (s : State) : Host.Outcome State Fault Refusal := .next ((s.takeCell c).responseAt c).settled

/-- ATOMIC. -/
def execAtomic (c : Cell) (s : State) : Host.Outcome State Fault Refusal := .next ((s.takeCell c).responseAt c).settled

/-- SKIPPED. -/
def execSkipped (c : Cell) (s : State) : Host.Outcome State Fault Refusal := .next ((s.takeCell c).responseAt c).settled

/-- SYNCED. -/
def execSynced (c : Cell) (s : State) : Host.Outcome State Fault Refusal := .next ((s.takeCell c).syncedAt c).settled

/-- NOSYNC. -/
def execNosync (c : Cell) (s : State) : Host.Outcome State Fault Refusal := .next ((s.takeCell c).nosyncAt c).settled

/-- TRANSACTION_REQUEST; `parityBad`: memory of the hub's own that it reads fails parity (R28). OPs 8 and 9 are the hub's own, and a payload
longer than a cell carries makes no cell. -/
def execTransactionRequest (m : Src) (op : BitVec 4) (addr : BitVec 64) (count : BitVec 16) (data : List Byte) (tag : Word)
    (parityBad : Bool) (s : State) : Host.Outcome State Fault Refusal :=
  let size := if op.toNat = 3 || op.toNat = 4 then count.toNat else 0
  .next (if m.isRing then s
    else if op = 8 || op = 9 || decide (2032 < data.length) then s.emit (.answer m .badOp [])
    else s.requestSite m (.master m) (s.reqCell op.toNat addr.toNat count.toNat size tag.toNat data) parityBad)

/-- RELEASE_CELL (R127). -/
def execReleaseCell (c : Cell) (s : State) : Host.Outcome State Fault Refusal := .next (s.releaseAt c).settled

/-- COMMAND_COMPLETION (R434). -/
def execCommandCompletion (s : State) : Host.Outcome State Fault Refusal := .next s.loadOn.complete.settled

end Sys2Proof.Machine
end

