-- ==== Sys2Proof/Machine/Bridge.lean ====
section
/-! DEFINITION. The bridge to the local expansion bus: the hub as master (R160 to R168), and as target (R170 to R175). -/

namespace Sys2Proof.Machine

/-! ### The hub as master: chunks (R161, R166, R167) -/

/-- Beats of a request in all. -/
def LxbJob.beats (j : LxbJob) : Nat := (j.off + j.count - 1) / 4 - j.off / 4 + 1

/-- LXB address of a beat. -/
def State.beatAddr (s : State) (j : LxbJob) (i : Nat) : Nat := (s.rd (F.BX_WINn_BASE_BASE j.win) + (j.off / 4 + i) * 4) % 2 ^ 32

/-- The last beat that may be issued is before the first poisoned one (R168). -/
def LxbJob.lastBeat (j : LxbJob) : Nat :=
  match j.poisonAt with
  | some k => if j.posted then min j.beats k else j.beats
  | none => j.beats

/-- Beats of the chunk that starts at the next beat: one, or a burst cut at 16 beats and at 1 KiB (R167). -/
def State.chunkLen (s : State) (j : LxbJob) : Nat :=
  if s.on (F.BX_WINn_CFG_BURST j.win) then min (min 16 (j.lastBeat - j.beat)) (256 - s.beatAddr j j.beat / 4 % 256) else 1

/-- Lanes of a beat that hold bytes of the request, bit i for lane i. -/
def LxbJob.lanes (j : LxbJob) (i : Nat) : Nat :=
  ((List.range 4).map fun l =>
    let a := (j.off / 4 + i) * 4 + l
    if decide (j.off ≤ a) && decide (a < j.off + j.count) then 2 ^ l else 0).sum

/-- The bytes of a beat, lane 0 first; lanes without a byte of the request carry zeros and are not enabled. -/
def LxbJob.beatData (j : LxbJob) (i : Nat) : List Byte :=
  (List.range 4).map fun l =>
    let a := (j.off / 4 + i) * 4 + l
    if j.off ≤ a then j.data.getD (a - j.off) 0 else 0

/-- The enabled lanes that an access of a read shows in its address phase: every beat's (R161). -/
def LxbJob.readLanes (j : LxbJob) (k n : Nat) : Nat := ((List.range n).map fun i => j.lanes (k + i)).foldl (· ||| ·) 0

/-- Beat i goes on the bus; a read's beat shows its lanes only. -/
def State.beatOn (s : State) (j : LxbJob) (i : Nat) : State :=
  if j.write then s.emit (.lxbBeat (s.beatAddr j i) (j.lanes i) (j.beatData i)) else s

/-! ### How a request at the bridge ends (R165, R168) -/

/-- A posted write that failed: ERRORED of its window, the posted-error log (R168). -/
def State.postedFail (s : State) (j : LxbJob) (beat cause : Nat) : State :=
  let who := match j.src with
    | .ring r n => n.toNat + r.toNat * 4096
    | .lxb => 2 ^ 16
    | .mc0 => 2 ^ 16 + 2 ^ 17
    | .mc1 => 2 ^ 16 + 2 * 2 ^ 17
    | .s => 2 ^ 16 + 3 * 2 ^ 17
  (s.wr (F.BX_WINn_STAT_ERRORED j.win) 1).perrLog ((s.rd (F.BX_WINn_BASE_BASE j.win) + j.off) % 2 ^ 32) (who + j.win * 2 ^ 19) j.count beat cause 0

/-- The answer to a request that was not posted; DONE, the beats that stand (R165). -/
def State.jobAnswer (s : State) (j : LxbJob) (st : Status) (done : Nat) (data : List Byte) : State :=
  match j.reply with
  | .ring c => if s.isAssigned then s.respond c (s.responseTo c st done data) else s
  | .home w => s.completeTo w Cell.blank st data

/-- Held posted writes join the queue as places free (R154). -/
def State.admitHeld (s : State) : Nat → State
  | 0 => s
  | n + 1 =>
    match s.bridge.held with
    | j :: r =>
      if s.postedQueued < 8 then
        let s := { s with bridge := { s.bridge with held := r, jobs := s.bridge.jobs ++ [j] } }
        let s := match j.reply with
          | .ring c => if s.isAssigned then s.respond c (s.responseTo c .ok 0 []) else s
          | .home _ => s
        State.admitHeld s n
      else s
    | [] => s

/-- The request on the bus is over: the bus is free, the next one moves up. -/
def State.jobOver (s : State) : State :=
  ({ s with bridge := { s.bridge with jobs := s.bridge.jobs.tail, owner := .idle, left := 0 } }).admitHeld 8

/-- The request on the bus has failed at a beat. -/
def State.jobFail (s : State) (j : LxbJob) (st : Status) (cause : Nat) : State :=
  let s := s.jobOver
  if j.posted then s.postedFail j j.beat cause else s.jobAnswer j st j.beat []

/-! ### Rows of the hub as master (R160 to R165) -/

/-- The head request starts its next chunk; a posted write that is at its poisoned beat fails without one (R168). -/
def State.chunkStart (s : State) : Nat → State
  | 0 => s
  | n + 1 =>
    match s.bridge.jobs with
    | [] => { s with bridge := { s.bridge with owner := .idle } }
    | j :: _ =>
      if j.lastBeat ≤ j.beat then State.chunkStart (s.jobFail j .lxbErr 3) n
      else
        let k := s.chunkLen j
        let s := { s with bridge := { s.bridge with owner := .hub, lastExt := false, left := k } }
        let s := s.emit (.lxbAddr j.win (s.beatAddr j j.beat) j.write (k - 1))
        if j.write then s.beatOn j j.beat else s.emit (.lxbBeat (s.beatAddr j j.beat) (j.readLanes j.beat k) [])

/-- LXB_GRANT (R160): once an access has ended the bus goes to the external master if it asks and TARGET is set, and otherwise to the hub's
queue, by turns while both have work. -/
def execLxbGrant (reqLow : Bool) (s : State) : Host.Outcome State Fault Refusal :=
  .next (if s.bridge.owner != .idle || !s.clocked 5 then s
    else
      let ext := reqLow && s.on F.BX_LCFG_TARGET
      if ext && (s.bridge.jobs.isEmpty || !s.bridge.lastExt) then
        { s with bridge := { s.bridge with owner := .ext, lastExt := true } }
      else s.chunkStart (s.bridge.jobs.length + 9)).settled

/-- The head request, while one of its beats is on the bus. -/
def State.onBus (s : State) : Option LxbJob := if s.bridge.owner = .hub then s.bridge.jobs.head? else none

/-- The bytes of the request that a read beat brings. -/
def LxbJob.beatBytes (j : LxbJob) (w : Word) : List Byte :=
  ((List.range 4).filter fun l => bitsOf (j.lanes j.beat) l 1 == 1).map fun l => w.extractLsb' (8 * l) 8

/-- LXB_BEAT_END (R162 to R164): RDY_N wins its race. -/
def execLxbBeatEnd (data : Word) (s : State) : Host.Outcome State Fault Refusal :=
  .next (match s.onBus with
    | none => s
    | some j =>
      let s := s.wr (F.BX_WINn_STAT_WAITRACE j.win) 1
      let j' := { j with beat := j.beat + 1, got := if j.write then j.got else j.got ++ j.beatBytes data }
      if j'.beats ≤ j'.beat then
        let s := s.jobOver
        if j.posted then s else s.jobAnswer j' .ok 0 j'.got
      else
        let left := s.bridge.left - 1
        let s := { s with bridge := { s.bridge with jobs := j' :: s.bridge.jobs.tail, left := left, owner := if left = 0 then .idle else .hub } }
        if left = 0 then s else s.beatOn j' j'.beat).settled

/-- LXB_ERR (R164, R165): ERR_N ends the beat, the access and the rest of the request. -/
def execLxbErr (s : State) : Host.Outcome State Fault Refusal :=
  .next (match s.onBus with
    | none => s
    | some j =>
      let s := (s.bump F.BX_LXBERR_COUNT).wr F.BX_ISTAT_LXBERR 1
      (s.wr (F.BX_WINn_STAT_WAITRACE j.win) 1).jobFail j .lxbErr 1).settled

/-- LXB_WAIT_TIMEOUT (R164): the wait limit wins. -/
def execLxbWaitTimeout (s : State) : Host.Outcome State Fault Refusal :=
  .next (match s.onBus with
    | none => s
    | some j =>
      let s := (s.bump F.BX_WAITOUT_COUNT).wr F.BX_ISTAT_WAITOUT 1
      (s.wr (F.BX_WINn_STAT_WAITRACE j.win) 2).jobFail j .lxbWait 2).settled

/-- LXB_LATE_READY (R164): RDY_N or ERR_N sampled low outside every data phase, the bus idle, in an address phase or turning round. -/
def execLxbLateReady (s : State) : Host.Outcome State Fault Refusal := .next (s.bump F.BX_LATE_COUNT)

/-! ### The hub as target: its own units (R170, R171) -/

/-- The external master's access ends. -/
def State.extDone (s : State) (o : Out) : State := ({ s with bridge := { s.bridge with owner := .idle } }).emit o

/-- Beats of a read, each its own access, up to the first that fails: the bytes read, and the failing beat if there is one. `bad`: the beat whose
memory read fails parity. -/
def State.lxbReads (s : State) (cls off : Nat) (bad : Option Nat) (acc : List Byte) : Nat → List (BitVec 4 × Word) → State × List Byte × Option Nat
  | _, [] => (s, acc, none)
  | i, (be, _) :: r =>
    if be != 15 && decide (cls ≤ 0x0D) then (s, acc, some i)
    else
      match s.unitRead .lxb cls (off + 4 * i) 4 (bad == some i) with
      | (s, .ok, bs) => State.lxbReads s cls off bad (acc ++ bs) (i + 1) r
      | (s, _, _) => (s, acc, some i)

/-- Beats of a write, each its own write, up to the first that fails. -/
def State.lxbWrites (s : State) (cls off : Nat) : Nat → List (BitVec 4 × Word) → State × Option Nat
  | _, [] => (s, none)
  | i, (be, w) :: r =>
    if be != 15 then (s, some i)
    else
      match s.unitWrite .lxb cls (off + 4 * i) (leBytes w.toNat 4) with
      | (s, .ok) => State.lxbWrites s cls off (i + 1) r
      | (s, _) => (s, some i)

/-- Eight whole words at NC_CMD0: a command (R432). -/
def isCommand (cls off : Nat) (beats : List (BitVec 4 × Word)) : Bool :=
  cls == 0 && off == 0x100 && beats.length == 8 && beats.all (·.1 == 15)

/-- LXB_LOCAL_ACCESS: the external master, holding the bus, reads or writes the hub's own units; `beats`: enabled lanes and data (a read has
no data); `parityBad`: the beat whose memory read fails parity. -/
def execLxbLocalAccess (addr : Word) (wr : Bool) (beats : List (BitVec 4 × Word)) (parityBad : Option (Fin 16)) (s : State) :
    Host.Outcome State Fault Refusal :=
  let top := addr.toNat / 2 ^ 28
  let cls := bitsOf addr.toNat 20 8
  let off := bitsOf addr.toNat 0 20
  .next (if s.bridge.owner != .ext || decide (8 ≤ top) then s
    else if top != 0 || decide (0x0E < cls) then s.extDone (.lxbErr 0)
    else if wr && isCommand cls off beats then
      let x : State × Status := s.mailbox { src := .lxb, words := beats.map (·.2) } true
      if x.2 = .ok then ((s.extDone (.lxbReady [])).mailbox { src := .lxb, words := beats.map (·.2) } true).1 else x.1.extDone (.lxbErr 0)
    else if wr then
      match s.lxbWrites cls off 0 beats with
      | (s, none) => s.extDone (.lxbReady [])
      | (s, some k) => s.extDone (.lxbErr k)
    else
      match s.lxbReads cls off (parityBad.map (·.val)) [] 0 beats with
      | (s, bs, none) => s.extDone (.lxbReady bs)
      | (s, bs, some k) => (s.emit (.lxbReady bs)).extDone (.lxbErr k)).settled

/-! ### The hub as target: far windows (R170, R172 to R174) -/

/-- The site address that an LXB address of a far window reaches. -/
def State.farAddr (s : State) (addr : Nat) : Nat :=
  let n := bitsOf addr 28 3
  (s.rd (F.BX_FARn_BASEH_BASE n) * 2 ^ 32 + s.rd (F.BX_FARn_BASEL_BASE n)) + addr % 2 ^ 28

/-- Runs of contiguous enabled bytes of a write: first byte's offset from the access and the bytes. -/
def runsOf (pos : Nat) (cur : Option (Nat × List Byte)) : List (Bool × Byte) → List (Nat × List Byte)
  | [] => match cur with | some c => [c] | none => []
  | (true, b) :: r =>
    match cur with
    | some (p, bs) => runsOf (pos + 1) (some (p, bs ++ [b])) r
    | none => runsOf (pos + 1) (some (pos, [b])) r
  | (false, _) :: r =>
    match cur with
    | some c => c :: runsOf (pos + 1) none r
    | none => runsOf (pos + 1) none r

/-- Bytes of a write in address order, with their enables. -/
def beatLanes (beats : List (BitVec 4 × Word)) : List (Bool × Byte) :=
  beats.flatMap fun b => (List.range 4).map fun l => (b.1.getLsbD l, b.2.extractLsb' (8 * l) 8)

/-- Entries of the far write buffer in use: far writes not yet sent. -/
def State.farUsed (s : State) : Nat :=
  let f := fun (e : Cell × Bool × Waiter) => match e.2.2 with | .farWrite _ _ _ => true | _ => false
  ((s.pair.src.flatMap fun e => e.2.waiting.filter f) ++ s.pair.queue.filter f).length

/-- Each run of a far write goes as PWRITE, or as WRITE where NP is set (R172). -/
def State.farSend (s : State) (n addr : Nat) : List (Nat × List Byte) → State
  | [] => s
  | (p, bs) :: r =>
    let op := if s.on (F.BX_FARn_CFG_NP n) then 1 else 2
    let c := s.reqCell op (s.farAddr addr + p) bs.length 0 0 bs
    State.farSend (s.requestSite .lxb (.farWrite n (addr + p) bs.length) c false) n addr r

/-- RETRY_N. -/
def State.retry (s : State) : State := (s.bump F.BX_RETRIES_COUNT).extDone .lxbRetry

/-- FAR_WRITE (R172). -/
def execFarWrite (addr : Word) (beats : List (BitVec 4 × Word)) (s : State) : Host.Outcome State Fault Refusal :=
  let n := bitsOf addr.toNat 28 3
  let runs := runsOf 0 none (beatLanes beats)
  .next (if s.bridge.owner != .ext || decide (addr.toNat < 2 ^ 31) then s
    else if !s.on (F.BX_FARn_CFG_ENABLE n) then s.extDone (.lxbErr 0)
    else if 16 < s.farUsed + runs.length then (s.bump F.BX_PWFULL_COUNT).retry
    else (s.extDone (.lxbReady [])).farSend n addr.toNat runs)

/-- The bytes that a far read covers: from the lowest lane enabled to the highest of the last beat; an access that enables none covers its
words (assumption 15). -/
def coveredOf (bl be : Nat) : Nat × Nat :=
  let lanes := if be = 0 then 15 else be
  let lo := if lanes % 2 = 1 then 0 else if lanes / 2 % 2 = 1 then 1 else if lanes / 4 % 2 = 1 then 2 else 3
  let hi := if lanes / 8 = 1 then 3 else if lanes / 4 % 2 = 1 then 2 else if lanes / 2 % 2 = 1 then 1 else 0
  (lo, 4 * bl + hi - lo + 1)

/-- A delayed-read slot. -/
def State.slot (s : State) (d : Nat) : DrSlot := Tbl.get DrSlot.init d s.bridge.slots

def State.setSlot (s : State) (d : Nat) (x : DrSlot) : State :=
  { s with bridge := { s.bridge with slots := Tbl.put DrSlot.init d x s.bridge.slots } }

/-- A delayed read starts in slot d: recorded, and its READ sent (R173). -/
def State.delayedStart (s : State) (d addr bl be : Nat) : State :=
  let id := s.bridge.nextId
  let s := s.setSlot d { state := 1, addr := addr, bl := bl, be := be, data := [], id := id }
  let s := { s with bridge := { s.bridge with nextId := id + 1 } }
  let s := (s.wr (F.BX_DRd_STAT_STATE d) 1).wr (F.BX_DRd_STAT_WINDOW d) (bitsOf addr 28 3)
  let (lo, k) := coveredOf bl be
  s.requestSite .lxb (.slot d id) (s.reqCell 0 (s.farAddr addr + lo) k 0 0 []) false

/-- A read that matches no slot (R173, R174). -/
def State.farFirst (s : State) (addr bl be : Nat) : State :=
  let late := s.bridge.expired.contains (addr, bl, be)
  let s := if late then ({ s with bridge := { s.bridge with expired := s.bridge.expired.erase (addr, bl, be) } }).bump F.BX_LATE_COUNT else s
  match (List.range 4).find? fun d => (s.slot d).state == 0 with
  | some d => s.retry.delayedStart d addr bl be
  | none => (s.bump F.BX_DRFULL_COUNT).retry

/-- A held result is served: the matching access wins (R173, R174). STATUS and WINDOW of the freed slot stay as they were: the spec does not say
what they read then, and this is the model's choice (assumption 27). -/
def State.slotServe (s : State) (d : Nat) : State :=
  let x := s.slot d
  let st := s.rd (F.BX_DRd_STAT_STATUS d)
  let s := ((s.setSlot d DrSlot.init).wr (F.BX_DRd_STAT_STATE d) 0).wr (F.BX_DRd_STAT_OUTCOME d) 1
  s.extDone (if st = 0 then .lxbReady x.data else .lxbErr 0)

/-- FAR_READ (R173). -/
def execFarRead (addr : Word) (bl be : BitVec 4) (s : State) : Host.Outcome State Fault Refusal :=
  let n := bitsOf addr.toNat 28 3
  .next (if s.bridge.owner != .ext || decide (addr.toNat < 2 ^ 31) then s
    else if !s.on (F.BX_FARn_CFG_ENABLE n) then s.extDone (.lxbErr 0)
    else
      match (List.range 4).find? fun d =>
          (s.slot d).state != 0 && (s.slot d).addr == addr.toNat && (s.slot d).bl == bl.toNat && (s.slot d).be == be.toNat with
      | some d => if (s.slot d).state = 2 then s.slotServe d else s.retry
      | none => s.farFirst addr.toNat bl.toNat be.toNat)

/-- DELAYED_READ_RESULT (R174): the ring's result comes to a slot that awaits one. -/
def execDelayedReadResult (d : Fin 4) (status : Byte) (data : List Byte) (s : State) : Host.Outcome State Fault Refusal :=
  .next (if (s.slot d.val).state = 1 then s.slotResult d.val (s.slot d.val).id (statusOf status.toNat) data else s)

/-- DELAYED_READ_DISCARD (R174): the discard timer wins. STATUS and WINDOW stay as they were, as in `State.slotServe` (assumption 27). -/
def execDelayedReadDiscard (d : Fin 4) (s : State) : Host.Outcome State Fault Refusal :=
  let x := s.slot d.val
  .next (if x.state = 2 then
      let s := ((s.setSlot d.val DrSlot.init).wr (F.BX_DRd_STAT_STATE d.val) 0).wr (F.BX_DRd_STAT_OUTCOME d.val) 2
      let s := { s with bridge := { s.bridge with expired := s.bridge.expired ++ [(x.addr, x.bl, x.be)] } }
      (s.bump F.BX_DRDISC_COUNT).wr F.BX_ISTAT_DRDISC 1
    else s)

end Sys2Proof.Machine
end

