-- ==== Sys2Proof/Machine/Jtag.lean ====
section
/-! DEFINITION. The test access port (R490, R491). -/

namespace Sys2Proof.Machine

/-- IDCODE: version 2, part 0x1288, manufacturer 0x4D7. -/
def idcode : Nat := 0x212889AF

/-- An instruction takes effect; BYPASS and IDCODE select the register that the port then shifts out. -/
def State.jtagTake (s : State) (i : JtagInstr) : State :=
  let s := { s with jtag := i }
  match i with
  | .bypass => s.emit (.jtag 0 1)
  | .idcode => s.emit (.jtag idcode 32)
  | .samplePreload => s
  | .extest => s
  | .debug _ => s

/-- Debug instructions are served: the JTAG-lock fuse intact, debug unlocked. -/
def State.jtagDebug (s : State) : Bool := !s.otp.jtagLock && s.on F.NC_DEBUG_UNLOCKED

/-- JTAG_INSTRUCTION. A debug instruction that is not served acts as BYPASS; one that is served acts on the debug unit, of which the spec says
no more. -/
def execJtagInstruction (i : JtagInstr) (s : State) : Host.Outcome State Fault Refusal :=
  match i with
  | .debug _ => if s.jtagDebug then .refused .jtagDebug else .next (s.jtagTake .bypass)
  | i => .next (s.jtagTake i)

end Sys2Proof.Machine
end

