-- ==== Sys2Proof/Machine/Rows.lean ====
section
/-! DEFINITION. The rows that are one access of one register, and the commands of the mailbox. What the access does stands in Access.lean and
Commands.lean. -/

namespace Sys2Proof.Machine

/-! ### One access of one register -/

/-- REGISTER_WRITE: a write by class and offset (R41). -/
def execRegisterWrite (src : Src) (cls off : Nat) (v : Word) (s : State) : Host.Outcome State Fault Refusal :=
  .next (s.rowWrite src cls off [v])

/-- READ_CLEAR_REGISTER: a read by class and offset (R8). -/
def execReadClearRegister (src : Src) (cls off : Nat) (s : State) : Host.Outcome State Fault Refusal := .next (s.rowRead src cls off 1)

/-- PORT_ENABLE (R78). -/
def execPortEnable (src : Src) (p : PortU) (en : Bool) (s : State) : Host.Outcome State Fault Refusal :=
  .next (s.rowFields src [(F.RGp_CTL_ENABLE p.val, b2n en)])

/-- RETRAIN (R78). -/
def execRetrain (src : Src) (p : PortU) (s : State) : Host.Outcome State Fault Refusal :=
  .next (s.rowFields src [(F.RGp_CTL_RETRAIN p.val, 1)])

/-- I2C_TRANSFER (R85). -/
def execI2cTransfer (src : Src) (p : PortR) (addr : Byte) (dev wr : Bool) (wdata : Byte) (s : State) : Host.Outcome State Fault Refusal :=
  .next (s.rowFields src [(F.RGp_I2C_ADDR p.val, addr.toNat), (F.RGp_I2C_DEV p.val, b2n dev), (F.RGp_I2C_WR p.val, b2n wr),
    (F.RGp_I2C_WDATA p.val, wdata.toNat), (F.RGp_I2C_BUSY p.val, 1)])

/-- ENUM_START (R117). -/
def execEnumStart (src : Src) (s : State) : Host.Outcome State Fault Refusal := .next (s.rowFields src [(F.RG_ENUM_START, 1)])

/-- REPORT_POP: a read of RG_RPT5 (R121). -/
def execReportPop (src : Src) (s : State) : Host.Outcome State Fault Refusal := .next (s.rowReadF src F.RG_RPT5_DATA)

/-- HASH_SWITCH: SELh is toggled (R192). -/
def execHashSwitch (src : Src) (h : Fin 3) (s : State) : Host.Outcome State Fault Refusal :=
  .next (s.rowFields src [(F.SW_HASHCTL_SEL, s.rd F.SW_HASHCTL_SEL ^^^ 2 ^ h.val)])

/-- FDB_ADD_STATIC (R198). -/
def execFdbAddStatic (src : Src) (s : State) : Host.Outcome State Fault Refusal :=
  .next (s.rowFields src [(F.SW_FDBCMD_OP, 1), (F.SW_FDBCMD_BUSY, 1)])

/-- FDB_DELETE (R198). -/
def execFdbDelete (src : Src) (s : State) : Host.Outcome State Fault Refusal :=
  .next (s.rowFields src [(F.SW_FDBCMD_OP, 2), (F.SW_FDBCMD_BUSY, 1)])

/-- FDB_LOOKUP (R198). -/
def execFdbLookup (src : Src) (s : State) : Host.Outcome State Fault Refusal :=
  .next (s.rowFields src [(F.SW_FDBCMD_OP, 3), (F.SW_FDBCMD_BUSY, 1)])

/-- FDB_FLUSH_DYNAMIC (R198). -/
def execFdbFlushDynamic (src : Src) (s : State) : Host.Outcome State Fault Refusal :=
  .next (s.rowFields src [(F.SW_FDBCMD_OP, 4), (F.SW_FDBCMD_BUSY, 1)])

/-- FDB_FLUSH_ALL (R198). -/
def execFdbFlushAll (src : Src) (s : State) : Host.Outcome State Fault Refusal :=
  .next (s.rowFields src [(F.SW_FDBCMD_OP, 5), (F.SW_FDBCMD_BUSY, 1)])

/-- PORT_DISABLE (R202). -/
def execPortDisable (src : Src) (n : Fin 17) (s : State) : Host.Outcome State Fault Refusal :=
  .next (s.rowFields src [(F.SW_PCFGn_ENABLE (n.val + 2), 0)])

/-- GATE_ARM (R215). -/
def execGateArm (src : Src) (n : Fin 17) (plist : Bool) (s : State) : Host.Outcome State Fault Refusal :=
  .next (s.rowFields src [(F.SW_GCTLn_ARM (n.val + 2), 1), (F.SW_GCTLn_PLIST (n.val + 2), b2n plist)])

/-- GATE_DISARM (R217). -/
def execGateDisarm (src : Src) (n : Fin 17) (s : State) : Host.Outcome State Fault Refusal :=
  .next (s.rowFields src [(F.SW_GCTLn_DISARM (n.val + 2), 1)])

/-- GATE_OFF (R215). -/
def execGateOff (src : Src) (n : Fin 17) (s : State) : Host.Outcome State Fault Refusal :=
  .next (s.rowFields src [(F.SW_GCTLn_OFF (n.val + 2), 1)])

/-- TIME_READ_LATCH: a read of TM_SEC or TM_SEC48L (R227). -/
def execTimeReadLatch (src : Src) (sec48 : Bool) (s : State) : Host.Outcome State Fault Refusal :=
  .next (s.rowReadF src (if sec48 then F.TM_SEC48L_SEC else F.TM_SEC_SEC))

/-- SNAP (R227). -/
def execSnap (src : Src) (s : State) : Host.Outcome State Fault Refusal := .next (s.rowFields src [(F.TM_CTL_SNAP, 1)])

/-- TIME_STEP (R229). -/
def execTimeStep (src : Src) (s : State) : Host.Outcome State Fault Refusal := .next (s.rowFields src [(F.TM_CTL_STEP, 1)])

/-- TX_STAMP_POP: a read of TM_TXIDn (R243). -/
def execTxStampPop (src : Src) (e : Fin 16) (s : State) : Host.Outcome State Fault Refusal :=
  .next (s.rowReadF src (F.TM_TXIDn_SEQID e.val))

/-- COMPARE_ARM (R244). -/
def execCompareArm (src : Src) (k : Fin 32) (s : State) : Host.Outcome State Fault Refusal :=
  .next (s.rowFields src [(F.TM_CMPk_CFG_ARM k.val, 1)])

/-- COMPARE_DISARM (R245). -/
def execCompareDisarm (src : Src) (k : Fin 32) (s : State) : Host.Outcome State Fault Refusal :=
  .next (s.rowFields src [(F.TM_CMPk_CFG_DISARM k.val, 1)])

/-- CAPTURE_POP: a read of TM_CAPc_NS (R246). -/
def execCapturePop (src : Src) (c : Fin 4) (s : State) : Host.Outcome State Fault Refusal :=
  .next (s.rowReadF src (F.TM_CAPc_NS_NS c.val))

/-- WEAVER_START (R269). -/
def execWeaverStart (src : Src) (n : Fin 128) (s : State) : Host.Outcome State Fault Refusal :=
  .next (s.rowFields src [(F.WVn_CTL_START n.val, 1)])

/-- WEAVER_STOP (R271). -/
def execWeaverStop (src : Src) (n : Fin 128) (s : State) : Host.Outcome State Fault Refusal :=
  .next (s.rowFields src [(F.WVn_CTL_STOP n.val, 1)])

/-- BASKET_START (R269). -/
def execBasketStart (src : Src) (m : Fin 16) (mask : Byte) (s : State) : Host.Outcome State Fault Refusal :=
  .next (s.rowFields src [(F.BKm_START_MASK m.val, mask.toNat)])

/-- BASKET_STOP (R271). -/
def execBasketStop (src : Src) (m : Fin 16) (mask : Byte) (s : State) : Host.Outcome State Fault Refusal :=
  .next (s.rowFields src [(F.BKm_STOP_MASK m.val, mask.toNat)])

/-- GLOBAL_GO (R269). -/
def execGlobalGo (src : Src) (s : State) : Host.Outcome State Fault Refusal := .next (s.rowFields src [(F.BK_GCTL_GO, 1)])

/-- GLOBAL_ARM (R274). -/
def execGlobalArm (src : Src) (s : State) : Host.Outcome State Fault Refusal := .next (s.rowFields src [(F.BK_GCTL_ARM, 1)])

/-- GLOBAL_DISARM (R274). -/
def execGlobalDisarm (src : Src) (s : State) : Host.Outcome State Fault Refusal := .next (s.rowFields src [(F.BK_GCTL_DISARM, 1)])

/-- GLOBAL_STOP (R271). -/
def execGlobalStop (src : Src) (s : State) : Host.Outcome State Fault Refusal := .next (s.rowFields src [(F.BK_GCTL_STOP, 1)])

/-- CLOCK_RESTART (R276). -/
def execClockRestart (src : Src) (m : Fin 16) (mask : Byte) (s : State) : Host.Outcome State Fault Refusal :=
  .next (s.rowFields src [(F.BKm_CLKRST_MASK m.val, mask.toNat)])

/-- FLAG_SET (R288). -/
def execFlagSet (src : Src) (m : Fin 16) (flags : BitVec 16) (s : State) : Host.Outcome State Fault Refusal :=
  .next (s.rowFields src [(F.BKm_FSET_FLAGS m.val, flags.toNat)])

/-- FLAG_CLEAR (R288). -/
def execFlagClear (src : Src) (m : Fin 16) (flags : BitVec 16) (s : State) : Host.Outcome State Fault Refusal :=
  .next (s.rowFields src [(F.BKm_FLAGS_FLAGS m.val, flags.toNat)])

/-- IRQ_RAISE (R288). -/
def execIrqRaise (src : Src) (m : Fin 16) (lines : BitVec 4) (s : State) : Host.Outcome State Fault Refusal :=
  .next (s.rowFields src [(F.BKm_IRQ_LINE m.val, lines.toNat)])

/-- TX_PUSH (R266). -/
def execTxPush (src : Src) (n : Fin 128) (data : Word) (s : State) : Host.Outcome State Fault Refusal :=
  .next (s.rowFields src [(F.WVn_TXQ_DATA n.val, data.toNat)])

/-- RX_POP: a read of WVn_RXD (R267). -/
def execRxPop (src : Src) (n : Fin 128) (s : State) : Host.Outcome State Fault Refusal := .next (s.rowReadF src (F.WVn_RXD_DATA n.val))

/-- CAN_INIT (R303). -/
def execCanInit (src : Src) (k : Fin 8) (s : State) : Host.Outcome State Fault Refusal :=
  .next (s.rowFields src [(F.CFk_MODE_INIT k.val, 1)])

/-- CAN_INIT_RELEASE (R303). -/
def execCanInitRelease (src : Src) (k : Fin 8) (s : State) : Host.Outcome State Fault Refusal :=
  .next (s.rowFields src [(F.CFk_MODE_INIT k.val, 0)])

/-- CAN_TX_REQUEST (R304). -/
def execCanTxRequest (src : Src) (k : Fin 8) (mask : BitVec 3) (s : State) : Host.Outcome State Fault Refusal :=
  .next (s.rowFields src [(F.CFk_TXREQ_REQ k.val, mask.toNat)])

/-- CAN_TX_CANCEL (R307). -/
def execCanTxCancel (src : Src) (k : Fin 8) (mask : BitVec 3) (s : State) : Host.Outcome State Fault Refusal :=
  .next (s.rowFields src [(F.CFk_TXCAN_CAN k.val, mask.toNat)])

/-- CAN_RX_ACK (R311). -/
def execCanRxAck (src : Src) (k : Fin 8) (count : BitVec 7) (s : State) : Host.Outcome State Fault Refusal :=
  .next (s.rowFields src [(F.CFk_RXACK_COUNT k.val, count.toNat)])

/-- CAN_RECOVER (R315). -/
def execCanRecover (src : Src) (k : Fin 8) (s : State) : Host.Outcome State Fault Refusal :=
  .next (s.rowFields src [(F.CFk_MODE_RECOVER k.val, 1)])

/-- EVENT_PUSH: a write of EQ_PUSH3 (R343). -/
def execEventPush (src : Src) (w3 : Word) (s : State) : Host.Outcome State Fault Refusal := .next (s.rowWrite src 8 0xC [w3])

/-- EQ_MARKS_WRITE (R348). -/
def execEqMarksWrite (src : Src) (hwm lwm : BitVec 13) (s : State) : Host.Outcome State Fault Refusal :=
  .next (s.rowFields src [(F.EQ_MARKS_HWM, hwm.toNat), (F.EQ_MARKS_LWM, lwm.toNat)])

/-- BRANCH_ON (R365). -/
def execBranchOn (src : Src) (b : Fin 8) (on : Bool) (s : State) : Host.Outcome State Fault Refusal :=
  .next (s.rowFields src [(F.PW_Bb_CTL_ON b.val, b2n on)])

/-- LOADCURVE (R366). -/
def execLoadcurve (src : Src) (b : Fin 8) (s : State) : Host.Outcome State Fault Refusal :=
  .next (s.rowFields src [(F.PW_Bb_CTL_LOADCURVE b.val, 1)])

/-- RING_RESET: a write of NC_RSTREQ (R389). -/
def execRingReset (src : Src) (key : Word) (s : State) : Host.Outcome State Fault Refusal :=
  .next (s.rowFields src [(F.NC_RSTREQ_KEY, key.toNat)])

/-- CAN_RESET (R390). -/
def execCanReset (src : Src) (mask : Byte) (s : State) : Host.Outcome State Fault Refusal :=
  .next (s.rowFields src [(F.NC_URST_CAN, mask.toNat)])

/-- FIELDHUB_RESET (R390). -/
def execFieldhubReset (src : Src) (s : State) : Host.Outcome State Fault Refusal := .next (s.rowFields src [(F.NC_URST_FIELDHUB, 1)])

/-- SVC_RESET (R390). -/
def execSvcReset (src : Src) (s : State) : Host.Outcome State Fault Refusal := .next (s.rowFields src [(F.NC_URST_SVC, 1)])

/-- BRIDGE_RESET (R390). -/
def execBridgeReset (src : Src) (s : State) : Host.Outcome State Fault Refusal := .next (s.rowFields src [(F.NC_URST_BRIDGE, 1)])

/-- TIME_RESET (R390). -/
def execTimeReset (src : Src) (s : State) : Host.Outcome State Fault Refusal := .next (s.rowFields src [(F.NC_URST_TIME, 1)])

/-- UPLINK_RESET (R390). -/
def execUplinkReset (src : Src) (s : State) : Host.Outcome State Fault Refusal := .next (s.rowFields src [(F.NC_URST_UPLINK, 1)])

/-- BASKET_RESET (R390). -/
def execBasketReset (src : Src) (mask : BitVec 16) (s : State) : Host.Outcome State Fault Refusal :=
  .next (s.rowFields src [(F.NC_WRST_BASKET, mask.toNat)])

/-- EDGE_RESET (R390). -/
def execEdgeReset (src : Src) (mask : BitVec 16) (s : State) : Host.Outcome State Fault Refusal :=
  .next (s.rowFields src [(F.NC_ERST_EDGE, mask.toNat)])

/-- SPEED_MODE_WRITE (R396). -/
def execSpeedModeWrite (src : Src) (mode : BitVec 2) (s : State) : Host.Outcome State Fault Refusal :=
  .next (s.rowFields src [(F.NC_MODE_SPEED, mode.toNat)])

/-- FRAME_SUBMIT: a write of NC_FTXD3 (R448). -/
def execFrameSubmit (src : Src) (tol : Word) (s : State) : Host.Outcome State Fault Refusal :=
  .next (s.rowFields src [(F.NC_FTXD3_TOL, tol.toNat)])

/-- TALLY_HEAD_READ: a read of TL_HEADL (R450). -/
def execTallyHeadRead (src : Src) (s : State) : Host.Outcome State Fault Refusal := .next (s.rowReadF src F.TL_HEADL_SEQ)

/-- EVENT_POP: a read of EQ_POP0 (R344); `parityOk`: the entry's words pass their check (R339). -/
def execEventPop (src : Src) (parityOk : Bool) (s : State) : Host.Outcome State Fault Refusal :=
  .next (match consumer src with
    | some c =>
      if parityOk || !s.hasRight src 0 || s.hiddenNow src 8 0x10 then s.rowReadF src F.EQ_POP0_WORD
      else (s.eqPop c false).emit (.answer src .ok (leBytes ((s.eqPop c false).eqLatch c 0).toNat 4))
    | none => s.rowReadF src F.EQ_POP0_WORD)

/-! ### Commands (R434, R436) -/

/-- A command of a source; a ring source is heard by a hub with a node number only. -/
def State.commandRow (s : State) (src : Src) (code : Nat) (tag : BitVec 16) (x : Args) (ok : Bool) : State :=
  if s.reaches src then (s.command src code tag x ok).settled else s

/-- NOP. -/
def execNop (src : Src) (tag : BitVec 16) (x : Args) (s : State) : Host.Outcome State Fault Refusal :=
  .next (s.commandRow src 0x01 tag x true)

/-- MARK. -/
def execMark (src : Src) (tag : BitVec 16) (x : Args) (s : State) : Host.Outcome State Fault Refusal :=
  .next (s.commandRow src 0x02 tag x true)

/-- REGWRITE. -/
def execRegwrite (src : Src) (tag : BitVec 16) (x : Args) (s : State) : Host.Outcome State Fault Refusal :=
  .next (s.commandRow src 0x10 tag x true)

/-- WARMRESET. -/
def execWarmreset (src : Src) (tag : BitVec 16) (x : Args) (s : State) : Host.Outcome State Fault Refusal :=
  .next (s.commandRow src 0x11 tag x true)

/-- RELEASE. -/
def execRelease (src : Src) (tag : BitVec 16) (x : Args) (s : State) : Host.Outcome State Fault Refusal :=
  .next (s.commandRow src 0x12 tag x true)

/-- YIELD (R424). -/
def execYield (src : Src) (tag : BitVec 16) (x : Args) (s : State) : Host.Outcome State Fault Refusal :=
  .next (s.commandRow src 0x30 tag x true)

/-- INLETCLR. -/
def execInletclr (src : Src) (tag : BitVec 16) (x : Args) (s : State) : Host.Outcome State Fault Refusal :=
  .next (s.commandRow src 0x31 tag x true)

/-- CHECKPOINT. -/
def execCheckpoint (src : Src) (tag : BitVec 16) (x : Args) (s : State) : Host.Outcome State Fault Refusal :=
  .next (s.commandRow src 0x32 tag x true)

/-- REVOKEKEY (R58). -/
def execRevokekey (src : Src) (tag : BitVec 16) (x : Args) (s : State) : Host.Outcome State Fault Refusal :=
  .next (s.commandRow src 0x40 tag x true)

/-- DEBUGUNLOCK (R431). -/
def execDebugunlock (src : Src) (tag : BitVec 16) (x : Args) (s : State) : Host.Outcome State Fault Refusal :=
  .next (s.commandRow src 0x50 tag x true)

/-- DEBUGLOCK (R431). -/
def execDebuglock (src : Src) (tag : BitVec 16) (x : Args) (s : State) : Host.Outcome State Fault Refusal :=
  .next (s.commandRow src 0x51 tag x true)

/-- TLFETCH (R442). -/
def execTlfetch (src : Src) (tag : BitVec 16) (x : Args) (s : State) : Host.Outcome State Fault Refusal :=
  .next (s.commandRow src 0x60 tag x true)

/-- FWBEGIN (R456). -/
def execFwbegin (src : Src) (tag : BitVec 16) (x : Args) (s : State) : Host.Outcome State Fault Refusal :=
  .next (s.commandRow src 0x20 tag x true)

/-- FWBLOCK (R458). `ok`: flash takes the block and reads it back. -/
def execFwblock (src : Src) (tag : BitVec 16) (x : Args) (ok : Bool) (s : State) : Host.Outcome State Fault Refusal :=
  .next (s.commandRow src 0x21 tag x ok)

/-- FWVERIFY (R459). -/
def execFwverify (src : Src) (tag : BitVec 16) (x : Args) (s : State) : Host.Outcome State Fault Refusal :=
  .next (s.commandRow src 0x22 tag x true)

/-- ACTIVATE (R461). `ok`: the slot reads back well. -/
def execActivate (src : Src) (tag : BitVec 16) (x : Args) (ok : Bool) (s : State) : Host.Outcome State Fault Refusal :=
  .next (s.commandRow src 0x23 tag x ok)

/-- FWABORT (R456). -/
def execFwabort (src : Src) (tag : BitVec 16) (x : Args) (s : State) : Host.Outcome State Fault Refusal :=
  .next (s.commandRow src 0x24 tag x true)

end Sys2Proof.Machine
end

