-- ==== Sys2Proof/Machine/Takeover.lean ====
section
/-! DEFINITION. Takeovers and the runs of a standby (R416 to R423, R465). The store's content is an operand of each: the mate writes it
while this hub does not own it. -/

namespace Sys2Proof.Machine

/-- What the mate has left in the store; nothing comes to a hub that owns it. -/
def State.storeSeen (s : State) (store : Option StoreSt) : State :=
  match store with
  | some st => if s.owner then s else { s with store := st }
  | none => s

/-! ### Steps 2 to 5 (R417) -/

/-- A takeover starts where its conditions hold and it has not started (R416). -/
def State.takeWanted (s : State) : State :=
  if s.mt.taking.isNone && s.isStandby && s.storeFree && (s.mt.timedOut || s.mt.surrender) then s.takeStart (b2n s.mt.surrender) else s

/-- Steps 2 and 3: the rails come up and the core reset is released. -/
def State.coreNow (s : State) : State :=
  if s.coreRuns && !s.sup.locking then s
  else
    let s := if s.corePowered then s else ((s.wr F.PW_SEQ_TRIES 0).wr F.PW_SEQ_PGOUT 1).wr F.PW_SEQ_CORE 1
    let s := s.coreReset false
    ({ s with sup := { s.sup with start := false, stop := false, group := 0, retry := false, unlocked := 0 } } : State).coreUp

/-- Step 4. A core that a run has started makes its first entry now, with the numbers the store gives (R440; assumption 54). -/
def State.mfwNow (s : State) : State :=
  if !s.sup.mcUp then s.mfwBoot
  else if s.mg.tally.isEmpty && s.mt.run == 0 then s.seqStart.startEntry
  else s

/-- Step 5: a boot load whose units start only at step 10. -/
def State.takeLoad (s : State) : State :=
  if s.rd F.WE_STATUS_CODE != 0 then s
  else
    let a := s.fw.curWeave
    let s := s.errClear
    match s.loadSlot a false with
    | .inr i => (s.bootForce i a).bootEnd a 0
    | .inl _ =>
      match s.loadSlot (1 - a) false with
      | .inr i => (s.bootForce i (1 - a)).bootEnd (1 - a) 0
      | .inl e => ((s.failShow e).bareForce e.code).bootEnd (1 - a) (0x100 + e.code)

/-! ### Step 6: images and the checkpoint (R413, R418) -/

/-- MFW restores both parts of a checkpoint. -/
def restoresBoth (img : List Byte) (f : CkPart) (d : Option CkPart) : Bool := restores img f.format && restores img (d.getD f).format

/-- The weave on the shelf, where it verifies and is the one a checkpoint names. -/
def State.shelfWeave (s : State) (id : Nat) : Option Image :=
  match s.verifyImage (Tbl.get [] 5 s.store.shelf) false with
  | .inr i => if (crc32c i.signed).toNat = id then some i else none
  | .inl _ => none

/-- What a takeover runs, so that the images match: MFW and the weave of the shelf where its own differ; none: no match. -/
def State.takeImages (s : State) (f : CkPart) (d : Option CkPart) : Option (Option (List Byte) × Option Image) :=
  let id := (d.getD f).imgid
  let shelf := Tbl.get [] 1 s.store.shelf
  let mfw : Option (Option (List Byte)) :=
    if restoresBoth (Tbl.get [] 1 s.fw.running) f d then some none
    else if (s.imageError 1 shelf).isNone && restoresBoth shelf f d then some (some shelf)
    else none
  let weave : Option (Option Image) :=
    if s.rd F.WE_IMGID_ID = id then some none
    else match s.shelfWeave id with
      | some i => some (some i)
      | none => none
  match mfw, weave with
  | some m, some w => some (m, w)
  | _, _ => none

/-- The images run and the checkpoint is applied. -/
def State.takeRestore (s : State) (f : CkPart) (d : Option CkPart) (im : Option (List Byte) × Option Image) : State :=
  let s := match im.1 with
    | some m => s.nowRuns 1 m
    | none => s
  let s := match im.2 with
    | some i => s.bootForce i s.fw.curWeave
    | none => s
  let s := (s.ckRestore f d).restoredTake
  { s with mt := { s.mt with shelfUsed := im.1.isSome || im.2.isSome, noRest := false, restored := (d.getD f).ckseq } }

/-- Step 6; without a checkpoint to restore, or a match for it, the hub starts from its own weave (NOREST). -/
def State.takeCheckpoint (s : State) : State :=
  match s.ckBest with
  | some (f, d) =>
    (match s.takeImages f d with
      | some im => s.takeRestore f d im
      | none => { s with mt := { s.mt with shelfUsed := false, noRest := true, restored := 0 } })
  | none => { s with mt := { s.mt with shelfUsed := false, noRest := true, restored := 0 } }

/-! ### Step 7: the replay (R420) -/

/-- What the replay has done: records replayed, and the first one's number. -/
structure Replayed where
  count : Nat
  first : Nat
  deriving DecidableEq, Repr

/-- One record is skipped, skipped and counted, or applied again. Only REGWRITE is replayable (R436). -/
def State.replayOne (s : State) (r : ReplayRec) (acc : Replayed) : State × Replayed :=
  let c : Cmd := { src := r.src, words := r.words }
  if c.code != 0x10 then (s, acc)
  else
    match s.store.tally.find? fun e => e.seq == r.seq with
    | some e =>
      if 2 ≤ e.result then (s, acc)
      else if e.digest != c.digest then ((s.bump F.MT_REPSKIP_COUNT).pairEvent 5 0 (r.seq % 2 ^ 32) (r.seq / 2 ^ 32), acc)
      else ((s.regwrite c).1, { count := acc.count + 1, first := if acc.count = 0 then r.seq else acc.first })
    | none => ((s.regwrite c).1, { count := acc.count + 1, first := if acc.count = 0 then r.seq else acc.first })

/-- Records in order. -/
def State.replayAll (s : State) (acc : Replayed) : List ReplayRec → State × Replayed
  | [] => (s, acc)
  | r :: rs => State.replayAll (s.replayOne r acc).1 (s.replayOne r acc).2 rs

/-- TALLYSEQ of the checkpoint. -/
def State.ckTally (s : State) : Nat :=
  match s.ckBest with
  | some (f, d) => (d.getD f).tallySeq
  | none => 0

/-- A record takes its place in sequence order. -/
def replayInsert (r : ReplayRec) : List ReplayRec → List ReplayRec
  | [] => [r]
  | x :: xs => if r.seq ≤ x.seq then r :: x :: xs else x :: replayInsert r xs

/-- Step 7, with the entry that names the range. -/
def State.takeReplay (s : State) : State :=
  let rs := (s.store.replay.filter fun r => decide (s.ckTally < r.seq)).foldr replayInsert []
  let (s, n) := s.replayAll { count := 0, first := 0 } rs
  s.tallyInternal .mc0 0x8006 0 false (n.first % 2 ^ 32) n.count

/-! ### Steps 8 to 10 -/

/-- Step 8; and step 9 up to TAKE, which a hub that owns the branches does not send. -/
def State.takeAcquire (s : State) : State :=
  let s := { s.wr F.MT_STAT_OWNER 1 with mt := { s.mt with req := true } }
  if s.on F.PW_OWN_OWNER then s else s.takeSent

/-- Step 9: OFFER, or its timer, wins. -/
def State.takeHand (s : State) (hand : TakeHand) : State :=
  if !s.pow.offering then s
  else
    match hand with
    | .offer f =>
      if !mateGood f 16 then s.mateBad
      else ({ s.wr F.PW_OWN_HANDOUT 1 with pow := { s.pow with offering := false } } : State).followAll f.payload (List.range 8)
    | .timer => ({ s.wr F.PW_OWN_HANDOUT 2 with pow := { s.pow with offering := false } } : State).ownGates (List.range 8)
    | .wait => s

/-- An image goes into its boot flash slot, the one not current for MFW and the weave, which becomes current (R461, R465). -/
def State.flashPut (s : State) (c : Nat) (img : List Byte) : State :=
  let slot := s.flashSlot c (c == 1 || c == 5)
  { s with fw := { s.fw with
    slots := Tbl.put [] slot img s.fw.slots
    curMfw := if c = 1 then 1 - s.fw.curMfw else s.fw.curMfw
    curWeave := if c = 5 then 1 - s.fw.curWeave else s.fw.curWeave } }

/-- Images that ran from the shelf go to boot flash after step 10 (R465). -/
def State.shelfKeep (s : State) : State :=
  if s.mt.shelfUsed then
    let m := Tbl.get [] 1 s.fw.running
    let s := if Tbl.get [] s.fw.curMfw s.fw.slots = m then s else s.flashPut 1 m
    let s := s.wr F.FW_STAT_MFWSLOT s.fw.curMfw
    match s.weave with
    | some w => if Tbl.get [] (5 + s.fw.curWeave) s.fw.slots = w.bytes then s
      else (s.flashPut 5 w.bytes).wr F.WE_STATUS_SLOT (1 - s.fw.curWeave)
    | none => s
  else s

/-- Weavers at step 10: those the checkpoint shows running; without a restore, AUTOSTART. -/
def State.takeWeavers (s : State) : State :=
  if s.mt.noRest then s.autostart
  else match s.ckBest with
    | some (f, d) => s.ckWeavers f d
    | none => s.autostart

/-- Step 10: ROLE; the branches; units and weavers; MT_TKTIME, which the model does not time, is a free value. -/
def State.takeRole (s : State) (cause : Nat) : State :=
  let weavers := s.takeWeavers
  let s := (weavers.wr F.MT_STAT_ROLE 1).bump F.MT_TAKEOVERS_COUNT
  let s := (s.wr F.MT_TKTIME_US s.freeW.toNat).used
  let s := if s.on F.PW_OWN_TAKING then s.handed true else s
  let s := s.unitsStart
  let s := s.tallyInternal .mc0 0x8005 0 true 0 s.mt.restored
  let s := s.pairEvent 1 (cause + 2 * b2n s.mt.shelfUsed + 4 * b2n s.mt.noRest) (s.rd F.MT_TKTIME_US) s.mt.restored
  let s := { s with mt := { s.mt with taking := none, timedOut := false, surrender := false } }
  s.shelfKeep.shelfShow

/-- TAKEOVER: the steps that are left, up to step 9 or 10 (R417). `store`: what the mate has left in the store. -/
def execTakeover (store : Option StoreSt) (hand : TakeHand) (s : State) : Host.Outcome State Fault Refusal :=
  let s := (s.storeSeen store).takeWanted
  .next (match s.mt.taking with
    | none => s
    | some cause =>
      let ready := s.on F.PW_OWN_TAKING || (s.inlet == 4 && s.sup.held == 0 && s.store.fitted && (s.owner || s.canAcquire))
      if !ready then s
      else
        let s := if s.on F.PW_OWN_TAKING then s else s.coreNow.mfwNow
        if s.on F.FW_STAT_RECOVERY then s
        else
          let s := if s.on F.PW_OWN_TAKING then s else (s.takeLoad.matrixShow.takeCheckpoint.takeReplay).takeAcquire
          let s := s.takeHand hand
          if s.pow.offering then s else s.takeRole cause)

/-! ### Runs of a standby (R421, R423, R465) -/

/-- The blocks of a staged image. -/
def stageBlocks (img : List Byte) : Tbl (List Byte) := (List.range ((img.length + 4095) / 4096)).map fun i => (i, slice img (4096 * i) 4096)

/-- Components whose shelf version differs from boot flash are copied through staging; true: one fails its verification. -/
def State.adopt (s : State) (failed : Bool) : List Nat → State × Bool
  | [] => (s, failed)
  | c :: cs =>
    let img := Tbl.get [] c s.store.shelf
    let old := Tbl.get [] (s.flashSlot c false) s.fw.slots
    if img.isEmpty || versionOf c img == versionOf c old then State.adopt s failed cs
    else
      let s := { s with fw := { s.fw with staging := stageBlocks img, stComp := c, stTotal := img.length, verified := false, holder := none } }
      if (s.imageError c img).isNone then State.adopt (s.flashPut c img) failed cs else State.adopt s true cs

/-- The images in boot flash match the latest checkpoint (R418). -/
def State.flashMatch (s : State) : Bool :=
  match s.ckBest with
  | none => false
  | some (f, d) =>
    let m := Tbl.get [] s.fw.curMfw s.fw.slots
    (s.imageError 1 m).isNone && restoresBoth m f d &&
    match s.verifyImage (Tbl.get [] (5 + s.fw.curWeave) s.fw.slots) false with
    | .inr i => (crc32c i.signed).toNat == (d.getD f).imgid
    | .inl _ => false

/-- A run of a cold standby: the checkpoint read in a lent window, images adopted, the tests' failures shown; the core is dark again. -/
def State.standbyRun (s : State) (fail : Nat) : State :=
  let s := (s.emit (.mate 4 [])).emit (.mate 6 [])
  let read := bitsOf fail 5 1 == 0
  let (s, bad) := if read then s.adopt false [1, 2, 3, 4, 5] else (s, false)
  let images := read && !bad && s.flashMatch
  let fail := setBits fail 6 1 (b2n !images)
  let s := (s.wr F.MT_PRSTAT_FAIL fail).wr F.MT_PRSTAT_VALID 1
  let s := s.wr F.MT_PRSTAT_PRCOUNT ((s.rd F.MT_PRSTAT_PRCOUNT + 1) % 256)
  { s with mt := { s.mt with ready := fail == 0 } }

/-- A cold standby in ON, no takeover under way. -/
def State.canRun (s : State) : Bool :=
  s.isStandby && !s.corePowered && s.mt.taking.isNone && s.inlet == 4 && s.sup.held == 0 && s.store.fitted

/-- A run begins: its core is powered, MFW and the weave are loaded; ROLE 3. -/
def State.runBegin (s : State) (k : Nat) : State :=
  ((({ s.wr F.MT_STAT_ROLE 3 with mt := { s.mt with run := k } } : State).coreNow).mfwNow).takeLoad

/-- A run ends: its result, and a core that is dark again. -/
def State.runEnd (s : State) (fail : Nat) : State := (((s.standbyRun fail).wr F.PW_RSTCAUSE_STOP 1).powerDown)

/-- A row of a run of kind k. `fail`: the tests that fail where the row ends the run; none where its tests still go on, so that a takeover may
come in between (R422). -/
def State.runRow (s : State) (k : Nat) (may : Bool) (fail : Option Nat) : State :=
  let s := if s.canRun && may then s.runBegin k else s
  if s.mt.run = k && s.mt.taking.isNone then
    match fail with
    | some f => s.runEnd f
    | none => s
  else s

/-- PROVING_RUN. `fail`: bits 0 to 5 of MT_PRSTAT. -/
def execProvingRun (store : Option StoreSt) (fail : Option (BitVec 6)) (s : State) : Host.Outcome State Fault Refusal :=
  let s := s.storeSeen store
  .next (s.runRow 1 (s.on F.MT_CFG_PROVE) (fail.map (·.toNat)))

/-- VERIFYING_RUN: with PROVE = 0 the store read is its only test. -/
def execVerifyingRun (store : Option StoreSt) (fail : Option (BitVec 6)) (s : State) : Host.Outcome State Fault Refusal :=
  let s := s.storeSeen store
  .next (s.runRow 2 true (fail.map fun f => if s.on F.MT_CFG_PROVE then f.toNat else bitsOf f.toNat 5 1 * 32))

end Sys2Proof.Machine
end

