-- ==== Sys2Proof/Machine/Usb.lean ====
section
/-! DEFINITION. The service port S and the field ports (chapter 12). -/

namespace Sys2Proof.Machine

/-! ### Control transfers (R319 to R321) -/

/-- S answers a host: default, addressed or configured, not suspended, its clock running (R384). -/
def State.usbLive (s : State) : Bool := s.clocked 4 && decide (2 ≤ s.rd F.US_SSTAT_STATE) && decide (s.rd F.US_SSTAT_STATE ≤ 4)

/-- A CMD or FW_BLOCK transfer completes: RSTOUT 1, and the command or block is taken (R321, R329, R434). -/
def State.ctlComplete (s : State) (ok : Bool) : State :=
  match s.usb.ctl with
  | none => s
  | some x =>
    let s := { s with usb := { s.usb with ctl := none } }.wr F.US_CSTAT_RSTOUT 1
    if x.req = 0x10 then s.latch { src := .s, words := wordsOf x.data 8 } none ok
    else s.latch { src := .s, words := cmdWords 0x21 0 { a1 := 0, a2 := 0, a3 := 0, a4 := 0, a5 := 0, a6 := 0, a7 := 0 } } (some x.data) ok

/-- A valid token comes to S: a transfer whose ACK was lost is complete (R321). -/
def State.usbToken (s : State) : State := s.ctlComplete true

/-- CONTROL_TRANSFER_COMPLETE. `ok`: boot flash takes the block. -/
def execControlTransferComplete (ok : Bool) (s : State) : Host.Outcome State Fault Refusal := .next (s.ctlComplete ok).settled

/-- A vendor request that S answers with data; any other form of it is stalled. -/
def State.vendorIn (s : State) (form : Bool) (data : State → List Byte) : State :=
  if !s.usbLive then s
  else
    let s := s.usbToken
    s.emit (if form then .usbData (data s) else .usbStall)

/-- GET_INFO (R320); in recovery MFW reads as version 0 (R453). -/
def State.infoBytes (s : State) : List Byte :=
  leBytes s.otp.fusedId 8 ++ leBytes s.pairId 8 ++ leBytes ((s.reg F.RG_SELF_NODE.key).toNat % 65536) 2 ++ leBytes (b2n s.isAssigned) 1
    ++ leBytes 0 1 ++ leBytes (s.rd F.WE_IMGVER_IMGVER) 4 ++ leBytes (if s.on F.FW_STAT_RECOVERY then 0 else s.rd (F.FW_RUNc_VERSION 1)) 4 ++ leBytes 0 4

/-- GET_INFO. -/
def execGetInfo (wValue wIndex wLength : BitVec 16) (s : State) : Host.Outcome State Fault Refusal :=
  .next (s.vendorIn (wValue == 0 && wIndex == 0 && wLength == 32) State.infoBytes).settled

/-- CMD_RESULT: the slot of S. -/
def State.resultBytes (s : State) : List Byte :=
  let r := s.slotOf .s
  leBytes r.seq 8 ++ leBytes r.code 2 ++ leBytes r.result 2 ++ leBytes 0 4

/-- CMD_RESULT. -/
def execCmdResult (wValue wIndex wLength : BitVec 16) (s : State) : Host.Outcome State Fault Refusal :=
  .next (s.vendorIn (wValue == 0 && wIndex == 0 && wLength == 16) State.resultBytes).settled

/-- FW_STATUS (R466). -/
def State.fwStatusBytes (s : State) : List Byte :=
  leBytes (s.rd F.FW_STAT_STATE) 1 ++ leBytes (s.rd F.FW_STAT_COMP) 1 ++ leBytes (s.rd F.FW_ERR_CODE) 2 ++ leBytes (s.rd F.FW_SESSION_SESSION) 4
    ++ leBytes (s.rd F.FW_TOTAL_TOTAL) 4 ++ leBytes (s.rd F.FW_PROG_COUNT) 2 ++ leBytes (s.rd F.FW_PROG_FIRSTGAP) 2

/-- FW_STATUS. -/
def execFwStatus (wValue wIndex wLength : BitVec 16) (s : State) : Host.Outcome State Fault Refusal :=
  .next (s.vendorIn (wValue == 0 && wIndex == 0 && wLength == 16) State.fwStatusBytes).settled

/-- An OUT transfer's data stage has ended: it awaits completion (R321). -/
def State.vendorOut (s : State) (req : Nat) (form : Bool) (data : List Byte) : State :=
  if !s.usbLive then s
  else
    let s := s.usbToken
    if form then { s with usb := { s.usb with ctl := some { req := req, data := data } } }.emit (.usbData []) else s.emit .usbStall

/-- CMD. -/
def execCmd (wValue wIndex : BitVec 16) (data : List Byte) (s : State) : Host.Outcome State Fault Refusal :=
  .next (s.vendorOut 0x10 (wValue == 0 && wIndex == 0 && data.length == 32) data).settled

/-- FW_BLOCK: a CRC failure is stalled in the status stage, with nothing staged or entered (R320, R458). -/
def State.blockOut (s : State) (form : Bool) (data : List Byte) : State :=
  if s.usbLive && form && (crc32c (data.drop 16)).toNat != leAt data 8 4 then
    (s.usbToken.fwErr 2 s.fw.stComp (some (leAt data 0 4 / 4096))).emit .usbStall
  else s.vendorOut 0x20 form data

/-- FW_BLOCK. -/
def execFwBlock (wValue wIndex : BitVec 16) (data : List Byte) (s : State) : Host.Outcome State Fault Refusal :=
  .next (s.blockOut (wValue == 0 && wIndex == 0 && decide (17 ≤ data.length) && decide (data.length ≤ 4112)) data).settled

/-! ### Standard requests and descriptors (R318, R319) -/

/-- The device descriptor; three values come from the UDS component. -/
def State.deviceDesc (s : State) : List Byte :=
  let u (i : Nat) : List Byte := leBytes (Config.udsValue (s.rd (F.FW_RUNc_VERSION 3)) i).toNat 2
  [18, 1, 0, 2, 0xFF, 0, 0, 64] ++ u 0 ++ u 1 ++ u 2 ++ [1, 2, 3, 1]

/-- An endpoint descriptor. -/
def endpointDesc (addr kind size interval : Nat) : List Byte :=
  [7, 5, BitVec.ofNat 8 addr, BitVec.ofNat 8 kind] ++ leBytes size 2 ++ [BitVec.ofNat 8 interval]

/-- The configuration (type 2) or other-speed configuration (type 7) at a speed. -/
def configDesc (type : Nat) (hs : Bool) : List Byte :=
  [9, BitVec.ofNat 8 type, 39, 0, 1, 1, 0, 0xE0, 0] ++ [9, 4, 0, 0, 3, 0xFF, 1, 1, 0] ++ endpointDesc 0x01 2 (if hs then 512 else 64) 0
    ++ endpointDesc 0x81 2 (if hs then 512 else 64) 0 ++ endpointDesc 0x82 3 16 (if hs then 4 else 1)

/-- A string descriptor of ASCII codes. -/
def stringDesc (cs : List Nat) : List Byte := leBytes (2 + 2 * cs.length) 1 ++ [3] ++ cs.flatMap fun c => leBytes c 2

/-- An upper-case hex digit. -/
def hexDigit (d : Nat) : Nat := if d < 10 then 48 + d else 55 + d

/-- The fused identity as 16 hex digits. -/
def State.identDigits (s : State) : List Nat := (List.range 16).map fun i => hexDigit (s.otp.fusedId / 16 ^ (15 - i) % 16)

/-- GET_DESCRIPTOR; none: STALL. -/
def State.descriptor (s : State) (type index : Nat) : Option (List Byte) :=
  let hs := s.on F.US_SSTAT_HS
  match type, index with
  | 1, 0 => some s.deviceDesc
  | 2, 0 => some (configDesc 2 hs)
  | 3, 0 => some [4, 3, 9, 4]
  | 3, 1 => some (stringDesc [71, 119, 101, 115, 107, 97, 117, 115])
  | 3, 2 => some (stringDesc [86, 97, 101, 116, 116, 101, 32, 104, 117, 98, 32, 115, 101, 114, 118, 105, 99, 101])
  | 3, 3 => some (stringDesc s.identDigits)
  | 6, 0 => some [10, 6, 0, 2, 0xFF, 0, 0, 64, 1, 0]
  | 7, 0 => some (configDesc 7 (!hs))
  | _, _ => none

/-- The endpoints that can halt. -/
def haltable (ep : Nat) : Bool := [0x01, 0x81, 0x82].contains ep

/-- A feature is set or cleared; none: STALL. -/
def State.feature (s : State) (type value index : Nat) (v : Bool) : Option State :=
  match type, value with
  | 0, 1 => some (s.wr F.US_SSTAT_RWEN (b2n v))
  | 0, 2 => if v then some s else none
  | 2, 0 =>
    if haltable index then
      some { s with usb := { s.usb with halted := if v then index :: s.usb.halted.filter (· != index) else s.usb.halted.filter (· != index) } }
    else none
  | _, _ => none

/-- A standard request: the state after it and the data stage; none: STALL (R319). -/
def State.standard (s : State) (type req value index : Nat) : Option (State × List Byte) :=
  let st := s.rd F.US_SSTAT_STATE
  match type, req with
  | 0x80, 0 => some (s, leBytes (1 + 2 * s.rd F.US_SSTAT_RWEN) 2)
  | 0x81, 0 => if st = 4 && index = 0 then some (s, [0, 0]) else none
  | 0x82, 0 => if index % 128 = 0 then some (s, [0, 0]) else if haltable index then some (s, leBytes (b2n (s.usb.halted.contains index)) 2) else none
  | 0x80, 6 => (s.descriptor (value / 256) (value % 256)).map fun d => (s, d)
  | 0x80, 8 => some (s, leBytes (b2n (st == 4)) 1)
  | 0x81, 10 => if st = 4 && index = 0 then some (s, [0]) else none
  | 0x00, 5 =>
    if 127 < value || st = 4 then none else some ((s.wr F.US_SSTAT_ADDR value).wr F.US_SSTAT_STATE (if value = 0 then 2 else 3), [])
  | 0x00, 9 =>
    if st = 2 || 1 < value then none
    else some ({ s with usb := { s.usb with halted := [] } }.wr F.US_SSTAT_STATE (if value = 0 then 3 else 4), [])
  | 0x01, 11 => if st = 4 && value = 0 && index = 0 then some (s, []) else none
  | _, 1 => if type ≤ 2 then (s.feature type value index false).map fun s => (s, []) else none
  | _, 3 => if type ≤ 2 then (s.feature type value index true).map fun s => (s, []) else none
  | _, _ => none

/-- USB_STANDARD_REQUEST: at most wLength bytes are returned. -/
def execUsbStandardRequest (bmRequestType bRequest : Byte) (wValue wIndex wLength : BitVec 16) (s : State) : Host.Outcome State Fault Refusal :=
  .next (if !s.usbLive then s
    else
      let s := s.usbToken
      match s.standard bmRequestType.toNat bRequest.toNat wValue.toNat wIndex.toNat with
      | some (s, data) => s.emit (.usbData (data.take wLength.toNat))
      | none => s.emit .usbStall).settled

/-! ### Bulk messages (R322, R323) -/

/-- A whole message has come on endpoint 0x01; in recovery, or with the endpoint halted, S takes none (R453). -/
def State.bulkPut (s : State) (m : BulkMsg) : State :=
  if !s.usbLive then s
  else
    let s := s.usbToken
    if s.rd F.US_SSTAT_STATE = 4 && !s.on F.FW_STAT_RECOVERY && !s.usb.halted.contains 1 then
      { s with usb := { s.usb with bulk := s.usb.bulk ++ [m] } }
    else s

/-- BULK_READ; `parityBad`: memory of the hub's own that it reads fails parity (R28). -/
def execBulkRead (flags : Byte) (count : BitVec 16) (tag : Word) (addr : BitVec 64) (parityBad : Bool) (s : State) : Host.Outcome State Fault Refusal :=
  .next (s.bulkPut {
    op := 1, loc := flags == 1, count := count.toNat, tag := tag.toNat, addr := addr.toNat, data := [], parityBad := parityBad
    bad := decide (1 < flags.toNat) || count == 0 || decide (64 < count.toNat) }).settled

/-- BULK_WRITE. -/
def execBulkWrite (flags : Byte) (count : BitVec 16) (tag : Word) (addr : BitVec 64) (data : List Byte) (s : State) :
    Host.Outcome State Fault Refusal :=
  .next (s.bulkPut {
    op := 2, loc := flags == 1, count := count.toNat, tag := tag.toNat, addr := addr.toNat, data := data, parityBad := false
    bad := decide (1 < flags.toNat) || count == 0 || decide (64 < count.toNat) || data.length != count.toNat }).settled

/-- BULK_TALLY. -/
def execBulkTally (flags : Byte) (count : BitVec 16) (tag : Word) (first : BitVec 64) (s : State) : Host.Outcome State Fault Refusal :=
  .next (s.bulkPut {
    op := 3, loc := flags == 1, count := count.toNat, tag := tag.toNat, addr := first.toNat, data := [], parityBad := false
    bad := decide (1 < flags.toNat) || count == 0 || decide (16 < count.toNat) }).settled

/-- BULK_CONSOLE. -/
def execBulkConsole (flags : Byte) (count : BitVec 16) (tag : Word) (text : List Byte) (s : State) : Host.Outcome State Fault Refusal :=
  .next (s.bulkPut {
    op := 4, loc := flags == 1, count := count.toNat, tag := tag.toNat, addr := 0, data := text, parityBad := false
    bad := decide (1 < flags.toNat) || decide (4080 < count.toNat) || text.length != count.toNat }).settled

/-- The oldest notice goes, where the endpoint can send. -/
def State.noticeGo (s : State) : State :=
  match s.usb.notices with
  | (kind, num) :: r =>
    if s.rd F.US_SSTAT_STATE = 4 && !s.usb.halted.contains 0x82 then
      { s with usb := { s.usb with notices := r } }.emit (.usbNotice (leBytes kind 8 ++ leBytes num 8))
    else s
  | [] => s

/-- USB_NOTICE (R324): the host's token asks endpoint 0x82 for a notice, and the oldest goes. -/
def execUsbNotice (s : State) : Host.Outcome State Fault Refusal := .next (if s.usbLive then s.usbToken.noticeGo else s).settled

/-! ### Attachment, SOF, suspend, wake, reset (R317, R325 to R330) -/

/-- USB_VBUS_VALID: VBUS has been above its threshold for 10 ms. -/
def execUsbVbusValid (s : State) : Host.Outcome State Fault Refusal := .next (s.wr F.US_SSTAT_VBUS 1).usbAttach

/-- USB_VBUS_LOSS. -/
def execUsbVbusLoss (s : State) : Host.Outcome State Fault Refusal := .next (s.wr F.US_SSTAT_VBUS 0).usbDetach

/-- USB_SOF (R325). -/
def execUsbSof (frame : BitVec 11) (s : State) : Host.Outcome State Fault Refusal :=
  .next (if s.usbLive then
      let again := s.on F.US_SOF_SOFVALID && s.rd F.US_SOF_FRAME == frame.toNat
      let u := if again then (s.rd F.US_SOF_UFRAME + 1) % 8 else 0
      (((s.wr F.US_SOF_FRAME frame.toNat).wr F.US_SOF_UFRAME (if s.on F.US_SSTAT_HS then u else s.rd F.US_SOF_UFRAME)).wr F.US_SOF_SOFVALID 1).wr F.US_SOFTICK_TICK s.clock.tick
    else s)

/-- USB_SUSPEND (R326). -/
def execUsbSuspend (s : State) : Host.Outcome State Fault Refusal :=
  let st := s.rd F.US_SSTAT_STATE
  .next (if 1 ≤ st && st ≤ 4 then
      ({ s with usb := { s.usb with before := st } }.wr F.US_SSTAT_STATE 5).bump F.US_SUSPENDS_COUNT
    else s)

/-- The bus resumes: the state before suspend is back, PEND clears (R328). -/
def State.usbResume (s : State) : State :=
  { (s.wr F.US_SSTAT_STATE s.usb.before).wr F.US_WAKE_PEND 0 with usb := { s.usb with before := 0 } }

/-- USB_HOST_RESUME (R328): against a wake that the device would drive, the host wins. -/
def execUsbHostResume (s : State) : Host.Outcome State Fault Refusal :=
  .next (if s.rd F.US_SSTAT_STATE = 5 then
      (if s.on F.US_SSTAT_RWEN && s.on F.US_WAKE_PEND then (s.wr F.US_WAKE_WAKEOUT 1).wr F.US_WAKE_CAUSE 0 else s).usbResume
    else s)

/-- USB_WAKE_SOURCE (R327). -/
def execUsbWakeSource (s : State) : Host.Outcome State Fault Refusal :=
  .next (if s.rd F.US_SSTAT_STATE = 5 then s.wr F.US_WAKE_PEND 1 else s)

/-- USB_REMOTE_WAKE (R327, R328): the device's wake wins. -/
def execUsbRemoteWake (s : State) : Host.Outcome State Fault Refusal :=
  .next (if s.clocked 4 && s.rd F.US_SSTAT_STATE = 5 && s.on F.US_SSTAT_RWEN && s.on F.US_WAKE_PEND then
      ((((s.wr F.US_WAKE_WAKEOUT 2).wr F.US_WAKE_CAUSE 1).bump F.US_WAKES_COUNT).emit .usbWake).usbResume
    else s)

/-- USB_BUS_RESET (R329, R330): `inFlight`, bRequest of a vendor transfer whose data stage had not ended. -/
def execUsbBusReset (highSpeed : Bool) (inFlight : Option Byte) (s : State) : Host.Outcome State Fault Refusal :=
  .next (if s.rd F.US_SSTAT_STATE = 0 then s else s.usbReset (some highSpeed) (inFlight.map (·.toNat)))

/-! ### Field ports (R333 to R336) -/

/-- FIELD_POWER (R333): the port is powered; `present`: a connect was found and debounced, and the port has been reset. -/
def execFieldPower (n : Fin 4) (present : Bool) (s : State) : Host.Outcome State Fault Refusal :=
  let s := s.fieldOn n.val
  .next (if present && s.rd (F.US_FPn_STAT_STATE n.val) == 1 then s.wr (F.US_FPn_STAT_STATE n.val) 2 else s)

/-- The driver of a device: the first row of R334 that matches; 0 for none. -/
def deviceDriver (d : FieldDevice) : Nat :=
  if d.hub then 0 else if d.listed then 1 else if d.hidScanner then 2 else if d.hidKeyboard then 3 else if d.cdc then 4 else 0

/-- FIELD_CONNECT (R331, R334). -/
def execFieldConnect (n : Fin 4) (d : FieldDevice) (s : State) : Host.Outcome State Fault Refusal :=
  let st := s.rd (F.US_FPn_STAT_STATE n.val)
  .next (if st = 1 || st = 2 then
      let s := (s.wr (F.US_FPn_ID_VID n.val) d.vid.toNat).wr (F.US_FPn_ID_PID n.val) d.pid.toNat
      let s := (s.wr (F.US_FPn_STAT_SPEED n.val) d.speed.val).wr (F.US_FPn_STAT_DRIVER n.val) (deviceDriver d)
      if deviceDriver d = 0 then
        (s.wr (F.US_FPn_STAT_STATE n.val) 2).laterEvent (s.rd (F.US_FPn_CFG_EQPRI n.val)) 3 2 (n.val + 4 * b2n d.hub)
          (d.vid.toNat + d.pid.toNat * 65536) 0
      else (s.wr (F.US_FPn_STAT_STATE n.val) 3).fieldLine n.val
    else s)

/-- FIELD_OVERCURRENT (R333). -/
def execFieldOvercurrent (n : Fin 4) (s : State) : Host.Outcome State Fault Refusal :=
  let st := s.rd (F.US_FPn_STAT_STATE n.val)
  .next (if 1 ≤ st && st ≤ 3 then
      let s := ((s.fieldDetach n.val).bump (F.US_FPn_OC_COUNT n.val)).wr (F.US_FPn_STAT_STATE n.val) 4
      let s := s.laterEvent (s.rd (F.US_FPn_CFG_EQPRI n.val)) 3 3 n.val 0 0
      if !s.on F.NC_MODE_POLICY && decide ((s.field n.val).tries < s.rd (F.US_FPn_CTL_RETRIES n.val)) then
        s.setField n.val { s.field n.val with waiting := true }
      else s.wr (F.US_FPn_CTL_POWER n.val) 0
    else s)

/-- FIELD_POWER_RETRY (R333): 1 s has passed. -/
def execFieldPowerRetry (n : Fin 4) (s : State) : Host.Outcome State Fault Refusal :=
  .next (if (s.field n.val).waiting then
      let s := s.setField n.val { s.field n.val with waiting := false, tries := (s.field n.val).tries + 1 }
      if s.on (F.US_FPn_CTL_ENABLE n.val) && s.on (F.US_FPn_CTL_POWER n.val) then s.wr (F.US_FPn_STAT_STATE n.val) 1 else s
    else s)

/-- FIELD_DISCONNECT: the device is gone, the port stays powered. -/
def execFieldDisconnect (n : Fin 4) (s : State) : Host.Outcome State Fault Refusal :=
  let st := s.rd (F.US_FPn_STAT_STATE n.val)
  .next (if st = 2 || st = 3 then (s.fieldDetach n.val).wr (F.US_FPn_STAT_STATE n.val) 1 else s)

/-- A code ends: counted, and on its way to the queue; an empty one is dropped (R335). -/
def State.codeEnd (s : State) (n : Nat) (trunc : Bool) : State :=
  let f := s.field n
  let bs := f.code.bytes
  let s := s.setField n { f with code := { bytes := [], skip := trunc }, ready := if bs.isEmpty then f.ready else f.ready ++ [(bs, trunc)] }
  if bs.isEmpty then s
  else
    let s := s.bump (F.US_FPn_CODES_COUNT n)
    if trunc then s.bump (F.US_FPn_TRUNC_COUNT n) else s

/-- One byte of a code comes, or its terminator; at 250 bytes the code is truncated. -/
def State.codeByte (s : State) (n : Nat) (b : Option Byte) : State :=
  let f := s.field n
  match b with
  | none => s.codeEnd n false
  | some b =>
    if f.code.skip then s
    else
      let s := s.setField n { f with code := { f.code with bytes := f.code.bytes ++ [b] } }
      if f.code.bytes.length + 1 = 250 then s.codeEnd n true else s

/-- The symbols of the keys 0x2D to 0x38 with the US layout, plain and shifted. -/
def keySymbols : List (Nat × Nat) :=
  [(45, 95), (61, 43), (91, 123), (93, 125), (92, 124), (92, 124), (59, 58), (39, 34), (96, 126), (44, 60), (46, 62), (47, 63)]

/-- A key usage with the US layout (R334): none, no character; some none, Enter. -/
def keyOfUsage (shift : Bool) (u : Nat) : Option (Option Nat) :=
  if 0x04 ≤ u && u ≤ 0x1D then some (some ((if shift then 65 else 97) + (u - 0x04)))
  else if 0x1E ≤ u && u ≤ 0x27 then
    some (some (if shift then [33, 64, 35, 36, 37, 94, 38, 42, 40, 41].getD (u - 0x1E) 0 else if u = 0x27 then 48 else 49 + (u - 0x1E)))
  else if u = 0x28 || u = 0x58 then some none
  else if u = 0x2C then some (some 32)
  else if 0x2D ≤ u && u ≤ 0x38 then some (some (if shift then (keySymbols.getD (u - 0x2D) (0, 0)).2 else (keySymbols.getD (u - 0x2D) (0, 0)).1))
  else if 0x54 ≤ u && u ≤ 0x57 then some (some ([47, 42, 45, 43].getD (u - 0x54) 0))
  else if 0x59 ≤ u && u ≤ 0x61 then some (some (49 + (u - 0x59)))
  else if u = 0x62 then some (some 48)
  else if u = 0x63 then some (some 46)
  else none

/-- Keys as pairs of a modifier byte and a usage. -/
def keysOf : List Byte → List (Option Byte)
  | m :: u :: r =>
    match keyOfUsage (m.toNat &&& 0x22 != 0) u.toNat with
    | some k => k.map (BitVec.ofNat 8) :: keysOf r
    | none => keysOf r
  | _ => []

/-- What a driver makes of the bytes of a device: characters, and terminators. -/
def symbolsOf (driver : Nat) (data : List Byte) : List (Option Byte) :=
  if driver = 3 then keysOf data
  else if driver = 2 then data.map some
  else data.map fun b => if b = 13 || b = 10 then none else some b

/-- FIELD_DATA (R332, R335): nothing is polled while the queue throttles. -/
def execFieldData (n : Fin 4) (data : List Byte) (reportEnd : Bool) (s : State) : Host.Outcome State Fault Refusal :=
  let drv := s.rd (F.US_FPn_STAT_DRIVER n.val)
  .next (if s.rd (F.US_FPn_STAT_STATE n.val) = 3 && drv != 0 && !s.throttled && s.clocked 4 then
      let s := (symbolsOf drv data).foldl (fun s b => s.codeByte n.val b) s
      let s := if drv = 2 && reportEnd then s.codeEnd n.val false else s
      s.codesOut n.val (s.field n.val).ready
    else s)

/-- CODE_GAP_TIMEOUT (R335). -/
def execCodeGapTimeout (n : Fin 4) (s : State) : Host.Outcome State Fault Refusal :=
  let s := s.codeEnd n.val false
  .next (s.codesOut n.val (s.field n.val).ready)

/-- LINE_CODING_WRITE: a write of US_FPn_LINE. -/
def execLineCodingWrite (src : Src) (n : Fin 4) (baud : BitVec 24) (format : BitVec 2) (s : State) : Host.Outcome State Fault Refusal :=
  .next (s.rowWrite src 6 (0x1010 + 0x100 * n.val) [BitVec.ofNat 32 (baud.toNat + format.toNat * 2 ^ 24)])

/-- FIELD_TX_GO: a write of US_FPn_TXCTL with GO. -/
def execFieldTxGo (src : Src) (n : Fin 4) (len : BitVec 7) (s : State) : Host.Outcome State Fault Refusal :=
  .next (s.rowWrite src 6 (0x1014 + 0x100 * n.val) [BitVec.ofNat 32 (len.toNat + 2 ^ 8)])

/-- FIELD_TX_DONE: the device has acknowledged the last packet, or the transfer has failed. -/
def execFieldTxDone (n : Fin 4) (ok : Bool) (s : State) : Host.Outcome State Fault Refusal :=
  .next (if s.on (F.US_FPn_TXCTL_BUSY n.val) then if ok then s.txEnd n.val else s.txFail n.val else s)

end Sys2Proof.Machine
end

