-- ==== Sys2Proof/Machine/Dispatch.lean ====
section
/-! DEFINITION. One arm for each command: the meaning it has. -/

namespace Sys2Proof.Machine

def exec (i : Instr) (s : State) : Host.Outcome State Fault Refusal :=
  match i with
  | .registerWrite src cls off v => Sys2Proof.Machine.execRegisterWrite src cls off v s
  | .readClearRegister src cls off => Sys2Proof.Machine.execReadClearRegister src cls off s
  | .slathBeat port tag data parityOk => Sys2Proof.Machine.execSlathBeat port tag data parityOk s
  | .bootLoad errA errB => Sys2Proof.Machine.execBootLoad errA errB s
  | .quietPointReached => Sys2Proof.Machine.execQuietPointReached s
  | .quietTimeout => Sys2Proof.Machine.execQuietTimeout s
  | .portEnable src p en => Sys2Proof.Machine.execPortEnable src p en s
  | .retrain src p => Sys2Proof.Machine.execRetrain src p s
  | .clockLock p => Sys2Proof.Machine.execClockLock p s
  | .acqTimeout p => Sys2Proof.Machine.execAcqTimeout p s
  | .blockLock p => Sys2Proof.Machine.execBlockLock p s
  | .lockTimeout p => Sys2Proof.Machine.execLockTimeout p s
  | .helloSend p => Sys2Proof.Machine.execHelloSend p s
  | .hello p c => Sys2Proof.Machine.execHello p c s
  | .greetTimeout p => Sys2Proof.Machine.execGreetTimeout p s
  | .pulseSend p => Sys2Proof.Machine.execPulseSend p s
  | .pulse p => Sys2Proof.Machine.execPulse p s
  | .keepaliveTimeout p => Sys2Proof.Machine.execKeepaliveTimeout p s
  | .linkFaultDetected p cause => Sys2Proof.Machine.execLinkFaultDetected p cause s
  | .linkdown p => Sys2Proof.Machine.execLinkdown p s
  | .holdoffEnd p => Sys2Proof.Machine.execHoldoffEnd p s
  | .opticsPoll p data => Sys2Proof.Machine.execOpticsPoll p data s
  | .i2cTransfer src p addr dev wr wdata => Sys2Proof.Machine.execI2cTransfer src p addr dev wr wdata s
  | .i2cTransferDone p ack data => Sys2Proof.Machine.execI2cTransferDone p ack data s
  | .i2cStretchTimeout p => Sys2Proof.Machine.execI2cStretchTimeout p s
  | .moduleSignal p present los txFault => Sys2Proof.Machine.execModuleSignal p present los txFault s
  | .cellHeader p w0 w1 w2 w3 w4 w5 => Sys2Proof.Machine.execCellHeader p w0 w1 w2 w3 w4 w5 s
  | .cellTrailer p payload crc errorEnd fecCor fecUnc => Sys2Proof.Machine.execCellTrailer p payload crc errorEnd fecCor fecUnc s
  | .cellBoundary p pool => Sys2Proof.Machine.execCellBoundary p pool s
  | .roundStart => Sys2Proof.Machine.execRoundStart s
  | .enumStart src => Sys2Proof.Machine.execEnumStart src s
  | .enumPeriod => Sys2Proof.Machine.execEnumPeriod s
  | .enumerate p c => Sys2Proof.Machine.execEnumerate p c s
  | .report c => Sys2Proof.Machine.execReport c s
  | .reportPop src => Sys2Proof.Machine.execReportPop src s
  | .enumerateReturn c => Sys2Proof.Machine.execEnumerateReturn c s
  | .enumTimeout => Sys2Proof.Machine.execEnumTimeout s
  | .postableTimer => Sys2Proof.Machine.execPostableTimer s
  | .postable p c => Sys2Proof.Machine.execPostable p c s
  | .postableWindowTimeout => Sys2Proof.Machine.execPostableWindowTimeout s
  | .assign p c => Sys2Proof.Machine.execAssign p c s
  | .assigned c => Sys2Proof.Machine.execAssigned c s
  | .releaseCell c => Sys2Proof.Machine.execReleaseCell c s
  | .dupcheck c => Sys2Proof.Machine.execDupcheck c s
  | .uplinkCell c => Sys2Proof.Machine.execUplinkCell c s
  | .unwrapHoldEnd p => Sys2Proof.Machine.execUnwrapHoldEnd p s
  | .transactionRequest m op addr count data tag parityBad => Sys2Proof.Machine.execTransactionRequest m op addr count data tag parityBad s
  | .responseTimeout j => Sys2Proof.Machine.execResponseTimeout j s
  | .deadSyncRetry j => Sys2Proof.Machine.execDeadSyncRetry j s
  | .pairEntryAge dest j => Sys2Proof.Machine.execPairEntryAge dest j s
  | .read c parityBad => Sys2Proof.Machine.execRead c parityBad s
  | .write c => Sys2Proof.Machine.execWrite c s
  | .pwrite c poisonAt => Sys2Proof.Machine.execPwrite c poisonAt s
  | .fadd c => Sys2Proof.Machine.execFadd c s
  | .cswap c => Sys2Proof.Machine.execCswap c s
  | .sync c => Sys2Proof.Machine.execSync c s
  | .skip c => Sys2Proof.Machine.execSkip c s
  | .reservedOpRequest c => Sys2Proof.Machine.execReservedOpRequest c s
  | .ackTimer j => Sys2Proof.Machine.execAckTimer j s
  | .rdata c => Sys2Proof.Machine.execRdata c s
  | .wdone c => Sys2Proof.Machine.execWdone c s
  | .ack c => Sys2Proof.Machine.execAck c s
  | .atomic c => Sys2Proof.Machine.execAtomic c s
  | .synced c => Sys2Proof.Machine.execSynced c s
  | .nosync c => Sys2Proof.Machine.execNosync c s
  | .skipped c => Sys2Proof.Machine.execSkipped c s
  | .lxbGrant reqLow => Sys2Proof.Machine.execLxbGrant reqLow s
  | .lxbBeatEnd data => Sys2Proof.Machine.execLxbBeatEnd data s
  | .lxbErr => Sys2Proof.Machine.execLxbErr s
  | .lxbWaitTimeout => Sys2Proof.Machine.execLxbWaitTimeout s
  | .lxbLateReady => Sys2Proof.Machine.execLxbLateReady s
  | .lxbLocalAccess addr wr beats parityBad => Sys2Proof.Machine.execLxbLocalAccess addr wr beats parityBad s
  | .farWrite addr beats => Sys2Proof.Machine.execFarWrite addr beats s
  | .farRead addr bl be => Sys2Proof.Machine.execFarRead addr bl be s
  | .delayedReadResult d status data => Sys2Proof.Machine.execDelayedReadResult d status data s
  | .delayedReadDiscard d => Sys2Proof.Machine.execDelayedReadDiscard d s
  | .edgeFrame e f => Sys2Proof.Machine.execEdgeFrame e f s
  | .edgeFrameEnd e data fcsOk codeErr poisoned => Sys2Proof.Machine.execEdgeFrameEnd e data fcsOk codeErr poisoned s
  | .tunnelledFrame p c => Sys2Proof.Machine.execTunnelledFrame p c s
  | .pause e quanta => Sys2Proof.Machine.execPause e quanta s
  | .priorityPause e classes quanta => Sys2Proof.Machine.execPriorityPause e classes quanta s
  | .pauseExpiry e queue => Sys2Proof.Machine.execPauseExpiry e queue s
  | .pauseRepeat e => Sys2Proof.Machine.execPauseRepeat e s
  | .overflowTraining ok => Sys2Proof.Machine.execOverflowTraining ok s
  | .ddrRefresh => Sys2Proof.Machine.execDdrRefresh s
  | .overflowReadback n q parityBad => Sys2Proof.Machine.execOverflowReadback n q parityBad s
  | .hashWindow => Sys2Proof.Machine.execHashWindow s
  | .hashSwitch src h => Sys2Proof.Machine.execHashSwitch src h s
  | .hashSwitchComplete h => Sys2Proof.Machine.execHashSwitchComplete h s
  | .flowForceTimer => Sys2Proof.Machine.execFlowForceTimer s
  | .fdbAge vid mac => Sys2Proof.Machine.execFdbAge vid mac s
  | .fdbAddStatic src => Sys2Proof.Machine.execFdbAddStatic src s
  | .fdbDelete src => Sys2Proof.Machine.execFdbDelete src s
  | .fdbLookup src => Sys2Proof.Machine.execFdbLookup src s
  | .fdbFlushDynamic src => Sys2Proof.Machine.execFdbFlushDynamic src s
  | .fdbFlushAll src => Sys2Proof.Machine.execFdbFlushAll src s
  | .edgeLinkDown n => Sys2Proof.Machine.execEdgeLinkDown n s
  | .edgeLinkUp n speed full => Sys2Proof.Machine.execEdgeLinkUp n speed full s
  | .portHoldTimeout n => Sys2Proof.Machine.execPortHoldTimeout n s
  | .portDisable src n => Sys2Proof.Machine.execPortDisable src n s
  | .egressFrameBoundary n parityBad => Sys2Proof.Machine.execEgressFrameBoundary n parityBad s
  | .frameSent n parityBad => Sys2Proof.Machine.execFrameSent n parityBad s
  | .shaperRelease n q => Sys2Proof.Machine.execShaperRelease n q s
  | .gateEntry n => Sys2Proof.Machine.execGateEntry n s
  | .gateArm src n plist => Sys2Proof.Machine.execGateArm src n plist s
  | .gateDisarm src n => Sys2Proof.Machine.execGateDisarm src n s
  | .gateOff src n => Sys2Proof.Machine.execGateOff src n s
  | .gateSwap n => Sys2Proof.Machine.execGateSwap n s
  | .unsendableTimeout n q => Sys2Proof.Machine.execUnsendableTimeout n q s
  | .launchTime n lti => Sys2Proof.Machine.execLaunchTime n lti s
  | .launchDeadline n lti => Sys2Proof.Machine.execLaunchDeadline n lti s
  | .timeReadLatch src sec48 => Sys2Proof.Machine.execTimeReadLatch src sec48 s
  | .snap src => Sys2Proof.Machine.execSnap src s
  | .timeStep src => Sys2Proof.Machine.execTimeStep src s
  | .pdreqSend p => Sys2Proof.Machine.execPdreqSend p s
  | .pdreq p c t2 t3 => Sys2Proof.Machine.execPdreq p c t2 t3 s
  | .pdresp p c t4 => Sys2Proof.Machine.execPdresp p c t4 s
  | .syncSend => Sys2Proof.Machine.execSyncSend s
  | .timeSync p c tin tout => Sys2Proof.Machine.execTimeSync p c tin tout s
  | .syncTimeout => Sys2Proof.Machine.execSyncTimeout s
  | .gmOffset domain offset => Sys2Proof.Machine.execGmOffset domain offset s
  | .announceTimeout => Sys2Proof.Machine.execAnnounceTimeout s
  | .txStampPop src e => Sys2Proof.Machine.execTxStampPop src e s
  | .compareArm src k => Sys2Proof.Machine.execCompareArm src k s
  | .compareFire k => Sys2Proof.Machine.execCompareFire k s
  | .compareDisarm src k => Sys2Proof.Machine.execCompareDisarm src k s
  | .captureEdge c falling held => Sys2Proof.Machine.execCaptureEdge c falling held s
  | .capturePop src c => Sys2Proof.Machine.execCapturePop src c s
  | .ppsPulse j => Sys2Proof.Machine.execPpsPulse j s
  | .ppsWidthEnd j => Sys2Proof.Machine.execPpsWidthEnd j s
  | .act c => Sys2Proof.Machine.execAct c s
  | .actFire n => Sys2Proof.Machine.execActFire n s
  | .cancel c => Sys2Proof.Machine.execCancel c s
  | .weaverStart src n => Sys2Proof.Machine.execWeaverStart src n s
  | .weaverStop src n => Sys2Proof.Machine.execWeaverStop src n s
  | .basketStart src m mask => Sys2Proof.Machine.execBasketStart src m mask s
  | .basketStop src m mask => Sys2Proof.Machine.execBasketStop src m mask s
  | .globalGo src => Sys2Proof.Machine.execGlobalGo src s
  | .globalArm src => Sys2Proof.Machine.execGlobalArm src s
  | .globalDisarm src => Sys2Proof.Machine.execGlobalDisarm src s
  | .globalStop src => Sys2Proof.Machine.execGlobalStop src s
  | .globalStartTime => Sys2Proof.Machine.execGlobalStartTime s
  | .autostart => Sys2Proof.Machine.execAutostart s
  | .clockRestart src m mask => Sys2Proof.Machine.execClockRestart src m mask s
  | .flagSet src m flags => Sys2Proof.Machine.execFlagSet src m flags s
  | .flagClear src m flags => Sys2Proof.Machine.execFlagClear src m flags s
  | .irqRaise src m lines => Sys2Proof.Machine.execIrqRaise src m lines s
  | .txPush src n data => Sys2Proof.Machine.execTxPush src n data s
  | .backlogMove n => Sys2Proof.Machine.execBacklogMove n s
  | .rxPop src n => Sys2Proof.Machine.execRxPop src n s
  | .weaverAggregatorDrain n => Sys2Proof.Machine.execWeaverAggregatorDrain n s
  | .vioChange present => Sys2Proof.Machine.execVioChange present s
  | .halt n parityOk => Sys2Proof.Machine.execHalt n parityOk s
  | .sho n parityOk => Sys2Proof.Machine.execSho n parityOk s
  | .shi n parityOk samples => Sys2Proof.Machine.execShi n parityOk samples s
  | .wpin n parityOk levels => Sys2Proof.Machine.execWpin n parityOk levels s
  | .wpinPass n => Sys2Proof.Machine.execWpinPass n s
  | .wflg n parityOk => Sys2Proof.Machine.execWflg n parityOk s
  | .wflgPass m => Sys2Proof.Machine.execWflgPass m s
  | .wirq n parityOk => Sys2Proof.Machine.execWirq n parityOk s
  | .wirqPass m => Sys2Proof.Machine.execWirqPass m s
  | .wtim n parityOk => Sys2Proof.Machine.execWtim n parityOk s
  | .wtimPass n => Sys2Proof.Machine.execWtimPass n s
  | .drv n parityOk => Sys2Proof.Machine.execDrv n parityOk s
  | .take n parityOk => Sys2Proof.Machine.execTake n parityOk s
  | .give n parityOk => Sys2Proof.Machine.execGive n parityOk s
  | .stamp n parityOk => Sys2Proof.Machine.execStamp n parityOk s
  | .stallEnd n => Sys2Proof.Machine.execStallEnd n s
  | .cnt n parityOk seen => Sys2Proof.Machine.execCnt n parityOk seen s
  | .cntPass n seen => Sys2Proof.Machine.execCntPass n seen s
  | .loop n parityOk => Sys2Proof.Machine.execLoop n parityOk s
  | .br n parityOk levels => Sys2Proof.Machine.execBr n parityOk levels s
  | .syncInstruction n parityOk => Sys2Proof.Machine.execSyncInstruction n parityOk s
  | .syncInstructionPass m => Sys2Proof.Machine.execSyncInstructionPass m s
  | .set n parityOk => Sys2Proof.Machine.execSet n parityOk s
  | .canInit src k => Sys2Proof.Machine.execCanInit src k s
  | .canInitRelease src k => Sys2Proof.Machine.execCanInitRelease src k s
  | .canIntegrationDone k => Sys2Proof.Machine.execCanIntegrationDone k s
  | .canTxRequest src k mask => Sys2Proof.Machine.execCanTxRequest src k mask s
  | .canTxCancel src k mask => Sys2Proof.Machine.execCanTxCancel src k mask s
  | .canCommit k => Sys2Proof.Machine.execCanCommit k s
  | .canAttemptEnd k how loopDelay => Sys2Proof.Machine.execCanAttemptEnd k how loopDelay s
  | .canLaunchTime k b => Sys2Proof.Machine.execCanLaunchTime k b s
  | .canLaunchDeadline k b => Sys2Proof.Machine.execCanLaunchDeadline k b s
  | .canFrameReceived k f => Sys2Proof.Machine.execCanFrameReceived k f s
  | .canRxAck src k count => Sys2Proof.Machine.execCanRxAck src k count s
  | .canError k err transmitter plusEight => Sys2Proof.Machine.execCanError k err transmitter plusEight s
  | .canRecover src k => Sys2Proof.Machine.execCanRecover src k s
  | .canRecoveryDone k => Sys2Proof.Machine.execCanRecoveryDone k s
  | .usbVbusValid => Sys2Proof.Machine.execUsbVbusValid s
  | .usbVbusLoss => Sys2Proof.Machine.execUsbVbusLoss s
  | .usbStandardRequest bmRequestType bRequest wValue wIndex wLength => Sys2Proof.Machine.execUsbStandardRequest bmRequestType bRequest wValue wIndex wLength s
  | .getInfo wValue wIndex wLength => Sys2Proof.Machine.execGetInfo wValue wIndex wLength s
  | .cmd wValue wIndex data => Sys2Proof.Machine.execCmd wValue wIndex data s
  | .cmdResult wValue wIndex wLength => Sys2Proof.Machine.execCmdResult wValue wIndex wLength s
  | .fwBlock wValue wIndex data => Sys2Proof.Machine.execFwBlock wValue wIndex data s
  | .fwStatus wValue wIndex wLength => Sys2Proof.Machine.execFwStatus wValue wIndex wLength s
  | .controlTransferComplete ok => Sys2Proof.Machine.execControlTransferComplete ok s
  | .bulkRead flags count tag addr parityBad => Sys2Proof.Machine.execBulkRead flags count tag addr parityBad s
  | .bulkWrite flags count tag addr data => Sys2Proof.Machine.execBulkWrite flags count tag addr data s
  | .bulkTally flags count tag first => Sys2Proof.Machine.execBulkTally flags count tag first s
  | .bulkConsole flags count tag text => Sys2Proof.Machine.execBulkConsole flags count tag text s
  | .usbNotice => Sys2Proof.Machine.execUsbNotice s
  | .usbSof frame => Sys2Proof.Machine.execUsbSof frame s
  | .usbSuspend => Sys2Proof.Machine.execUsbSuspend s
  | .usbHostResume => Sys2Proof.Machine.execUsbHostResume s
  | .usbWakeSource => Sys2Proof.Machine.execUsbWakeSource s
  | .usbRemoteWake => Sys2Proof.Machine.execUsbRemoteWake s
  | .usbBusReset highSpeed inFlight => Sys2Proof.Machine.execUsbBusReset highSpeed inFlight s
  | .fieldPower n present => Sys2Proof.Machine.execFieldPower n present s
  | .fieldConnect n d => Sys2Proof.Machine.execFieldConnect n d s
  | .fieldOvercurrent n => Sys2Proof.Machine.execFieldOvercurrent n s
  | .fieldPowerRetry n => Sys2Proof.Machine.execFieldPowerRetry n s
  | .fieldData n data reportEnd => Sys2Proof.Machine.execFieldData n data reportEnd s
  | .codeGapTimeout n => Sys2Proof.Machine.execCodeGapTimeout n s
  | .lineCodingWrite src n baud format => Sys2Proof.Machine.execLineCodingWrite src n baud format s
  | .fieldTxGo src n len => Sys2Proof.Machine.execFieldTxGo src n len s
  | .fieldTxDone n ok => Sys2Proof.Machine.execFieldTxDone n ok s
  | .eventPush src w3 => Sys2Proof.Machine.execEventPush src w3 s
  | .eventPop src parityOk => Sys2Proof.Machine.execEventPop src parityOk s
  | .eventCellSend bad => Sys2Proof.Machine.execEventCellSend bad s
  | .eventCell c => Sys2Proof.Machine.execEventCell c s
  | .eqMarksWrite src hwm lwm => Sys2Proof.Machine.execEqMarksWrite src hwm lwm s
  | .seatAssert longRelease => Sys2Proof.Machine.execSeatAssert longRelease s
  | .seatQualified => Sys2Proof.Machine.execSeatQualified s
  | .seatRelease a b => Sys2Proof.Machine.execSeatRelease a b s
  | .inletOv => Sys2Proof.Machine.execInletOv s
  | .inletUv => Sys2Proof.Machine.execInletUv s
  | .rampDone => Sys2Proof.Machine.execRampDone s
  | .rampTimeout => Sys2Proof.Machine.execRampTimeout s
  | .inletLimitEntry power => Sys2Proof.Machine.execInletLimitEntry power s
  | .faultTimerIdle => Sys2Proof.Machine.execFaultTimerIdle s
  | .faultTimerExpiry => Sys2Proof.Machine.execFaultTimerExpiry s
  | .fastTrip => Sys2Proof.Machine.execFastTrip s
  | .qualTimer => Sys2Proof.Machine.execQualTimer s
  | .holdupEntry => Sys2Proof.Machine.execHoldupEntry s
  | .holdupExit => Sys2Proof.Machine.execHoldupExit s
  | .inletRetry => Sys2Proof.Machine.execInletRetry s
  | .inletRetryReset => Sys2Proof.Machine.execInletRetryReset s
  | .pfwAssert => Sys2Proof.Machine.execPfwAssert s
  | .pfwRelease => Sys2Proof.Machine.execPfwRelease s
  | .finalCheckpointDone ok => Sys2Proof.Machine.execFinalCheckpointDone ok s
  | .branchSample adc => Sys2Proof.Machine.execBranchSample adc s
  | .branchInstantTrip b ma => Sys2Proof.Machine.execBranchInstantTrip b ma s
  | .branchRetry b => Sys2Proof.Machine.execBranchRetry b s
  | .branchRetryReset b => Sys2Proof.Machine.execBranchRetryReset b s
  | .branchStuck b ma => Sys2Proof.Machine.execBranchStuck b ma s
  | .branchOn src b on => Sys2Proof.Machine.execBranchOn src b on s
  | .loadcurve src b => Sys2Proof.Machine.execLoadcurve src b s
  | .mateTake f => Sys2Proof.Machine.execMateTake f s
  | .offer f => Sys2Proof.Machine.execOffer f s
  | .offerTimeout => Sys2Proof.Machine.execOfferTimeout s
  | .branchMessage f => Sys2Proof.Machine.execBranchMessage f s
  | .roleChange => Sys2Proof.Machine.execRoleChange s
  | .aonPowerOn slot card => Sys2Proof.Machine.execAonPowerOn slot card s
  | .aonPowerFail => Sys2Proof.Machine.execAonPowerFail s
  | .coreStart => Sys2Proof.Machine.execCoreStart s
  | .railPg g => Sys2Proof.Machine.execRailPg g s
  | .seqTimeout => Sys2Proof.Machine.execSeqTimeout s
  | .seqRetry => Sys2Proof.Machine.execSeqRetry s
  | .pllsLocked => Sys2Proof.Machine.execPllsLocked s
  | .railPgLoss => Sys2Proof.Machine.execRailPgLoss s
  | .coreStop => Sys2Proof.Machine.execCoreStop s
  | .pllLoss pll => Sys2Proof.Machine.execPllLoss pll s
  | .pllRelock pll => Sys2Proof.Machine.execPllRelock pll s
  | .refclkLoss => Sys2Proof.Machine.execRefclkLoss s
  | .refclkReturn => Sys2Proof.Machine.execRefclkReturn s
  | .resetN => Sys2Proof.Machine.execResetN s
  | .ringReset src key => Sys2Proof.Machine.execRingReset src key s
  | .canReset src mask => Sys2Proof.Machine.execCanReset src mask s
  | .fieldhubReset src => Sys2Proof.Machine.execFieldhubReset src s
  | .svcReset src => Sys2Proof.Machine.execSvcReset src s
  | .bridgeReset src => Sys2Proof.Machine.execBridgeReset src s
  | .timeReset src => Sys2Proof.Machine.execTimeReset src s
  | .uplinkReset src => Sys2Proof.Machine.execUplinkReset src s
  | .basketReset src mask => Sys2Proof.Machine.execBasketReset src mask s
  | .edgeReset src mask => Sys2Proof.Machine.execEdgeReset src mask s
  | .unitResetDone => Sys2Proof.Machine.execUnitResetDone s
  | .paceWindow sc slowest => Sys2Proof.Machine.execPaceWindow sc slowest s
  | .avsLoop ok => Sys2Proof.Machine.execAvsLoop ok s
  | .avsRetry ok => Sys2Proof.Machine.execAvsRetry ok s
  | .speedModeWrite src mode => Sys2Proof.Machine.execSpeedModeWrite src mode s
  | .thermalFallback tj => Sys2Proof.Machine.execThermalFallback tj s
  | .thermalReturn tj => Sys2Proof.Machine.execThermalReturn tj s
  | .mateListenEnd => Sys2Proof.Machine.execMateListenEnd s
  | .storeAcquire => Sys2Proof.Machine.execStoreAcquire s
  | .ownershipLines reqI gntI => Sys2Proof.Machine.execOwnershipLines reqI gntI s
  | .watchdogRefresh => Sys2Proof.Machine.execWatchdogRefresh s
  | .watchdogExpiry => Sys2Proof.Machine.execWatchdogExpiry s
  | .heartbeatSend => Sys2Proof.Machine.execHeartbeatSend s
  | .beaconSend => Sys2Proof.Machine.execBeaconSend s
  | .heartbeat f => Sys2Proof.Machine.execHeartbeat f s
  | .heartbeatTimeout => Sys2Proof.Machine.execHeartbeatTimeout s
  | .beacon f => Sys2Proof.Machine.execBeacon f s
  | .mateTimeout => Sys2Proof.Machine.execMateTimeout s
  | .surrender f => Sys2Proof.Machine.execSurrender f s
  | .lend f => Sys2Proof.Machine.execLend f s
  | .lent f => Sys2Proof.Machine.execLent f s
  | .back f => Sys2Proof.Machine.execBack f s
  | .lendWindowEnd => Sys2Proof.Machine.execLendWindowEnd s
  | .inletclrMessage f => Sys2Proof.Machine.execInletclrMessage f s
  | .checkpointIncremental => Sys2Proof.Machine.execCheckpointIncremental s
  | .checkpointFull => Sys2Proof.Machine.execCheckpointFull s
  | .checkpointWritten ok => Sys2Proof.Machine.execCheckpointWritten ok s
  | .tallyStoreWrite ok => Sys2Proof.Machine.execTallyStoreWrite ok s
  | .takeover store hand => Sys2Proof.Machine.execTakeover store hand s
  | .storeCheck => Sys2Proof.Machine.execStoreCheck s
  | .provingRun store fail => Sys2Proof.Machine.execProvingRun store fail s
  | .verifyingRun store fail => Sys2Proof.Machine.execVerifyingRun store fail s
  | .nop src tag x => Sys2Proof.Machine.execNop src tag x s
  | .mark src tag x => Sys2Proof.Machine.execMark src tag x s
  | .regwrite src tag x => Sys2Proof.Machine.execRegwrite src tag x s
  | .warmreset src tag x => Sys2Proof.Machine.execWarmreset src tag x s
  | .release src tag x => Sys2Proof.Machine.execRelease src tag x s
  | .yield src tag x => Sys2Proof.Machine.execYield src tag x s
  | .inletclr src tag x => Sys2Proof.Machine.execInletclr src tag x s
  | .checkpoint src tag x => Sys2Proof.Machine.execCheckpoint src tag x s
  | .revokekey src tag x => Sys2Proof.Machine.execRevokekey src tag x s
  | .debugunlock src tag x => Sys2Proof.Machine.execDebugunlock src tag x s
  | .debuglock src tag x => Sys2Proof.Machine.execDebuglock src tag x s
  | .debugTimeout => Sys2Proof.Machine.execDebugTimeout s
  | .tlfetch src tag x => Sys2Proof.Machine.execTlfetch src tag x s
  | .fwbegin src tag x => Sys2Proof.Machine.execFwbegin src tag x s
  | .fwblock src tag x ok => Sys2Proof.Machine.execFwblock src tag x ok s
  | .fwverify src tag x => Sys2Proof.Machine.execFwverify src tag x s
  | .activate src tag x ok => Sys2Proof.Machine.execActivate src tag x ok s
  | .fwabort src tag x => Sys2Proof.Machine.execFwabort src tag x s
  | .commandCompletion => Sys2Proof.Machine.execCommandCompletion s
  | .mc1Watchdog => Sys2Proof.Machine.execMc1Watchdog s
  | .sramParity mc1 => Sys2Proof.Machine.execSramParity mc1 s
  | .frameSubmit src tol => Sys2Proof.Machine.execFrameSubmit src tol s
  | .tallyHeadRead src => Sys2Proof.Machine.execTallyHeadRead src s
  | .mfwBoot => Sys2Proof.Machine.execMfwBoot s
  | .trialEnd => Sys2Proof.Machine.execTrialEnd s
  | .sdmNextLink => Sys2Proof.Machine.execSdmNextLink s
  | .udsReconnect => Sys2Proof.Machine.execUdsReconnect s
  | .shelfWrite c ok => Sys2Proof.Machine.execShelfWrite c ok s
  | .inletLimitExit current power => Sys2Proof.Machine.execInletLimitExit current power s
  | .fieldDisconnect n => Sys2Proof.Machine.execFieldDisconnect n s
  | .testN low => Sys2Proof.Machine.execTestN low s
  | .jtagInstruction j => Sys2Proof.Machine.execJtagInstruction j s
  | .gateListBootStart => Sys2Proof.Machine.execGateListBootStart s

end Sys2Proof.Machine
end

