-- ==== Sys2Proof/Machine/Pins.lean ====
section
/-! DEFINITION. Levels of the hub's output balls as functions of the state (R86, R159, R247, R333, R348, R360, R371, R379, R401, R403, R478).
`none`: the hub does not drive the ball. What leaves on serial lines and buses stands in the outbox instead (`State.emit`). -/

namespace Sys2Proof.Machine

/-- TEST_N is low: every output is high-impedance (R477). -/
def State.testLow (s : State) : Bool := bitsOf s.sup.held 1 1 == 1

/-- A ball of the AON domain. -/
def State.aonBall (s : State) (level : Bool) : Option Bool := if s.sup.aon && !s.testLow then some level else none

/-- A ball that only a hub with ROLE high drives (R403, R478). -/
def State.roleBall (s : State) (level : Bool) : Option Bool := if s.roleHigh then some level else none

/-- ROLE. -/
def State.pinRole (s : State) : Option Bool := s.aonBall (s.on F.PW_SEQ_CORE && s.rd F.MT_STAT_ROLE == 1)

/-- CK_OWN_REQ_O: high while the hub requests or holds the store. -/
def State.pinReqO (s : State) : Option Bool := s.aonBall (s.mt.req || s.owner)

/-- CK_OWN_GNT_O: low while the hub holds the store. -/
def State.pinGntO (s : State) : Option Bool := s.aonBall (!s.owner)

/-- INLET_PG and PFW_N, open-drain: released is high. -/
def State.pinInletPg (s : State) : Option Bool := s.aonBall (s.on F.PW_INSTAT_PG)
def State.pinPfwN (s : State) : Option Bool := s.aonBall (!s.on F.PW_PFWSTAT_ACTIVE)

/-- RAIL_ENg, g from 1 to 4, open-drain: released where the group is enabled (R379, R381). -/
def State.pinRailEn (s : State) (g : Nat) : Option Bool :=
  s.aonBall (s.on F.PW_SEQ_CORE || (s.sup.group != 0 && decide (g ≤ s.sup.group)))

/-- BR_GATEb: driven by the hub that owns the branches or takes them (R371). -/
def State.pinGate (s : State) (b : Nat) : Option Bool := if s.drivesGates then s.aonBall (s.branch b == 1) else none

/-- RPE_TXDIS and RPW_TXDIS: high unless ENABLE = 1 at a hub whose ROLE is high. -/
def State.pinTxdis (s : State) (p : Nat) : Option Bool := s.aonBall (!(s.roleHigh && s.on (F.RGp_CTL_ENABLE p)))

/-- Fn_PWREN: high while the port's power is on (R333), low while ROLE is. -/
def State.pinPwren (s : State) (n : Nat) : Option Bool :=
  s.aonBall (s.roleHigh && decide (1 ≤ s.rd (F.US_FPn_STAT_STATE n)) && decide (s.rd (F.US_FPn_STAT_STATE n) ≤ 3))

/-- EQ_HWM_N and EQ_NE_N (R348). -/
def State.pinHwmN (s : State) : Option Bool := s.roleBall (!s.on F.EQ_STAT_HWMACT)
def State.pinNeN (s : State) : Option Bool := s.roleBall (!s.on F.EQ_STAT_NE)

/-- LXB_IRQ_N: low while a bit is set in BX_ISTAT and in BX_IEN. -/
def State.pinIrqN (s : State) : Option Bool :=
  s.roleBall ((s.reg F.BX_ISTAT_PERR.key).toNat &&& (s.reg F.BX_IEN_PERR.key).toNat == 0)

/-- LXB_GNT_N: low while the external master has the bus. -/
def State.pinLxbGntN (s : State) : Option Bool := s.roleBall (s.bridge.owner != .ext)

/-- PPS0 and PPS1: the pulse, its polarity as INVERT says (R247); at rest while not enabled. -/
def State.pinPps (s : State) (i : Nat) : Option Bool := s.roleBall (s.ppsOn i != s.on (F.TM_PPSi_CFG_INVERT i))

/-- A field pin: driven where a lane drives its ball (R259). -/
def State.pinField (s : State) (pin : Nat) : Option Bool :=
  match s.driverOf pin with
  | some (n, l) =>
    let (en, lvl) := (s.lane n l).seen s.clock.tick
    if en && s.bankOn pin then s.roleBall lvl else none
  | none => none

end Sys2Proof.Machine
end

