-- ==== Sys2Proof/Safety.lean ====
section
/-! DEFINITION. What counts as a safe run, and the words the statements use: completing, an access that is taken, frames, the families of
commands, the invariant. -/

namespace Sys2Proof.Machine

/-! ### Completing -/

/-- The command ends in a next state that satisfies P. -/
def Completes (c : Instr) (s : State) (P : State → Prop) : Prop := ∃ t, exec c s = .next t ∧ P t

/-! ### Accesses that are taken (R7, R30, R41, R52) -/

/-- None of the refusals of R41 meets a write of v to a register: no missing claim, no program in the way, no closed bit, no value out of
range, no combination or state that refuses it. `s` is the state the write finds. -/
def State.untouchedBy (s : State) (key : Nat) (f : Fam) (is : List Nat) (v : Nat) : Bool :=
  let old := (s.reg key).toNat
  let nw := merged f old v
  !s.claimHit f.id is old v nw && !s.progHit f.id is old v && !s.closedHit key f old v && !rangeHit f old v && !s.lockHit f.id is old v nw none

/-- A write of one word is taken: the source reaches the unit and has the right, the register exists and answers, nothing refuses it. -/
def State.takesWrite (s : State) (src : Src) (cls off v : Nat) : Bool :=
  s.reaches src && decide (cls ≤ 0x0D) && off % 4 == 0 && !s.hiddenNow src cls off && !(cls == 5 && (rxAt off).isSome) &&
    match regAt cls off with
    | some (f, is) =>
      !(src.isRing && ringHidden f.id) && s.mayWrite src f.id && !(f.id = .RGp_I2C && s.on (F.RGp_I2C_BUSY (ix is 0))) &&
        (s.beforeWrite f.id is).untouchedBy (keyOf cls off) f is v
    | none => false

/-- A row that writes fields of a register is taken. -/
def State.takesFields (s : State) (src : Src) (fs : List (Fld × Nat)) : Bool :=
  match fs with
  | [] => false
  | (f, _) :: _ => s.takesWrite src (f.key / 0x100000) (f.key % 0x100000) (s.fieldsWord f.key fs % 2 ^ 32)

/-- A read of one register is taken: the source reaches the unit and has the right to read, the register exists and answers. -/
def State.takesRead (s : State) (src : Src) (cls off : Nat) : Bool :=
  s.reaches src && s.hasRight src 0 && decide (cls ≤ 0x0D) && off % 4 == 0 && !s.hiddenNow src cls off && !(cls == 5 && (rxAt off).isSome) &&
    match regAt cls off with
    | some (f, _) => !(src.isRing && ringHidden f.id)
    | none => false

/-- A row that reads the register of a field is taken. -/
def State.takesField (s : State) (src : Src) (f : Fld) : Bool := s.takesRead src (f.key / 0x100000) (f.key % 0x100000)

/-! ### Requests (R143, R154) -/

/-- A request cell is the next in order at destination entry i of this hub, may start, and carries a whole request block. -/
def State.startsAt (s : State) (c : Cell) (i : Nat) : Bool :=
  s.isAssigned && decide (s.dstFind c.sring.toNat c.snode.toNat = some i) && c.seq.toNat == (s.dst i).expect && !s.mustWait (s.dst i) c &&
    decide (16 ≤ c.payload.length)

/-- The state that a request in order is applied to: the cell is taken, EXPECT has advanced. -/
def State.started (s : State) (c : Cell) (i : Nat) : State := (s.takeCell c).advance i c

/-- A response belongs to source entry i, which is active, completes some of its requests, and nothing waits behind it. -/
def State.answers (s : State) (c : Cell) (i : Nat) : Bool :=
  decide (s.srcFind c.sring.toNat c.snode.toNat = some i) && (s.srcE i).timer && (s.srcE i).state == .active &&
    (s.srcE i).kept.any (completes c) && (s.srcE i).waiting.isEmpty && s.usb.bulk.isEmpty

/-- What a response leaves of entry i: the requests it does not complete, its race won. -/
def State.answered (s t : State) (c : Cell) (i : Nat) : Prop :=
  (t.srcE i).kept = (s.srcE i).kept.filter (fun k => !completes c k) ∧ (t.srcE i).race = 1 ∧ (t.srcE i).tries = 0 ∧
    (t.srcE i).timer = !((s.srcE i).kept.filter fun k => !completes c k).isEmpty

/-- The VLAN of a frame at an edge input: its tag's, or the port's own where there is none or it is 0 (R195). -/
def State.vlanAt (s : State) (n : Nat) (f : Frame) : Nat :=
  match f.tag with
  | some (_, _, v) => if v.toNat = 0 then s.rd (F.SW_PVIDn_PVID n) else v.toNat
  | none => s.rd (F.SW_PVIDn_PVID n)

/-! ### Weavers (R281, R293) -/

/-- The word in the slot that weaver n runs next. -/
def State.nextWord (s : State) (n : Nat) : Nat := s.rd (F.WVn_PROGs_WORD n (s.wvr n).npc)

/-- Weaver n runs, waits for nothing, and its next word has an opcode. -/
def State.issues (s : State) (n op : Nat) : Bool :=
  s.rd (F.WVn_STAT_STATE n) == 1 && decide ((s.wvr n).wait = .none) && opOf (s.nextWord n) == op

/-- No other weaver of the basket of weaver n waits for anything. -/
def State.aloneWaiting (s : State) (n : Nat) : Prop := ∀ i : Fin 8, 8 * (n / 8) + i.val ≠ n → (s.wvr (8 * (n / 8) + i.val)).wait = .none

/-! ### The event queue (R342, R348) -/

/-- No event of the aggregators, no CAN event and no code of a field port waits for the queue. -/
def State.quietProducers (s : State) : Prop :=
  s.eq.waits = [] ∧ s.eq.canPend = [] ∧ ∀ n : Fin 4, (Tbl.get FieldSt.init n.val s.usb.fields).ready = []

/-! ### The service port (R321, R323) -/

/-- S answers a host, no control transfer awaits its completion, no bulk request waits. -/
def State.controlReady (s : State) : Bool := s.usbLive && decide (s.usb.ctl = none) && s.usb.bulk.isEmpty

/-- S is configured, serves bulk messages, and has none in hand. -/
def State.bulkReady (s : State) : Bool :=
  s.clocked 4 && s.rd F.US_SSTAT_STATE == 4 && !s.on F.FW_STAT_RECOVERY && !s.usb.halted.contains 1 && decide (s.usb.ctl = none) && decide (s.usb.busy = none) &&
    s.usb.bulk.isEmpty

/-! ### Commands of the mailbox (R432 to R438) -/

/-- A command row of a source is heard: the source reaches the hub, firmware runs, it may send commands, no bulk request waits. -/
def State.hears (s : State) (src : Src) : Bool := s.reaches src && s.sup.mcUp && s.hasRight src 2 && s.usb.bulk.isEmpty

/-- A command as its row gives it. -/
def cmdOf (src : Src) (code : Nat) (tag : BitVec 16) (x : Args) : Cmd := { src := src, words := cmdWords code tag x }

/-- What the checks of R434 make of a command: 0 it is carried out, 1 it is long and accepted, else the RESULT that refuses it. -/
def State.verdict (s : State) (src : Src) (code : Nat) (tag : BitVec 16) (x : Args) : Nat :=
  (s.emit (.answer src .ok [])).checkCmd (cmdOf src code tag x)

/-- A command row is heard and its checks come to a result. -/
def State.serves (s : State) (src : Src) (code : Nat) (tag : BitVec 16) (x : Args) (r : Nat) : Bool :=
  s.hears src && s.verdict src code tag x == r

/-- A long command row is heard and accepted, and no other one is in hand: it starts at once. -/
def State.starts (s : State) (src : Src) (code : Nat) (tag : BitVec 16) (x : Args) : Bool := s.serves src code tag x 1 && s.mg.longQ.isEmpty

/-- t's tally is s's with one more entry, of a code and a result, under the next number. -/
def State.entered (s t : State) (code result : Nat) : Prop :=
  ∃ e, t.mg.tally = (e :: s.mg.tally).take 1024 ∧ e.seq = s.mg.nextSeq ∧ e.code = code ∧ e.result = result

/-- t's result slot of a source shows a command of s. -/
def State.showsResult (s t : State) (src : Src) (code result : Nat) (tag : BitVec 16) : Prop :=
  ∀ k, s.slotKey src = some k → t.slotOf src = { code := code, result := result, seq := s.cmdSeq, tag := tag.toNat }

/-! ### Frames -/

/-- The parts of State besides its registers and its queue. -/
inductive Part where
  | out | inbox | freeCtr | clock | otp | weave | eq | mg | links | mem | pair | bridge | slath | outs | tm | usb | wv | can | pow | sup
  | store | mt | fw | we | jtag
  deriving DecidableEq, Repr

/-- One part is the same in two states. -/
def Part.same (s t : State) : Part → Prop
  | .out => t.out = s.out
  | .inbox => t.inbox = s.inbox
  | .freeCtr => t.freeCtr = s.freeCtr
  | .clock => t.clock = s.clock
  | .otp => t.otp = s.otp
  | .weave => t.weave = s.weave
  | .eq => t.eq = s.eq
  | .mg => t.mg = s.mg
  | .links => t.links = s.links
  | .mem => t.mem = s.mem
  | .pair => t.pair = s.pair
  | .bridge => t.bridge = s.bridge
  | .slath => t.slath = s.slath
  | .outs => t.outs = s.outs
  | .tm => t.tm = s.tm
  | .usb => t.usb = s.usb
  | .wv => t.wv = s.wv
  | .can => t.can = s.can
  | .pow => t.pow = s.pow
  | .sup => t.sup = s.sup
  | .store => t.store = s.store
  | .mt => t.mt = s.mt
  | .fw => t.fw = s.fw
  | .we => t.we = s.we
  | .jtag => t.jtag = s.jtag

/-- Keys of the registers of some fields. -/
def fieldKeys (fs : List Fld) : List Nat := fs.map (·.key)

/-- Registers of the event queue that an entry's admission writes (R342, R347, R348). -/
def eventKeys : List Nat :=
  fieldKeys [F.EQ_STAT_OCC, F.EQ_PEAK_OCC, F.EQ_LOST_COUNT, F.EQ_LOSTSRC_SRC, F.EQ_NORING_COUNT]

/-- Registers that raising or ending an alarm writes, with its notice and its event (R445, R324). -/
def alarmKeys : List Nat :=
  eventKeys ++ fieldKeys [F.NC_ALARM_ALARM, F.NC_ALMCOND_COND, F.US_NOTELOST_COUNT, F.US_WAKE_PEND]

/-- A key of weaver n (class 4, 0x400 bytes a weaver). -/
def ofWeaver (n k : Nat) : Bool := k / 0x400 == 4096 + n

/-- A key of CAN controller c (class 5, 0x8000 bytes a controller). -/
def ofCan (c k : Nat) : Bool := k / 0x8000 == 160 + c

/-- A key among some. -/
def among (ks : List Nat) (k : Nat) : Bool := ks.contains k

/-- A key of register class c (R6). -/
def inClass (c k : Nat) : Bool := k / 0x100000 == c

/-- A key of some fields' registers, or one that a refused access writes (R42). -/
def byRow (fs : List Fld) (k : Nat) : Bool := among (refusalKeys ++ fieldKeys fs) k

/-- Status registers of the branches. -/
def branchKeys : List Nat := (List.range 8).map fun b => (F.PW_Bb_STAT_STATE b).key

/-- Whatever next state the command answers has the same queue of commands, the same parts but for those named, and the same registers but
for those of the keys that `touch` names. -/
def Leaves (ps : List Part) (touch : Nat → Bool) (c : Instr) : Prop :=
  ∀ s t, exec c s = .next t →
    t.pending = s.pending ∧ (∀ p, p ∉ ps → p.same s t) ∧ ∀ k, touch k = false → t.reg k = s.reg k

/-- `Leaves` where no bulk message of S waits, which a command that ends S's request would start (R323). -/
def LeavesQuiet (ps : List Part) (touch : Nat → Bool) (c : Instr) : Prop :=
  ∀ s t, s.usb.bulk = [] → exec c s = .next t →
    t.pending = s.pending ∧ (∀ p, p ∉ ps → p.same s t) ∧ ∀ k, touch k = false → t.reg k = s.reg k

/-- `Leaves` where nothing of S waits: no bulk message, and no control transfer for its completion (R322, R323). -/
def LeavesIdle (ps : List Part) (touch : Nat → Bool) (c : Instr) : Prop :=
  ∀ s t, s.usb.bulk = [] → s.usb.ctl = none → exec c s = .next t →
    t.pending = s.pending ∧ (∀ p, p ∉ ps → p.same s t) ∧ ∀ k, touch k = false → t.reg k = s.reg k

/-- Keys that cells and frames on their way write: classes 0x01 and 0x03, the launch table, lost transmit stamps, and the event queue. -/
def trafficKey (k : Nat) : Bool := inClass 1 k || inClass 3 k || among (eventKeys ++ fieldKeys [F.TM_LTOCC_OCC, F.TM_LTFULL_COUNT, F.TM_TXTSLOST_COUNT]) k

/-- The parts of State that the core's resets may change: all but fuses and test port, and free values. Of the store and the power path
they change only a checkpoint under way, which is torn. -/
def coreParts : List Part :=
  [.out, .inbox, .clock, .weave, .eq, .mg, .links, .mem, .pair, .bridge, .slath, .outs, .tm, .usb, .wv, .can, .pow, .sup, .store, .mt, .fw, .we]

/-- Keys that the core's resets may change: those of no register of the AON domain (R350), the reset cause, the sequencer's and the role. -/
def coreKey (k : Nat) : Bool := !aonKey k || among (fieldKeys [F.PW_RSTCAUSE_AONPOR, F.PW_SEQ_STEP, F.MT_STAT_ROLE]) k

/-- Keys that the entry of a command writes, with what its tally entry raises (R433, R434, R438). -/
def commandKey (k : Nat) : Bool := among (alarmKeys ++ fieldKeys [F.NC_CMDREF_COUNT, F.WE_MGRREF_COUNT]) k

/-- Registers whose write does more than leave bits: it acts, or the block behind the register keeps what is written. -/
def acting : List RegId :=
  [.NC_MODE, .NC_RSTREQ, .NC_URST, .NC_WRST, .NC_ERST, .NC_FTXBUFi, .NC_FTXD0, .NC_FTXD1, .NC_FTXD2, .NC_FTXD3, .RGp_CTL, .RGp_I2C, .RG_ENUM,
   .TM_CTL, .TM_CMPk_CFG, .SW_HASHCTL, .SW_FDBCMD, .SW_PCFGn, .SW_GCTLn, .WVn_CTL, .WVn_DIV0, .WVn_DIV1, .WVn_STAT, .WVn_TXQ, .WVn_LANEl,
   .BKm_START, .BKm_STOP, .BKm_CLKRST, .BKm_FLAGS, .BKm_FSET, .BKm_IRQ, .BK_GCTL, .CFk_MODE, .CFk_TXREQ, .CFk_TXCAN, .CFk_RXACK, .US_SCTL,
   .US_FPn_CTL, .US_FPn_LINE, .US_FPn_TXCTL, .EQ_PUSHi, .EQ_MARKS, .PW_Bb_CTL, .FW_BLKBUFi]

/-! ### The invariant -/

/-- The register table is in its canonical form, the event queue holds at most 4,096 entries (R342), at most 32 notices wait (R324), and the
tally keeps at most 1,024 entries on chip (R440). -/
def State.Sound (s : State) : Prop :=
  Tbl.wf regReset s.regs = true ∧ s.eq.entries.length ≤ 4096 ∧ s.usb.notices.length ≤ 32 ∧ s.mg.tally.length ≤ 1024

end Sys2Proof.Machine
end

