-- ==== Sys2Proof/Certificates/Slice0/Obligations.lean ====
section
/-! DEFINITION. The statements about the model. Each says in its docstring which rules of spec/ it rests on. A clause
`Completes c s P` says that exec on c at s answers a next state which satisfies P. The form `(P :)` of a clause is P; it
makes Lean read each clause by itself. -/

set_option autoImplicit false

open Sys2Proof Sys2Proof.Machine

/-- Assumption 4 and the block's queue: a step carries out the front command on the state with the rest of the queue. -/
def Obligations.StepRunsTheFrontCommand : Prop :=
  ∀ (c : Instr) (s : State) (rest : List Instr), step { s with pending := c :: rest } = exec c { s with pending := rest }

/-- The model's choice (assumption 4), no rule of the spec: with no command waiting one local tick passes where the core runs, and nothing
otherwise. -/
def Obligations.AnEmptyQueuePassesOneTick : Prop :=
  ∀ (s : State), s.pending = [] →
    (s.coreRuns = true → step s = .next { s with clock := { site := s.clock.site + s.tickStep, tick := s.clock.tick + 1 } }) ∧
    (s.coreRuns = false → step s = .next s)

/-- R11, R110, R223, R350, R383: what the spec states for the machine after the always-on domain powers up. Every register whose reset value
the spec does not state is 0 in the model (assumption 1); no clause rests on that. Assumption 8. -/
def Obligations.ResetValues : Prop :=
  State.reset.pending = [] ∧ State.reset.eq.entries = [] ∧ State.reset.usb.notices = [] ∧ State.reset.clock.tick = 0 ∧ State.reset.clock.site = 0 ∧
  State.reset.on F.RG_SELF_ASSIGNED = false ∧ State.reset.rd F.PW_INSTAT_STATE = 0 ∧ State.reset.rd F.PW_SEQ_STEP = 0 ∧
  State.reset.on F.PW_RSTCAUSE_AONPOR = true ∧ State.reset.rd F.NC_SPSTAT_CUR = 1 ∧ State.reset.rd F.NC_AVS_VCORE = 800 ∧
  State.reset.rd F.PW_INCFG_ILIM = 1000 ∧ State.reset.on (F.RGp_CTL_ENABLE 0) = true ∧ State.reset.on (F.RGp_CTL_ENABLE 1) = true ∧
  State.reset.on (F.RGp_CTL_ENABLE 2) = false ∧ State.reset.rd F.MT_STAT_ROLE = 0

/-- Assumption 1, R324, R342, R440: the state after reset is sound. -/
def Obligations.ResetIsSound : Prop := State.reset.Sound

/-- Assumption 1, R324, R342, R440: every step of a sound state that answers a next state answers a sound one: the register table keeps its
canonical form, the event queue never holds more than 4,096 entries, never more than 32 notices wait, and the tally on chip never holds more
than 1,024 entries. -/
def Obligations.EveryStepKeepsTheStateSound : Prop := ∀ (s t : State), s.Sound → step s = .next t → t.Sound

/-- Every command completes in every state, but for an instruction of the test port, which the model may refuse (R491, assumption 7).
Commands do not send commands: whatever a command does, the commands that wait are the same after it. The queue is the model's own.
Assumption 4. -/
def Obligations.NoCommandTouchesTheQueue : Prop :=
  (∀ (c : Instr) (s : State), (∀ i, c ≠ .jtagInstruction i) → ∃ t, exec c s = .next t :) ∧
  (∀ (c : Instr) (s t : State), exec c s = .next t → t.pending = s.pending :)

/-- R41, R42: a write that is taken, to a register that acts on nothing, changes that register as its fields' access kinds say, and nothing
else; the source has its answer. Where it rests on the model's own reading: assumption 17. -/
def Obligations.PlainWritesChangeOneRegister : Prop :=
  ∀ (s : State) (src : Src) (cls off : Nat) (v : Word) (f : Fam) (is : List Nat), s.takesWrite src cls off v.toNat = true →
    regAt cls off = some (f, is) → f.id ∉ acting →
    Completes (.registerWrite src cls off v) s fun t =>
      t.reg (keyOf cls off) = BitVec.ofNat 32 (merged f (s.reg (keyOf cls off)).toNat v.toNat) ∧
      (∀ k, k ≠ keyOf cls off → t.reg k = s.reg k) ∧ t.out = s.out ++ [.answer src .ok []] ∧ t.pending = s.pending ∧
      ∀ p : Part, p ≠ .out → p.same s t

/-- R78, R81 to R83, R110: how each event of a link port moves it between DOWN (0), ACQUIRE (1), LOCK (2), GREET (3), UP (4) and FAULT (5),
and the cause that a fault records. Where it rests on the model's own reading: assumption 64. -/
def Obligations.LinkStatesFollowTheirEvents : Prop :=
  (∀ (s : State) (src : Src) (p : PortU), s.takesFields src [(F.RGp_CTL_ENABLE p.val, 1)] = true → s.linkState p.val = 0 →
    s.on (F.RGp_CTL_ENABLE p.val) = false →
    Completes (.portEnable src p true) s fun t => t.linkState p.val = 1 ∧ t.rd (F.RGp_CTL_ENABLE p.val) = 1 :) ∧
  (∀ (s : State) (src : Src) (p : PortU), s.takesFields src [(F.RGp_CTL_ENABLE p.val, 0)] = true →
    Completes (.portEnable src p false) s fun t => t.linkState p.val = 0 ∧ t.rd (F.RGp_CTL_ENABLE p.val) = 0 ∧
      t.rd (F.RGp_LSTAT_CAUSE p.val) = if s.linkState p.val = 3 ∨ s.linkState p.val = 4 then 6 else s.rd (F.RGp_LSTAT_CAUSE p.val) :) ∧
  (∀ (s : State) (src : Src) (p : PortU), s.takesFields src [(F.RGp_CTL_RETRAIN p.val, 1)] = true → s.on (F.RGp_CTL_ENABLE p.val) = true →
    Completes (.retrain src p) s fun t => t.linkState p.val = 1 ∧
      t.rd (F.RGp_LSTAT_CAUSE p.val) = if s.linkState p.val = 3 ∨ s.linkState p.val = 4 then 6 else s.rd (F.RGp_LSTAT_CAUSE p.val) :) ∧
  (∀ (s : State) (p : PortU), s.linkState p.val = 1 → s.clocked 1 = true →
    Completes (.clockLock p) s fun t => t.linkState p.val = 2 ∧ t.rd (F.RGp_LSTAT_SIGNAL p.val) = 1 :) ∧
  (∀ (s : State) (p : PortU), s.linkState p.val = 1 → Completes (.acqTimeout p) s fun t => t.linkState p.val = 1 ∧
    t.rd (F.RGp_LSTAT_SIGNAL p.val) = 0 ∧ t.rd (F.RGp_LSTAT_RATEACT p.val) = s.rd (F.RGp_CTL_RATE p.val) ∧
    t.rd (F.RGp_LSTAT_FECACT p.val) = s.rd (F.RGp_CTL_FEC p.val) :) ∧
  (∀ (s : State) (p : PortU), s.linkState p.val = 2 →
    Completes (.blockLock p) s fun t => t.linkState p.val = 3 ∧ t.rd (F.RGp_LSTAT_BLOCK p.val) = 1 :) ∧
  (∀ (s : State) (p : PortU), s.linkState p.val = 2 →
    Completes (.lockTimeout p) s fun t => t.linkState p.val = 1 ∧ t.rd (F.RGp_LSTAT_BLOCK p.val) = 0 :) ∧
  (∀ (s : State) (p : PortU), s.linkState p.val = 3 → Completes (.greetTimeout p) s fun t =>
    t.linkState p.val = 5 ∧ t.rd (F.RGp_LSTAT_CAUSE p.val) = 7 ∧
    t.rd (F.RGp_FAULTS_COUNT p.val) = min (s.rd (F.RGp_FAULTS_COUNT p.val) + 1) (2 ^ 32 - 1) :) ∧
  (∀ (s : State) (p : PortU), s.isUp p.val = true → Completes (.keepaliveTimeout p) s fun t =>
    t.linkState p.val = 5 ∧ t.rd (F.RGp_LSTAT_CAUSE p.val) = 1 ∧ t.rd (F.RGp_LSTAT_KAOUT p.val) = 2 :) ∧
  (∀ (s : State) (p : PortU) (cause : LossCause), s.isUp p.val = true → Completes (.linkFaultDetected p cause) s fun t =>
    t.linkState p.val = 5 ∧ t.rd (F.RGp_LSTAT_CAUSE p.val) = lossCode cause :) ∧
  (∀ (s : State) (p : PortU), s.isUp p.val = true → Completes (.linkdown p) s fun t =>
    t.linkState p.val = 5 ∧ t.rd (F.RGp_LSTAT_CAUSE p.val) = 5 :) ∧
  (∀ (s : State) (p : PortU), s.linkState p.val = 5 → s.on (F.RGp_CTL_ENABLE p.val) = true → Completes (.holdoffEnd p) s fun t =>
    t.linkState p.val = if s.on F.NC_MODE_POLICY then 0 else 1 :) ∧
  (∀ (s : State) (p : PortR) (present txf : Bool), s.isUp p.val = true → Completes (.moduleSignal p present true txf) s fun t =>
    t.linkState p.val = 5 ∧ t.rd (F.RGp_LSTAT_CAUSE p.val) = 2 :) ∧
  (∀ (s : State) (p : PortR) (present los txf : Bool), (los = true → s.isUp p.val = false) →
    Completes (.moduleSignal p present los txf) s fun t => t.rd (F.RGp_LSTAT_MODPRES p.val) = b2n present ∧
      t.rd (F.RGp_LSTAT_MODLOS p.val) = b2n los ∧ t.rd (F.RGp_LSTAT_MODTXF p.val) = b2n txf :) ∧
  (∀ (s : State) (src : Src) (p : PortU), s.takesFields src [(F.RGp_CTL_ENABLE p.val, 1)] = true → s.on (F.RGp_CTL_ENABLE p.val) = true →
    Completes (.portEnable src p true) s fun t => t.linkState p.val = s.linkState p.val :) ∧
  (∀ (s : State) (src : Src) (p : PortU), s.takesFields src [(F.RGp_CTL_RETRAIN p.val, 1)] = true → s.on (F.RGp_CTL_ENABLE p.val) = false →
    Completes (.retrain src p) s fun t => t.linkState p.val = 0 :)

/-- R78, R80, R82, R84, R85, R90, R137: what a link port sends by itself, what a HELLO and a PULSE that it receives do, the optics poller's
bytes, and a raw module access from its start to its end. Where it rests on the model's own readings: assumptions 18, 64. -/
def Obligations.LinkCellsAndModules : Prop :=
  (∀ (s : State) (p : PortU), s.linkState p.val = 3 ∨ (s.isUp p.val = true ∧ (s.link p.val).pulsed = false) →
    Completes (.helloSend p) s fun t => t = s.emit (.cell p.val (s.helloCell p.val)) :) ∧
  (∀ (s : State) (p : PortU), s.isUp p.val = true →
    Completes (.pulseSend p) s fun t => t = s.emit (.cell p.val (linkCell 7 7 0 [])) :) ∧
  (∀ (s : State) (p : PortU) (c : Cell), s.linkState p.val = 3 → beAt c.payload 0 1 = facing p.val → beAt c.payload 1 1 / 2 % 2 = 1 →
    (s.link p.val).miswired = false → s.clocked 1 = true → Completes (.hello p c) s fun t => t.linkState p.val = 4 ∧ t.rd (F.RGp_LSTAT_MISWIRED p.val) = 0 ∧
      t.rd (F.RGp_PEERH_IDENT p.val) = beAt c.payload 4 4 ∧ t.rd (F.RGp_PEERL_IDENT p.val) = beAt c.payload 8 4 :) ∧
  (∀ (s : State) (p : PortU) (c : Cell), s.linkState p.val = 3 → beAt c.payload 0 1 ≠ facing p.val → s.on (F.RGp_LSTAT_MISWIRED p.val) = false →
    Completes (.hello p c) s fun t => t.linkState p.val = 3 ∧ t.rd (F.RGp_LSTAT_MISWIRED p.val) = 1 :) ∧
  (∀ (s : State) (p : PortU), s.isUp p.val = true →
    Completes (.pulse p) s fun t => t.linkState p.val = 4 ∧ t.rd (F.RGp_LSTAT_KAOUT p.val) = 1 ∧ (t.link p.val).pulsed = true :) ∧
  (∀ (s : State) (p : PortU), s.linkState p.val = 5 → Completes (.pulse p) s fun t =>
    t.rd (F.RGp_LATE_COUNT p.val) = min (s.rd (F.RGp_LATE_COUNT p.val) + 1) (2 ^ 32 - 1) :) ∧
  (∀ (s : State) (p : PortR), (s.link p.val).holding = true →
    Completes (.unwrapHoldEnd p) s fun t => t.wrapped p.val = false ∧ t.rd F.RG_WRAP_HOLDOUT = 1 ∧ (t.link p.val).holding = false :) ∧
  (∀ (s : State) (p : PortR) (b : List Byte), Completes (.opticsPoll p (some b)) s fun t =>
    t.rd (F.RGp_OPT2_VALID p.val) = 1 ∧ t.rd (F.RGp_OPT0_TEMP p.val) = beAt b 0 2 % 2 ^ 16 ∧ t.rd (F.RGp_OPT0_VCC p.val) = beAt b 2 2 % 2 ^ 16 ∧
    t.rd (F.RGp_OPT2_TXBIAS p.val) = beAt b 4 2 % 2 ^ 16 ∧ t.rd (F.RGp_OPT1_TXPWR p.val) = beAt b 6 2 % 2 ^ 16 ∧
    t.rd (F.RGp_OPT1_RXPWR p.val) = beAt b 8 2 % 2 ^ 16 :) ∧
  (∀ (s : State) (p : PortR), Completes (.opticsPoll p none) s fun t => t = s.wr (F.RGp_OPT2_VALID p.val) 0 :) ∧
  (∀ (s : State) (src : Src) (p : PortR) (addr wdata : Byte) (dev wr : Bool),
    s.takesFields src [(F.RGp_I2C_ADDR p.val, addr.toNat), (F.RGp_I2C_DEV p.val, b2n dev), (F.RGp_I2C_WR p.val, b2n wr),
      (F.RGp_I2C_WDATA p.val, wdata.toNat), (F.RGp_I2C_BUSY p.val, 1)] = true →
    Completes (.i2cTransfer src p addr dev wr wdata) s fun t => t.on (F.RGp_I2C_BUSY p.val) = true ∧
      t.out = s.out ++ [.i2c p.val (if dev then 0xA2 else 0xA0) addr.toNat wr wdata.toNat, .answer src .ok []] :) ∧
  (∀ (s : State) (p : PortR) (ack : Bool) (data : Byte), s.on (F.RGp_I2C_BUSY p.val) = true →
    Completes (.i2cTransferDone p ack data) s fun t => t.on (F.RGp_I2C_BUSY p.val) = false ∧ t.on (F.RGp_I2C_ERR p.val) = !ack ∧
      (ack = true → s.on (F.RGp_I2C_WR p.val) = false → t.rd (F.RGp_I2CDAT_RDATA p.val) = data.toNat) :) ∧
  (∀ (s : State) (p : PortR), s.on (F.RGp_I2C_BUSY p.val) = true →
    Completes (.i2cStretchTimeout p) s fun t => t.on (F.RGp_I2C_BUSY p.val) = false ∧ t.on (F.RGp_I2C_ERR p.val) = true :) ∧
  (∀ (s : State) (p : PortU) (c : Cell), s.linkState p.val = 3 → (s.link p.val).miswired = true → Completes (.hello p c) s fun t =>
    t.linkState p.val = 3 :) ∧
  (∀ (s : State) (p : PortU) (c : Cell), s.isUp p.val = true → Completes (.hello p c) s fun t => t.linkState p.val = 4 ∧
    t.rd (F.RGp_LSTAT_MISWIRED p.val) = s.rd (F.RGp_LSTAT_MISWIRED p.val) ∧ t.rd (F.RGp_PEERH_IDENT p.val) = beAt c.payload 4 4 ∧
    t.rd (F.RGp_PEERL_IDENT p.val) = beAt c.payload 8 4 :)

/-- R97, R101 to R103: an arriving header with a good HEC and lawful fields is handled as R103 says, one with a bad HEC is discarded and
counted; the end of a cell that R103 delivers hands a good cell to the node's units and counts a bad one; what the removal table says of a
pass-through cell at a ring port of an assigned node: its own address, its own unicast cell come round, the hop limit, everything else.
Where it rests on the model's own reading: assumption 3. -/
def Obligations.ArrivingCells : Prop :=
  (∀ (s : State) (p : PortR) (w0 w1 w2 w3 w4 w5 : Word), s.isUp p.val = true →
    let c := cellOfWords w0 w1 w2 w3 w4 w5
    c.hec = w5.extractLsb' 0 16 → c.headOk = true → c.link = false →
    Completes (.cellHeader p.castSucc w0 w1 w2 w3 w4 w5) s fun t =>
      (∃ out, (t.link p.val).rx = some { hdr := c, disp := (s.removalRow p.val c).1, outPort := out }) ∧
      t.rd (F.RGp_RXCELL_COUNT p.val) = min (s.rd (F.RGp_RXCELL_COUNT p.val) + 1) (2 ^ 32 - 1) :) ∧
  (∀ (s : State) (p : PortU) (w0 w1 w2 w3 w4 w5 : Word), s.isUp p.val = true →
    let c := cellOfWords w0 w1 w2 w3 w4 w5
    c.hec ≠ w5.extractLsb' 0 16 →
    Completes (.cellHeader p w0 w1 w2 w3 w4 w5) s fun t =>
      (t.link p.val).rx = some { hdr := c, disp := .discard, outPort := p.val } ∧
      t.rd (F.RGp_HECERR_COUNT p.val) = min (s.rd (F.RGp_HECERR_COUNT p.val) + 1) (2 ^ 32 - 1) :) ∧
  (∀ (s : State) (p : PortU) (r : RxCell) (pay : List Byte) (crc : Word) (cor unc : Byte), (s.link p.val).rx = some r → r.disp = .deliver →
    r.hdr.poison = false → pay.length = r.hdr.len.toNat → ({ r.hdr with payload := pay } : Cell).trailer = crc →
    Completes (.cellTrailer p pay crc false cor unc) s fun t =>
      t.inbox = s.inbox ++ [(p.val, { r.hdr with payload := pay })] ∧ (t.link p.val).rx = none ∧
      t.regs = (s.fecCount p.val cor.toNat unc.toNat).regs :) ∧
  (∀ (s : State) (p : PortU) (r : RxCell) (pay : List Byte) (crc : Word) (cor unc : Byte), (s.link p.val).rx = some r → r.disp = .deliver →
    r.hdr.poison = false → pay.length = r.hdr.len.toNat → ({ r.hdr with payload := pay } : Cell).trailer ≠ crc →
    Completes (.cellTrailer p pay crc false cor unc) s fun t =>
      t.inbox = s.inbox ∧ t.rd (F.RGp_CRCERR_COUNT p.val) = min (s.rd (F.RGp_CRCERR_COUNT p.val) + 1) (2 ^ 32 - 1) :) ∧
  (∀ (s : State) (p : PortU) (r : RxCell) (pay : List Byte) (crc : Word) (cor unc : Byte), (s.link p.val).rx = some r → r.disp ≠ .discard →
    Completes (.cellTrailer p pay crc true cor unc) s fun t =>
      t.inbox = s.inbox ∧ t.rd (F.RGp_RXSTOMP_COUNT p.val) = min (s.rd (F.RGp_RXSTOMP_COUNT p.val) + 1) (2 ^ 32 - 1) :) ∧
  (∀ (s : State) (p : PortR) (c : Cell), s.isAssigned = true → c.mcast = false →
    (c.dring.toNat = s.ownRing → c.dnode.toNat = s.ownNode → (s.removalRow p.val c).1 = .deliver) ∧
    (¬(c.dring.toNat = s.ownRing ∧ c.dnode.toNat = s.ownNode) →
      (c.dring.toNat ≠ s.ownRing → s.routeMode c.dring.toNat = 2 → (s.removalRow p.val c).1 = .toUplink) ∧
      (¬(c.dring.toNat ≠ s.ownRing ∧ s.routeMode c.dring.toNat = 2) →
        (c.sring.toNat = s.ownRing → c.snode.toNat = s.ownNode →
          s.removalRow p.val c = (.removed, some (F.RGp_NODEST_COUNT p.val))) ∧
        (¬(c.sring.toNat = s.ownRing ∧ c.snode.toNat = s.ownNode) →
          (s.rd F.RG_HOPLIM_LIMIT ≤ c.hops.toNat → s.removalRow p.val c = (.removed, some (F.RGp_HOPDROP_COUNT p.val))) ∧
          (c.hops.toNat < s.rd F.RG_HOPLIM_LIMIT → s.wrapped (other p.val) = false → s.removalRow p.val c = (.forward, none))))) :) ∧
  (∀ (s : State) (p : PortR) (c : Cell), s.isAssigned = true → c.mcast = true →
    (c.sring.toNat = s.ownRing → c.snode.toNat = s.ownNode →
      s.removalRow p.val c = (if c.type = 7 ∧ (c.op = 3 ∨ c.op = 9) then .deliver else .removed, none)) ∧
    (¬(c.sring.toNat = s.ownRing ∧ c.snode.toNat = s.ownNode) →
      (s.rd F.RG_HOPLIM_LIMIT ≤ c.hops.toNat → s.removalRow p.val c = (.removed, some (F.RGp_HOPDROP_COUNT p.val))) ∧
      (c.hops.toNat < s.rd F.RG_HOPLIM_LIMIT → s.wrapped (other p.val) = false →
        s.removalRow p.val c = (if s.member c.dnode.toNat = true ∨ c.isRead = true then .copyForward else .forward, none))) :) ∧
  (∀ (s : State) (p : PortR) (c : Cell), s.isAssigned = false → s.wrapped (other p.val) = false →
    s.removalRow p.val c = (if c.isRead = true then .copyForward else .forward, none) :)

/-- R105, R106: what a cell boundary sends, and what a round start gives back. `u` is the state once poisoned cells have left the queues
(R23). -/
def Obligations.InsertionAndCredit : Prop :=
  (∀ (s u : State) (p : PortR) (c : Nat) (x : TCell), u = s.dropPoisoned p.val → s.isUp p.val = true → s.wrapped p.val = false →
    (s.link p.val).tx = none → u.pick p.val 8 = .pass c → transitReady (u.link p.val).transit c = some x →
    Completes (.cellBoundary p .good) s fun t =>
      t.out = (u.emit (if x.awaits then .cellHead p.val x.cell else .cell p.val x.cell)).out ∧
      (t.link p.val).transit.length + 1 = (u.link p.val).transit.length ∧
      t.rd (F.RGp_TXCELL_COUNT p.val) = min (u.rd (F.RGp_TXCELL_COUNT p.val) + 1) (2 ^ 32 - 1) :) ∧
  (∀ (s u : State) (p : PortR) (c : Nat) (i : EItem), u = s.dropPoisoned p.val → s.isUp p.val = true → s.wrapped p.val = false →
    (s.link p.val).tx = none → u.pick p.val 8 = .entitled c → (u.outOf p.val).head c = some i →
    Completes (.cellBoundary p .good) s fun t =>
      (u.emit (.cell p.val (u.syncCorr i.cell))).out <+: t.out ∧
      (t.link p.val).credit.getD c 0 = (u.link p.val).credit.getD c 0 - ((u.syncCorr i.cell).wire : Int) ∧
      (t.outOf p.val).items = dropHead c (u.outOf p.val).items ∧ (t.link p.val).transit = (u.link p.val).transit ∧
      t.rd (F.RGp_INSERT_COUNT p.val) = min (u.rd (F.RGp_INSERT_COUNT p.val) + 1) (2 ^ 32 - 1) :) ∧
  (∀ (s u : State) (p : PortR) (c : Nat) (i : EItem), u = s.dropPoisoned p.val → s.isUp p.val = true → s.wrapped p.val = false →
    (s.link p.val).tx = none → u.pick p.val 8 = .gap c → (u.outOf p.val).head c = some i →
    Completes (.cellBoundary p .good) s fun t =>
      (u.emit (.cell p.val (u.syncCorr i.cell))).out <+: t.out ∧ (t.link p.val).credit = (u.link p.val).credit ∧
      t.rd (F.RGp_GAPINS_COUNT p.val) = min (u.rd (F.RGp_GAPINS_COUNT p.val) + 1) (2 ^ 32 - 1) :) ∧
  (∀ (s u : State) (p : PortR) (pool : PoolRead), u = s.dropPoisoned p.val → s.isUp p.val = true → s.wrapped p.val = false →
    (s.link p.val).tx = none → u.pick p.val 8 = .nothing →
    Completes (.cellBoundary p pool) s fun t => t.out = u.out ∧ t.regs = u.regs :) ∧
  (∀ (s : State), Completes .roundStart s fun t => t.regs = s.regs ∧ t.out = s.out ∧
    ∀ (p : PortR) (c : Fin 8), (t.link p.val).credit.getD c.val 0 =
      min ((s.link p.val).credit.getD c.val 0 + (s.quota p.val c.val : Int)) (s.quota p.val c.val : Int) :) ∧
  (∀ (s : State) (p : PortR) (c : Nat), s.pick p.val 8 = .entitled c → 0 < (s.link p.val).credit.getD c 0 :) ∧
  (∀ (p : PortR) (c : Fin 8), (State.reset.link p.val).credit.getD c.val 0 = 0 :) ∧
  (∀ (s : State) (p : PortR) (c : Fin 8), (s.localHead p.val c.val).isSome = true → 0 < (s.link p.val).credit.getD c.val 0 →
    18 ≤ 256 - transitOcc (s.link p.val).transit → s.pick p.val (c.val + 1) = .entitled c.val :) ∧
  (∀ (s u : State) (p : PortR) (c : Nat) (i : EItem), u = s.dropPoisoned p.val → s.isUp p.val = true → s.wrapped p.val = false →
    (s.link p.val).tx = none → u.pick p.val 8 = .entitled c → (u.outOf p.val).head c = some i →
    Completes (.cellBoundary p .first) s fun t => (t.link p.val).credit = (u.link p.val).credit ∧
      t.rd (F.SW_POISONn_COUNT p.val) = min (u.rd (F.SW_POISONn_COUNT p.val) + 1) (2 ^ 32 - 1) :)

/-- R117, R118, R120 to R123: an ENUMERATE from its sending to its return or its timeout, what it does at the nodes it passes, and the
window that holds the cells of a sending of the position table until it is whole or times out. Where it rests on the model's own reading:
assumption 3. -/
def Obligations.EnumerationAndPositions : Prop :=
  (∀ (s : State) (src : Src), s.takesFields src [(F.RG_ENUM_START, 1)] = true → s.on F.RG_ROLE_ROOT = true →
    Completes (.enumStart src) s fun t => t.mem.sentGen = (s.mem.sentGen + 1) % 65536 ∧ t.mem.awaiting = true ∧
      t.rd F.RG_ENUM_GEN = (s.mem.sentGen + 1) % 65536 :) ∧
  (∀ (s : State), s.on F.RG_ROLE_ROOT = true → s.on F.NC_MODE_POLICY = false → s.rd F.RG_ENUM_PERIOD ≠ 0 →
    Completes .enumPeriod s fun t => t.mem.sentGen = (s.mem.sentGen + 1) % 65536 ∧ t.mem.awaiting = true ∧
      t.rd F.RG_ENUM_GEN = (s.mem.sentGen + 1) % 65536 :) ∧
  (∀ (s : State) (c : Cell), c.ring = false → c.wraps = 0 → Completes (.enumerate 1 c) s fun t =>
    t.mem.counted = some (beAt c.payload 0 2, beAt c.payload 2 2 % 4096, c.hops.toNat + 1) ∧ t.rd F.RG_ENUM_GEN = beAt c.payload 0 2 ∧
    (s.isAssigned = false → t.rd F.RG_SELF_RING = c.sring.toNat ∧ t.on F.RG_SELF_PROV = true) :) ∧
  (∀ (s : State) (c : Cell), s.mem.fifo.length < 4096 → Completes (.report c) s fun t => t.mem.fifo = s.mem.fifo ++ [c.payload] :) ∧
  (∀ (s : State) (c : Cell), 4096 ≤ s.mem.fifo.length → Completes (.report c) s fun t => t.mem.fifo = s.mem.fifo ∧
    t.rd F.RG_RPTLOST_COUNT = min (s.rd F.RG_RPTLOST_COUNT + 1) (2 ^ 32 - 1) :) ∧
  (∀ (s : State) (src : Src), s.takesField src F.RG_RPT5_DATA = true → Completes (.reportPop src) s fun t =>
    t.mem.fifo = s.mem.fifo.tail ∧ t.out = s.out ++ [.answer src .ok (bytesOf [BitVec.ofNat 32 (s.reportWord 5)])] :) ∧
  (∀ (s : State) (c : Cell), beAt c.payload 8 8 = s.otp.fusedId → s.mem.awaiting = true → beAt c.payload 0 2 = s.mem.sentGen →
    Completes (.enumerateReturn c) s fun t => t.rd F.RG_ENUM_RESULT = 1 ∧ t.rd F.RG_POS_SIZE = c.hops.toNat + 1 ∧ t.mem.awaiting = false :) ∧
  (∀ (s : State) (c : Cell), beAt c.payload 8 8 = s.otp.fusedId → s.mem.awaiting = false →
    Completes (.enumerateReturn c) s fun t => t.rd F.RG_ENUMLATE_COUNT = min (s.rd F.RG_ENUMLATE_COUNT + 1) (2 ^ 32 - 1) ∧ t.mem = s.mem :) ∧
  (∀ (s : State), s.mem.awaiting = true → Completes .enumTimeout s fun t => t.rd F.RG_ENUM_RESULT = 2 ∧ t.mem.awaiting = false :) ∧
  (∀ (s : State), s.on F.RG_ROLE_ROOT = true → s.mem.building = true → s.mem.sentTable = false → Completes .postableTimer s fun t =>
    t.mem.sentTable = true ∧ t.mem.table = s.mem.built ∧ t.mem.tableGen = some s.mem.sentGen ∧ t.rd F.RG_POS_VALID = 1 ∧
    t.rd F.RG_POS_POS = 0 :) ∧
  (∀ (s : State) (p : PortR) (c : Cell), beAt c.payload 2 2 = 0 → 1 ≤ beAt c.payload 4 2 → beAt c.payload 4 2 ≤ 1020 →
    c.len.toNat = 8 + 2 * beAt c.payload 4 2 → Completes (.postable p c) s fun t =>
      t.mem.window = some ⟨beAt c.payload 0 2, beAt c.payload 6 2, [(0, postEntries c.payload (beAt c.payload 4 2))]⟩ ∧ t.regs = s.regs :) ∧
  (∀ (s : State) (p : PortR) (c : Cell) (w : PosWin), 0 < beAt c.payload 2 2 → 1 ≤ beAt c.payload 4 2 → beAt c.payload 4 2 ≤ 1020 →
    c.len.toNat = 8 + 2 * beAt c.payload 4 2 → beAt c.payload 2 2 + beAt c.payload 4 2 ≤ 4096 → s.mem.window = some w →
    beAt c.payload 0 2 = w.gen → beAt c.payload 6 2 = w.size → overlaps w.held (beAt c.payload 2 2) (beAt c.payload 4 2) = false →
    (w.held.map fun h => h.2.length).sum + beAt c.payload 4 2 = 4096 → s.mem.tableGen = none →
    Completes (.postable p c) s fun t => t.mem.window = none ∧ t.mem.tableGen = some w.gen ∧ t.rd F.RG_POS_POSOUT = 1 ∧
      t.on F.RG_POS_VALID = true ∧ t.rd F.RG_POS_SIZE = w.size % 2 ^ 13 :) ∧
  (∀ (s : State), s.mem.window.isSome = true → Completes .postableWindowTimeout s fun t =>
    t.mem = { s.mem with window := none } ∧ t.rd F.RG_POS_POSOUT = 2 :)

/-- R124 to R128, R131: binding a node, refusing to rebind it, releasing it, a duplicate of its number, and a cell that comes over the
uplink. Where it rests on the model's own readings: assumptions 3, 21. -/
def Obligations.Membership : Prop :=
  (∀ (s : State) (p : PortR) (c : Cell), s.assignMatches c.payload = true → s.isAssigned = false → s.on F.RG_SELF_PROV = true →
    s.hasRight c.from 2 = true → Completes (.assign p c) s fun t => t.isAssigned = true ∧ t.ownNode = beAt c.payload 12 2 % 4096 ∧
      t.ownRing = beAt c.payload 14 1 % 16 ∧ t.rd F.RG_SELF_BOUND = beAt c.payload 8 1 % 4 ∧ t.on F.RG_SELF_PROV = false :) ∧
  (∀ (s : State) (p : PortR) (c : Cell), s.assignMatches c.payload = true → s.isAssigned = true → s.hasRight c.from 2 = true →
    s.ownNode ≠ beAt c.payload 12 2 % 4096 → Completes (.assign p c) s fun t => t.ownNode = s.ownNode ∧ t.ownRing = s.ownRing ∧
      t.rd F.RG_ASSIGNREF_COUNT = min (s.rd F.RG_ASSIGNREF_COUNT + 1) (2 ^ 32 - 1) :) ∧
  (∀ (s : State) (c : Cell) (ident pos : Nat), s.on F.RG_ROLE_ROOT = true → beAt c.payload 8 1 = 0 →
    (s.mem.seen.find? fun x => x.1 == beAt c.payload 0 8) = some (ident, pos) →
    Completes (.assigned c) s fun t => t.mem.built = Tbl.put 0 (beAt c.payload 10 2 % 4096) pos s.mem.built :) ∧
  (∀ (s : State) (c : Cell), s.isAssigned = true → c.dring.toNat = s.ownRing → c.dnode.toNat = s.ownNode → s.hasRight c.from 2 = true →
    beAt c.payload 0 8 = s.otp.fusedId → s.usb.bulk = [] → Completes (.releaseCell c) s fun t =>
      t.isAssigned = false ∧ t.ownNode = 0 ∧ t.pair = PairSt.init :) ∧
  (∀ (s : State) (c : Cell), s.isAssigned = true → c.sring.toNat = s.ownRing → c.snode.toNat = s.ownNode →
    beAt c.payload 0 8 ≠ s.otp.fusedId → Completes (.dupcheck c) s fun t => t.on F.RG_SELF_DUP = true ∧
      t.rd F.RG_DUPNODE_COUNT = min (s.rd F.RG_DUPNODE_COUNT + 1) (2 ^ 32 - 1) :) ∧
  (∀ (s : State) (c : Cell), s.isAssigned = true → c.dring.toNat = s.ownRing → c.dnode.toNat = s.ownNode → c.mcast = false →
    Completes (.uplinkCell c) s fun t => t.inbox = (s.takeCell c).inbox ++ [(2, { c with hops := 0, wraps := 0 })] :) ∧
  (∀ (s : State) (c : Cell), s.isAssigned = true → c.dring.toNat ≠ s.ownRing → s.routeMode c.dring.toNat ≠ 1 →
    Completes (.uplinkCell c) s fun t => t.rd F.RG_NOROUTE_COUNT = min (s.rd F.RG_NOROUTE_COUNT + 1) (2 ^ 32 - 1) ∧ t.links = s.links :)

/-- R143, R144, R149, R151 to R155: a request in order at its destination advances EXPECT, is applied to the hub's own units, and is
answered with the OP, STATUS and data of its kind; an unlisted OP does nothing and is answered BADREQ; a posted write is kept with its ACK.
Where it rests on the model's own readings: assumptions 3, 24, 25. -/
def Obligations.RequestsInOrderAreApplied : Prop :=
  (∀ (s u : State) (c : Cell) (i : Nat) (bad : Bool) (st : Status) (bs : List Byte), s.startsAt c i = true → c.op = 0 → c.wellFormed = true →
    isWindow c.req.cls = false → (s.started c i).unitRead c.from c.req.cls c.req.off c.req.count bad = (u, st, bs) →
    (s.sup.mcUp = true → u.sup.mcUp = true) → u.isAssigned = true →
    Completes (.read c bad) s fun t => t = (u.respond c (u.response c 0 c.seq.toNat (respBlock c.tag st.code 0 bs.length ++ bs))).settled :) ∧
  (∀ (s u : State) (c : Cell) (i : Nat) (st : Status), s.startsAt c i = true → c.op = 1 → c.wellFormed = true →
    isWindow c.req.cls = false → (s.started c i).unitWrite c.from c.req.cls c.req.off c.req.data = (u, st) →
    (s.sup.mcUp = true → u.sup.mcUp = true) → u.isAssigned = true →
    Completes (.write c) s fun t => t = (u.respond c (u.response c 1 c.seq.toNat (respBlock c.tag st.code 0 0))).settled :) ∧
  (∀ (s u : State) (c : Cell) (i : Nat) (st : Status) (k : Option (Fin 17)), s.startsAt c i = true → c.op = 2 → c.wellFormed = true →
    isWindow c.req.cls = false → (s.started c i).unitWrite c.from c.req.cls c.req.off c.req.data = (u, st) →
    (s.sup.mcUp = true → u.sup.mcUp = true) → u.isAssigned = true →
    Completes (.pwrite c k) s fun t => t = (u.respond c (u.response c 2 c.seq.toNat [])).settled :) ∧
  (∀ (s u : State) (c : Cell) (i : Nat) (st : Status) (bs : List Byte), s.startsAt c i = true → c.op = 3 → c.wellFormed = true →
    (s.started c i).unitAtomic c.from false c.req.cls c.req.off c.req.size (leNat c.req.data) 0 = (u, st, bs) →
    (s.sup.mcUp = true → u.sup.mcUp = true) → u.isAssigned = true →
    Completes (.fadd c) s fun t => t = (u.respond c (u.response c 3 c.seq.toNat (respBlock c.tag st.code 0 bs.length ++ bs))).settled :) ∧
  (∀ (s u : State) (c : Cell) (i : Nat) (st : Status) (bs : List Byte), s.startsAt c i = true → c.op = 4 → c.wellFormed = true →
    (s.started c i).unitAtomic c.from true c.req.cls c.req.off c.req.size (leNat (c.req.data.take c.req.size))
      (leNat (c.req.data.drop c.req.size)) = (u, st, bs) →
    (s.sup.mcUp = true → u.sup.mcUp = true) → u.isAssigned = true →
    Completes (.cswap c) s fun t => t = (u.respond c (u.response c 3 c.seq.toNat (respBlock c.tag st.code 0 bs.length ++ bs))).settled :) ∧
  (∀ (s : State) (c : Cell) (i : Nat), s.startsAt c i = true → 5 ≤ c.op.toNat → Completes (.reservedOpRequest c) s fun t =>
    t = ((s.started c i).used.respond c ((s.started c i).response c 1 c.seq.toNat (respBlock c.tag 0x0A 0 0))).settled :) ∧
  (∀ (s : State) (c : Cell) (i : Nat) (k : Option (Fin 17)), s.startsAt c i = true → c.op = 2 → c.wellFormed = true →
    isWindow c.req.cls = true → s.hasRight c.from 1 = true → s.on F.FW_STAT_RECOVERY = false →
    s.windowHolds (c.req.cls - 0x10) c.req.off c.req.count = true → s.postedQueued < 8 → s.usb.bulk = [] →
    Completes (.pwrite c k) s fun t => ∃ j, t.bridge.jobs = s.bridge.jobs ++ [j] ∧ j.posted = true ∧ j.write = true ∧
      j.win = c.req.cls - 0x10 ∧ j.off = c.req.off ∧ j.data = c.req.data :) ∧
  (∀ (s : State) (c : Cell) (i : Nat), s.startsAt c i = true → (s.dst i).applying = false → Completes (.skip c) s fun t =>
    t = (s.started c i).used.respond c ((s.started c i).response c 10 c.seq.toNat (respBlock (s.started c i).freeW.toNat 9 0 0)) :)

/-- R141, R143, R144, R155, R156: SYNC gives its source a fresh destination entry, a request that is not in order changes no unit, the ACK
timer sends what is due, and an atomic reads its register whole, writes the new value, or nothing where a compare fails, and gives the old
value. Where it rests on the model's own readings: assumptions 3, 24. -/
def Obligations.DestinationEntries : Prop :=
  (∀ (s : State) (c : Cell) (i : Nat), s.isAssigned = true → s.dstFind c.sring.toNat c.snode.toNat = some i →
    Completes (.sync c) s fun t => t.dst i =
      { DstEntry.init with used := true, pring := c.sring.toNat, pnode := c.snode.toNat, expect := c.seq.toNat } :) ∧
  (∀ (s : State) (c : Cell) (i : Nat), s.isAssigned = true → s.dstFind c.sring.toNat c.snode.toNat = none → s.dstFree = some i →
    Completes (.sync c) s fun t => t.dst i =
      { DstEntry.init with used := true, pring := c.sring.toNat, pnode := c.snode.toNat, expect := c.seq.toNat } :) ∧
  (∀ (s : State) (c : Cell) (i : Nat), s.isAssigned = true → s.dstFind c.sring.toNat c.snode.toNat = some i →
    0 < (c.seq.toNat + 65536 - (s.dst i).expect) % 65536 → (c.seq.toNat + 65536 - (s.dst i).expect) % 65536 < 65528 → s.usb.bulk = [] →
    Completes (.write c) s fun t => t = (s.takeCell c).bump F.RG_XOOSEQ_COUNT :) ∧
  (∀ (s : State) (i : Fin 256), (s.dst i.val).used = true → (s.dst i.val).ackDue = true →
    Completes (.ackTimer i) s fun t => t.dst i.val = { s.dst i.val with ackDue := false } :) ∧
  (∀ (s : State) (i : Fin 256), (s.dst i.val).applying = false → Completes (.pairEntryAge true i) s fun t => t.dst i.val = DstEntry.init :) ∧
  (∀ (s u : State) (src : Src) (cls off a b : Nat) (w : Word), cls ≤ 0x0D → s.mayWriteAt src cls off = true → off % 4 = 0 →
    s.wordsExist src cls off 1 = true → plainWords cls off 1 = true → s.readWords src cls off 1 = some (u, [w]) →
    (w.toNat ≠ a → s.unitAtomic src true cls off 4 a b = (u, .ok, leBytes w.toNat 4)) ∧
    (∀ v, w.toNat = a → u.writeAll src cls off (wordsOf (leBytes b 4) 1) = (v, .ok) →
      s.unitAtomic src true cls off 4 a b = (v, .ok, leBytes w.toNat 4)) ∧
    (∀ v, u.writeAll src cls off (wordsOf (leBytes ((w.toNat + a) % 2 ^ 32) 4) 1) = (v, .ok) →
      s.unitAtomic src false cls off 4 a 0 = (v, .ok, leBytes w.toNat 4)) :)

/-- R140 to R146: a source entry from its first request over its responses, resends and the SYNC after a failed window. Where it rests on
the model's own readings: assumptions 3, 23. -/
def Obligations.SourceEntries : Prop :=
  (∀ (s : State) (m : Src) (op : BitVec 4) (addr : BitVec 64) (count : BitVec 16) (data : List Byte) (tag : Word) (bad : Bool) (i : Nat),
    m.isRing = false → op.toNat ≤ 4 → data.length ≤ 2032 → s.isAssigned = true → bitsOf addr.toNat 48 12 ≠ s.ownNode →
    s.unreachable (addr.toNat / 2 ^ 60) = false → s.pair.queue = [] → s.srcFind (addr.toNat / 2 ^ 60) (bitsOf addr.toNat 48 12) = none →
    s.srcFree = some i →
    Completes (.transactionRequest m op addr count data tag bad) s fun t => (t.srcE i).state = .sync ∧
      (t.srcE i).pring = addr.toNat / 2 ^ 60 ∧ (t.srcE i).pnode = bitsOf addr.toNat 48 12 ∧ (t.srcE i).waiting.length = 1 ∧
      (t.srcE i).base = s.clock.tick % 65536 ∧ (t.srcE i).timer = true :) ∧
  (∀ (s : State) (i : Fin 256), (s.srcE i.val).timer = true → (s.srcE i.val).state = .active →
    (s.srcE i.val).tries + 1 ≤ s.rd F.RG_XCFG_RETRIES → s.usb.bulk = [] →
    Completes (.responseTimeout i) s fun t => (t.srcE i.val).tries = (s.srcE i.val).tries + 1 ∧ (t.srcE i.val).race = 2 ∧
      (t.srcE i.val).kept.length = (s.srcE i.val).kept.length ∧
      t.rd F.RG_XRETRY_COUNT = min (s.rd F.RG_XRETRY_COUNT + 1) (2 ^ 32 - 1) :) ∧
  (∀ (s : State) (i : Fin 256), (s.srcE i.val).timer = true → (s.srcE i.val).state = .active →
    s.rd F.RG_XCFG_RETRIES < (s.srcE i.val).tries + 1 → s.usb.bulk = [] →
    Completes (.responseTimeout i) s fun t => (t.srcE i.val).state = .sync ∧ (t.srcE i.val).kept = [] ∧
      t.rd F.RG_XFAIL_COUNT = min (s.rd F.RG_XFAIL_COUNT + 1) (2 ^ 32 - 1) :) ∧
  (∀ (s : State) (i : Fin 256), (s.srcE i.val).state = .dead → Completes (.deadSyncRetry i) s fun t =>
    (t.srcE i.val).state = .dead ∧ (t.srcE i.val).tries = 0 ∧ (t.srcE i.val).timer = true ∧ (t.srcE i.val).base = (s.srcE i.val).base :) ∧
  (∀ (s : State) (i : Fin 256), (s.srcE i.val).state = .active → (s.srcE i.val).kept = [] → (s.srcE i.val).waiting = [] →
    s.pair.queue = [] → Completes (.pairEntryAge false i) s fun t => t.srcE i.val = SrcEntry.init :) ∧
  (∀ (s : State) (c : Cell) (i : Nat), s.answers c i = true → Completes (.rdata c) s fun t => s.answered t c i :) ∧
  (∀ (s : State) (c : Cell) (i : Nat), s.answers c i = true → Completes (.wdone c) s fun t => s.answered t c i :) ∧
  (∀ (s : State) (c : Cell) (i : Nat), s.answers c i = true → Completes (.ack c) s fun t => s.answered t c i :) ∧
  (∀ (s : State) (c : Cell) (i : Nat), s.answers c i = true → Completes (.atomic c) s fun t => s.answered t c i :) ∧
  (∀ (s : State) (c : Cell) (i : Nat), s.answers c i = true → Completes (.skipped c) s fun t => s.answered t c i :) ∧
  (∀ (s : State) (c : Cell) (i : Nat) (k : Kept) (m : Src), s.answers c i = true → (s.srcE i).kept = [k] → k.posted = false →
    k.waiter = .master m → m ≠ .s → c.op ≠ 2 → Completes (.rdata c) s fun t =>
      t.out = s.out ++ [.answer m (statusOf (beAt c.payload 4 1)) (c.payload.drop 8)] :) ∧
  (∀ (s : State) (c : Cell) (i : Nat), s.srcFind c.sring.toNat c.snode.toNat = some i → (s.srcE i).timer = true → (s.srcE i).state = .sync →
    (s.srcE i).base = c.seq.toNat → (s.srcE i).failed = [] → (s.srcE i).waiting = [] → s.usb.bulk = [] →
    Completes (.synced c) s fun t => (t.srcE i).state = .active ∧ (t.srcE i).next = c.seq.toNat ∧ (t.srcE i).timer = false :) ∧
  (∀ (s : State) (c : Cell) (i : Nat), s.srcFind c.sring.toNat c.snode.toNat = some i → (s.srcE i).timer = true → (s.srcE i).state = .sync →
    (s.srcE i).base = c.seq.toNat → s.usb.bulk = [] →
    Completes (.nosync c) s fun t => (t.srcE i).state = .dead ∧ (t.srcE i).timer = false ∧ (t.srcE i).waiting = [] :) ∧
  (∀ (s : State) (c : Cell), s.srcFind c.sring.toNat c.snode.toNat = none → s.usb.bulk = [] →
    Completes (.wdone c) s fun t => t = (s.takeCell c).bump F.RG_XLATE_COUNT :)

/-- R160 to R168: the hub as master of the LXB, from the grant over the end of a beat to the errors that end a request. Where it rests on
the model's own reading: assumption 27. -/
def Obligations.BusMaster : Prop :=
  (∀ (s : State), s.bridge.owner = .idle → s.clocked 5 = true → s.bridge.jobs = [] → s.on F.BX_LCFG_TARGET = true → s.usb.bulk = [] →
    Completes (.lxbGrant true) s fun t => t.bridge.owner = .ext ∧ t.bridge.lastExt = true ∧ t.out = s.out :) ∧
  (∀ (s : State) (j : LxbJob) (r : List LxbJob), s.bridge.owner = .idle → s.clocked 5 = true → s.roleHigh = true → s.bridge.jobs = j :: r →
    j.beat < j.lastBeat → s.usb.bulk = [] →
    Completes (.lxbGrant false) s fun t => t.bridge.owner = .hub ∧ t.bridge.left = s.chunkLen j ∧
      t.out = s.out ++ [.lxbAddr j.win (s.beatAddr j j.beat) j.write (s.chunkLen j - 1),
        if j.write then .lxbBeat (s.beatAddr j j.beat) (j.lanes j.beat) (j.beatData j.beat)
        else .lxbBeat (s.beatAddr j j.beat) (j.readLanes j.beat (s.chunkLen j)) []] :) ∧
  (∀ (s : State) (j : LxbJob) (r : List LxbJob) (w : Word), s.bridge.owner = .hub → s.bridge.jobs = j :: r → j.win < 8 →
    j.beat + 1 < j.beats → 2 ≤ s.bridge.left → s.usb.bulk = [] →
    Completes (.lxbBeatEnd w) s fun t => t.bridge.owner = .hub ∧ t.bridge.left = s.bridge.left - 1 ∧
      t.rd (F.BX_WINn_STAT_WAITRACE j.win) = 1 ∧ ∃ j', t.bridge.jobs = j' :: r ∧ j'.beat = j.beat + 1 :) ∧
  (∀ (s : State) (j : LxbJob) (r : List LxbJob) (w : Word) (m : Src), s.bridge.owner = .hub → s.bridge.jobs = j :: r → j.win < 8 →
    j.beats ≤ j.beat + 1 → j.posted = false → j.write = false → j.reply = .home (.master m) → m ≠ .s → s.bridge.held = [] → s.usb.bulk = [] →
    Completes (.lxbBeatEnd w) s fun t => t.bridge.owner = .idle ∧ t.bridge.jobs = r ∧
      t.out = s.out ++ [.answer m .ok (j.got ++ j.beatBytes w)] :) ∧
  (∀ (s : State) (j : LxbJob) (r : List LxbJob), s.bridge.owner = .hub → s.bridge.jobs = j :: r → j.win < 8 → s.bridge.held = [] →
    s.usb.bulk = [] → Completes .lxbErr s fun t => t.bridge.owner = .idle ∧ t.bridge.jobs = r ∧ t.on F.BX_ISTAT_LXBERR = true ∧
      t.rd F.BX_LXBERR_COUNT = min (s.rd F.BX_LXBERR_COUNT + 1) (2 ^ 32 - 1) :) ∧
  (∀ (s : State) (j : LxbJob) (r : List LxbJob), s.bridge.owner = .hub → s.bridge.jobs = j :: r → j.win < 8 → s.bridge.held = [] →
    s.usb.bulk = [] → Completes .lxbWaitTimeout s fun t => t.bridge.owner = .idle ∧ t.bridge.jobs = r ∧ t.on F.BX_ISTAT_WAITOUT = true ∧
      t.rd (F.BX_WINn_STAT_WAITRACE j.win) = 2 ∧ t.rd F.BX_WAITOUT_COUNT = min (s.rd F.BX_WAITOUT_COUNT + 1) (2 ^ 32 - 1) :) ∧
  (∀ (s : State), Completes .lxbLateReady s fun t =>
    t.rd F.BX_LATE_COUNT = min (s.rd F.BX_LATE_COUNT + 1) (2 ^ 32 - 1) ∧ t.bridge = s.bridge :)

/-- R170 to R174: the hub as target of the external master: its own units, the far windows, and the slots of delayed reads. Where it rests
on the model's own readings: assumptions 15, 27. -/
def Obligations.BusTarget : Prop :=
  (∀ (s u : State) (addr w : Word) (bs : List Byte), s.bridge.owner = .ext → addr.toNat < 2 ^ 28 → bitsOf addr.toNat 20 8 ≤ 0x0E →
    s.unitRead .lxb (bitsOf addr.toNat 20 8) (bitsOf addr.toNat 0 20) 4 false = (u, .ok, bs) →
    Completes (.lxbLocalAccess addr false [(15, w)] none) s fun t => t = (u.extDone (.lxbReady bs)).settled :) ∧
  (∀ (s u : State) (addr w : Word), s.bridge.owner = .ext → addr.toNat < 2 ^ 28 → bitsOf addr.toNat 20 8 ≤ 0x0E →
    s.unitWrite .lxb (bitsOf addr.toNat 20 8) (bitsOf addr.toNat 0 20) (leBytes w.toNat 4) = (u, .ok) →
    Completes (.lxbLocalAccess addr true [(15, w)] none) s fun t => t = (u.extDone (.lxbReady [])).settled :) ∧
  (∀ (s : State) (addr : Word) (beats : List (BitVec 4 × Word)), s.bridge.owner = .ext → 2 ^ 31 ≤ addr.toNat →
    s.on (F.BX_FARn_CFG_ENABLE (bitsOf addr.toNat 28 3)) = true → s.farUsed + (runsOf 0 none (beatLanes beats)).length ≤ 16 →
    Completes (.farWrite addr beats) s fun t =>
      t = (s.extDone (.lxbReady [])).farSend (bitsOf addr.toNat 28 3) addr.toNat (runsOf 0 none (beatLanes beats)) :) ∧
  (∀ (s : State) (addr : Word) (beats : List (BitVec 4 × Word)), s.bridge.owner = .ext → 2 ^ 31 ≤ addr.toNat →
    s.on (F.BX_FARn_CFG_ENABLE (bitsOf addr.toNat 28 3)) = true → 16 < s.farUsed + (runsOf 0 none (beatLanes beats)).length →
    s.clocked 5 = true → s.roleHigh = true →
    Completes (.farWrite addr beats) s fun t => t.out = s.out ++ [.lxbRetry] ∧ t.bridge.owner = .idle ∧ t.pair = s.pair ∧
      t.rd F.BX_PWFULL_COUNT = min (s.rd F.BX_PWFULL_COUNT + 1) (2 ^ 32 - 1) :) ∧
  (∀ (s : State) (addr : Word) (bl be : BitVec 4) (d : Nat), s.bridge.owner = .ext → 2 ^ 31 ≤ addr.toNat →
    s.on (F.BX_FARn_CFG_ENABLE (bitsOf addr.toNat 28 3)) = true →
    (∀ d' < 4, ¬((s.slot d').state ≠ 0 ∧ (s.slot d').addr = addr.toNat ∧ (s.slot d').bl = bl.toNat ∧ (s.slot d').be = be.toNat)) →
    s.bridge.expired = [] → ((List.range 4).find? fun d => (s.slot d).state == 0) = some d →
    Completes (.farRead addr bl be) s fun t => t = s.retry.delayedStart d addr.toNat bl.toNat be.toNat :) ∧
  (∀ (s : State) (addr : Word) (bl be : BitVec 4) (d : Nat), s.bridge.owner = .ext → 2 ^ 31 ≤ addr.toNat →
    s.on (F.BX_FARn_CFG_ENABLE (bitsOf addr.toNat 28 3)) = true →
    ((List.range 4).find? fun d => (s.slot d).state != 0 && (s.slot d).addr == addr.toNat && (s.slot d).bl == bl.toNat &&
      (s.slot d).be == be.toNat) = some d → (s.slot d).state = 2 → s.rd (F.BX_DRd_STAT_STATUS d) = 0 → s.clocked 5 = true → s.roleHigh = true →
    Completes (.farRead addr bl be) s fun t => t.out = s.out ++ [.lxbReady (s.slot d).data] ∧ t.slot d = DrSlot.init ∧
      t.rd (F.BX_DRd_STAT_STATE d) = 0 ∧ t.rd (F.BX_DRd_STAT_OUTCOME d) = 1 :) ∧
  (∀ (s : State) (d : Fin 4) (st : Byte) (data : List Byte), (s.slot d.val).state = 1 →
    Completes (.delayedReadResult d st data) s fun t => t.slot d.val = { s.slot d.val with state := 2, data := data } ∧
      t.rd (F.BX_DRd_STAT_STATE d.val) = 2 ∧ t.rd (F.BX_DRd_STAT_STATUS d.val) = (statusOf st.toNat).code :) ∧
  (∀ (s : State) (d : Fin 4), (s.slot d.val).state = 2 → Completes (.delayedReadDiscard d) s fun t => t.slot d.val = DrSlot.init ∧
    t.rd (F.BX_DRd_STAT_STATE d.val) = 0 ∧ t.rd (F.BX_DRd_STAT_OUTCOME d.val) = 2 ∧ t.on F.BX_ISTAT_DRDISC = true ∧
    t.rd F.BX_DRDISC_COUNT = min (s.rd F.BX_DRDISC_COUNT + 1) (2 ^ 32 - 1) :)

/-- R20 to R23, R179, R181, R195, R197: a beat's tag parity, a frame's way into an edge input and on to its output, and a tunnelled one.
Where it rests on the model's own reading: assumption 29. -/
def Obligations.FramesAreForwarded : Prop :=
  (∀ (s : State) (p : Fin 27) (tag : BitVec 64) (data : List Byte) (ok : Bool), popCount tag.toNat 64 % 2 = 1 →
    Completes (.slathBeat p tag data ok) s fun t => (∃ b, Tbl.get none p.val t.slath.beats = some b ∧ b.dead = true) ∧
      t.rd (F.SW_TAGPARn_COUNT p.val) = min (s.rd (F.SW_TAGPARn_COUNT p.val) + 1) (2 ^ (F.SW_TAGPARn_COUNT p.val).width - 1) :) ∧
  (∀ (s : State) (p : Fin 27) (tag : BitVec 64) (data : List Byte), popCount tag.toNat 64 % 2 = 0 → bitsOf tag.toNat 62 1 = 1 →
    bitsOf tag.toNat 63 1 = 0 → Completes (.slathBeat p tag data true) s fun t =>
      ∃ b, Tbl.get none p.val t.slath.beats = some b ∧ b.route = bitsOf tag.toNat 0 32 ∧ b.src = bitsOf tag.toNat 37 5 ∧
        b.bytes = data.take (bitsOf tag.toNat 57 5 + 1) ∧ b.dead = false :) ∧
  (∀ (s : State) (e : Fin 16) (f : Frame) (r : RouteTo) (vid : Nat), s.on (F.SW_PCFGn_ENABLE (e.val + 3)) = true →
    s.on (F.SW_PSTATn_LINK (e.val + 3)) = true → f.etype ≠ 0x8808 → s.on F.TM_DCFG_GMEN = false →
    vid = s.vlanAt (e.val + 3) f →
    s.on (F.SW_VLANv_VALID vid) = true → bitsOf (s.rd (F.SW_VLANv_MEMBERS vid)) e.val 1 = 1 → s.routeEdge (e.val + 3) vid f.dst = some r →
    Completes (.edgeFrame e f) s fun t =>
      ∃ x, Tbl.get none (e.val + 3) t.slath.inputs = some x ∧ x.head = f ∧ x.vid = vid ∧ x.route = some r :) ∧
  (∀ (s : State) (e : Fin 16) (data : List Byte) (x : InFrame) (k : Nat), Tbl.get none (e.val + 3) s.slath.inputs = some x → x.cut = false →
    64 ≤ ({ x.head with data := data } : Frame).size → ({ x.head with data := data } : Frame).size ≤ s.rd (F.SW_PCFGn_MAXLEN (e.val + 3)) →
    x.ptp = false → x.ctl = false → x.barred = false → x.route = some { outs := [k], tunnel := none } → s.on (F.SW_PCFGn_LEARN (e.val + 3)) = false →
    Completes (.edgeFrameEnd e data true false false) s fun t =>
      t = (s.setInput (e.val + 3) none).enqueue k (mkItem (.frame { x.head with data := data }) x.tc x.dp (e.val + 3) 0) :) ∧
  (∀ (s : State) (e : Fin 16) (data : List Byte) (x : InFrame) (code : Bool), Tbl.get none (e.val + 3) s.slath.inputs = some x → x.cut = false →
    Completes (.edgeFrameEnd e data false code false) s fun t => t.out = s.out ∧ t.outs = s.outs ∧
      t.rd (F.SW_RXFCSn_COUNT (e.val + 3)) =
        min (s.rd (F.SW_RXFCSn_COUNT (e.val + 3)) + 1) (2 ^ (F.SW_RXFCSn_COUNT (e.val + 3)).width - 1) :) ∧
  (∀ (s : State) (p : PortU) (c : Cell) (q : Bool) (pcp : BitVec 3) (vid : BitVec 12) (e : FdbEntry) (k : Nat), c.lt = false →
    (frameOf c.frameBytes).tag = some (pcp, q, vid) → s.on (F.SW_VLANv_VALID vid.toNat) = true → isGroup (frameOf c.frameBytes).dst = false →
    let s1 := (s.takeCell c).learn vid.toNat (frameOf c.frameBytes).src.toNat (.remote c.sring.toNat c.snode.toNat)
    s1.fdbFind vid.toNat (frameOf c.frameBytes).dst.toNat = some e → e.dst = .edge k →
    Completes (.tunnelledFrame p c) s fun t => t = s1.enqueue (k + 3) (mkItem (.frame (s1.untagAt (k + 3) vid.toNat (frameOf c.frameBytes)))
      (bitsOf (s.rd F.SW_RINGPCP_MAP) (3 * pcp.toNat) 3) c.dp.toNat p.val 0) :) ∧
  (∀ (s : State) (p : Fin 27) (tag : BitVec 64) (data : List Byte) (ok : Bool) (b : BeatFrame), popCount tag.toNat 64 % 2 = 0 →
    bitsOf tag.toNat 62 1 = 0 → bitsOf tag.toNat 63 1 = 0 → Tbl.get none p.val s.slath.beats = some b → b.dead = true →
    Completes (.slathBeat p tag data ok) s fun t => t = s :) ∧
  (∀ (s : State) (e : Fin 16) (data : List Byte) (x : InFrame) (r : RouteTo), Tbl.get none (e.val + 3) s.slath.inputs = some x → x.cut = false →
    64 ≤ ({ x.head with data := data } : Frame).size → ({ x.head with data := data } : Frame).size ≤ s.rd (F.SW_PCFGn_MAXLEN (e.val + 3)) →
    x.ptp = false → x.ctl = false → x.barred = false → x.route = some r → r.tunnel = none → s.on (F.SW_PCFGn_LEARN (e.val + 3)) = false →
    Completes (.edgeFrameEnd e data true false false) s fun t => t = (s.setInput (e.val + 3) none).enqueueMulti
      (r.outs.map fun k => (k, mkItem (.frame { x.head with data := data }) x.tc x.dp (e.val + 3) 0)) :) ∧
  (∀ (s : State) (e : Fin 16) (data : List Byte) (x : InFrame) (k : Nat), Tbl.get none (e.val + 3) s.slath.inputs = some x → x.cut = false →
    64 ≤ ({ x.head with data := data } : Frame).size → ({ x.head with data := data } : Frame).size ≤ s.rd (F.SW_PCFGn_MAXLEN (e.val + 3)) →
    x.ptp = false → x.route = some { outs := [k], tunnel := none } →
    Completes (.edgeFrameEnd e data true false true) s fun t => t = (s.setInput (e.val + 3) none).bump (F.SW_POISONn_COUNT k) :)

/-- R200 to R202: pauses that come and go, the hold of a port whose link is down, and a port that is disabled. Where it rests on the model's
own reading: assumption 29. -/
def Obligations.PauseAndPortHold : Prop :=
  (∀ (s : State) (e : Fin 16) (quanta : BitVec 16), s.on (F.SW_PCFGn_PAUSERX (e.val + 3)) = true → s.on (F.SW_PCFGn_PFC (e.val + 3)) = false →
    Completes (.pause e quanta) s fun t => (t.outOf (e.val + 3)).paused = (quanta != 0) ∧
      t.rd (F.SW_PAUSERXn_COUNT (e.val + 3)) =
        min (s.rd (F.SW_PAUSERXn_COUNT (e.val + 3)) + 1) (2 ^ (F.SW_PAUSERXn_COUNT (e.val + 3)).width - 1) :) ∧
  (∀ (s : State) (e : Fin 16) (classes : Byte) (quanta : List (BitVec 16)), s.on (F.SW_PCFGn_PFC (e.val + 3)) = true →
    Completes (.priorityPause e classes quanta) s fun t => (t.outOf (e.val + 3)).paused = (s.outOf (e.val + 3)).paused ∧
      (t.outOf (e.val + 3)).pausedP = pauseMask classes.toNat (quanta.map (·.toNat)) [0, 1, 2, 3, 4, 5, 6, 7] (s.outOf (e.val + 3)).pausedP :) ∧
  (∀ (s : State) (e : Fin 16), Completes (.pauseExpiry e none) s fun t => (t.outOf (e.val + 3)).paused = false ∧
    (t.outOf (e.val + 3)).pausedP = (s.outOf (e.val + 3)).pausedP :) ∧
  (∀ (s : State) (e : Fin 16) (q : Fin 8), Completes (.pauseExpiry e (some q)) s fun t =>
    t.queuePaused (e.val + 3) q.val = false ∧ (t.outOf (e.val + 3)).paused = (s.outOf (e.val + 3)).paused :) ∧
  (∀ (s : State) (e : Fin 16), s.on (F.SW_PSTATn_XOFF (e.val + 3)) = true →
    s.rd (F.SW_FCn_XON (e.val + 3)) < Tbl.get 0 (e.val + 3) s.slath.heldBy →
    s.clocked 2 = true → s.roleHigh = true → Completes (.pauseRepeat e) s fun t =>
      t.out = s.out ++ [.pause (e.val + 3) (s.rd F.SW_MACH_MAC * 2 ^ 32 + s.rd F.SW_MACL_MAC) (if s.on (F.SW_PCFGn_PFC (e.val + 3)) then some 255 else none) 0xFFFF] :) ∧
  (∀ (s : State) (n : Fin 17), n ≠ 0 → s.on (F.SW_PSTATn_LINK (n.val + 2)) = true → Tbl.get none (n.val + 2) s.slath.inputs = none →
    s.rd (F.SW_HOLDn_HOLD (n.val + 2)) ≠ 0 → Completes (.edgeLinkDown n) s fun t =>
      t.on (F.SW_PSTATn_LINK (n.val + 2)) = false ∧ (t.outOf (n.val + 2)).holding = true ∧ (t.outOf (n.val + 2)).sending = none :) ∧
  (∀ (s : State) (n : Fin 17) (speed : BitVec 2) (v : Nat), n ≠ 0 → s.on (F.SW_PSTATn_LINK (n.val + 2)) = false →
    (s.outOf (n.val + 2)).holding = true → s.on (F.SW_PCFGn_ENABLE (n.val + 2)) = true →
    modeSpeed (s.rd (F.SW_PCFGn_MODE (n.val + 2))) speed.toNat = some v →
    Completes (.edgeLinkUp n speed true) s fun t => t.rd (F.SW_PSTATn_SPEED (n.val + 2)) = v ∧ t.on (F.SW_PSTATn_LINK (n.val + 2)) = true ∧ (t.outOf (n.val + 2)).holding = false ∧
      t.rd (F.SW_PSTATn_HOLDOUT (n.val + 2)) = 1 :) ∧
  (∀ (s : State) (n : Fin 17), (s.outOf (n.val + 2)).holding = true → Completes (.portHoldTimeout n) s fun t =>
    (t.outOf (n.val + 2)).holding = false ∧ (t.outOf (n.val + 2)).items = [] ∧ t.on (F.SW_PSTATn_FLUSHING (n.val + 2)) = true ∧
    t.rd (F.SW_PSTATn_HOLDOUT (n.val + 2)) = 2 :) ∧
  (∀ (s : State) (src : Src) (n : Fin 17), s.takesFields src [(F.SW_PCFGn_ENABLE (n.val + 2), 0)] = true →
    s.on (F.SW_PCFGn_ENABLE (n.val + 2)) = true → Completes (.portDisable src n) s fun t =>
      t.on (F.SW_PCFGn_ENABLE (n.val + 2)) = false ∧ (t.outOf (n.val + 2)).items = [] ∧ t.on (F.SW_PSTATn_FLUSHING (n.val + 2)) = true :) ∧
  (∀ (s : State) (n : Fin 17) (speed : BitVec 2), n ≠ 0 → Completes (.edgeLinkUp n speed false) s fun t => t = s :) ∧
  (∀ (s : State) (n : Nat) (i : EItem), s.outFlushing n = true → s.enqueue n i = (s.bump (F.SW_FLUSHn_COUNT n)).launchRef i.lti (-1) :)

/-- R187, R188: training of the overflow interface, its refresh, and blocks that are read back; R191, R192: the hash windows and a switch.
Where it rests on the model's own readings: assumptions 9, 30. -/
def Obligations.OverflowAndHashes : Prop :=
  (∀ (s : State) (ok : Bool), s.on F.SW_OVCFG_FITTED = true → Completes (.overflowTraining ok) s fun t => t.on F.SW_OVCFG_TRAINED = ok :) ∧
  (∀ (s : State), Completes .ddrRefresh s fun t => t = s :) ∧
  (∀ (s : State) (n : Fin 19) (q : Fin 8) (bad : Bool) (i : EItem),
    (((s.outOf n.val).queue q.val).find? fun i => !i.spill.isEmpty) = some i →
    (((s.outOf n.val).queue q.val).map fun i => i.ded + i.shr).sum < 8 →
    Completes (.overflowReadback n q bad) s fun t => ∃ a b back, a + b ≤ i.spill.length ∧ back = i.spill.take (a + b) ∧
      (t.outOf n.val).items = changeSpilled q.val (fun x => { x with
        ded := x.ded + a, shr := x.shr + b, spill := x.spill.drop (a + b), poison := x.poison || (bad && !back.isEmpty) })
        (s.outOf n.val).items ∧ t.slath.blocks0 = s.slath.blocks0 - underSeed0 back ∧
      t.slath.blocks1 = s.slath.blocks1 - (back.length - underSeed0 back) :) ∧
  (∀ (s : State), Completes .hashWindow s fun t => t.slath.bankWrites = [0, 0, 0, 0] ∧ t.slath.flowA = 0 ∧ t.slath.flowB = 0 ∧
    bitsOf (t.rd F.SW_HASHCTL_IMBAL) 1 1 = b2n (decide (32 ≤ s.rd F.SW_FDBOCC_OVF)) :) ∧
  (∀ (s : State) (src : Src) (h : Fin 3), s.takesFields src [(F.SW_HASHCTL_SEL, s.rd F.SW_HASHCTL_SEL ^^^ 2 ^ h.val)] = true →
    Completes (.hashSwitch src h) s fun t => t.rd F.SW_HASHCTL_SEL = s.rd F.SW_HASHCTL_SEL ^^^ 2 ^ h.val ∧ t.switching h.val = true :) ∧
  (∀ (s : State), s.switching 0 = true → (if s.sel 0 = 0 then s.slath.blocks1 else s.slath.blocks0) = 0 →
    Completes (.hashSwitchComplete 0) s fun t => t.switching 0 = false ∧
      t.rd F.SW_HASHSW_COUNT = min (s.rd F.SW_HASHSW_COUNT + 1) (2 ^ 32 - 1) :) ∧
  (∀ (s : State) (l : List FdbEntry) (lost : Nat), s.switching 1 = true → s.slath.fdbWaiting = false →
    fdbWalk (s.seed 1 (s.sel 1)) s.slath.fdb [] 0 = some (l, lost) →
    Completes (.hashSwitchComplete 1) s fun t => t.switching 1 = false ∧ t.slath.fdb = l ∧
      t.rd F.SW_LRNFAIL_COUNT = min (s.rd F.SW_LRNFAIL_COUNT + lost) (2 ^ 32 - 1) :) ∧
  (∀ (s : State), s.switching 2 = true → s.slath.flowMoved.length = 4096 → Completes (.hashSwitchComplete 2) s fun t => t.switching 2 = false ∧
    t.rd F.SW_HASHSW_COUNT = min (s.rd F.SW_HASHSW_COUNT + 1) (2 ^ 32 - 1) :) ∧
  (∀ (s : State), s.switching 2 = true → Completes .flowForceTimer s fun t => t.slath.flowForce = true ∧ t.regs = s.regs :) ∧
  (∀ (s : State), s.slath.flowMoved.length ≠ 4096 → Completes (.hashSwitchComplete 2) s fun t => t = s :)

/-- R194, R196, R198: the forwarding database under its six operations and under ageing. Where it rests on the model's own reading:
assumption 30. -/
def Obligations.ForwardingDatabase : Prop :=
  (∀ (s : State) (vid : BitVec 12) (mac : BitVec 48), s.rd F.SW_AGE_SEC ≠ 0 → Completes (.fdbAge vid mac) s fun t =>
    t.slath.fdb = s.slath.fdb.filter fun x => x.static || !(x.vid == vid.toNat && x.mac == mac.toNat) :) ∧
  (∀ (s : State) (src : Src) (pl : Option Nat), s.takesFields src [(F.SW_FDBCMD_OP, 1), (F.SW_FDBCMD_BUSY, 1)] = true → s.switching 1 = false →
    let vid := s.rd F.SW_FDBMACH_VID
    let mac := s.rd F.SW_FDBMACH_MAC * 2 ^ 32 + s.rd F.SW_FDBMACL_MAC
    s.fdbFind vid mac = none → fdbPlace s.slath.fdb (fdbBucket (s.seed 1 (s.sel 1)) vid mac) = some pl →
    Completes (.fdbAddStatic src) s fun t => t.rd F.SW_FDBCMD_RESULT = 1 ∧ t.on F.SW_FDBCMD_BUSY = false ∧
      t.slath.fdb = s.slath.fdb ++ [⟨vid, mac, s.fdbDst, true, s.clock.tick, pl⟩] :) ∧
  (∀ (s : State) (src : Src), s.takesFields src [(F.SW_FDBCMD_OP, 1), (F.SW_FDBCMD_BUSY, 1)] = true → s.switching 1 = false →
    let vid := s.rd F.SW_FDBMACH_VID
    let mac := s.rd F.SW_FDBMACH_MAC * 2 ^ 32 + s.rd F.SW_FDBMACL_MAC
    s.fdbFind vid mac = none → fdbPlace s.slath.fdb (fdbBucket (s.seed 1 (s.sel 1)) vid mac) = none →
    Completes (.fdbAddStatic src) s fun t => t.rd F.SW_FDBCMD_RESULT = 3 ∧ t.slath.fdb = s.slath.fdb :) ∧
  (∀ (s : State) (src : Src) (e : FdbEntry), s.takesFields src [(F.SW_FDBCMD_OP, 2), (F.SW_FDBCMD_BUSY, 1)] = true → s.switching 1 = false →
    let vid := s.rd F.SW_FDBMACH_VID
    let mac := s.rd F.SW_FDBMACH_MAC * 2 ^ 32 + s.rd F.SW_FDBMACL_MAC
    s.fdbFind vid mac = some e → Completes (.fdbDelete src) s fun t => t.rd F.SW_FDBCMD_RESULT = 1 ∧
      t.slath.fdb = s.slath.fdb.filter fun x => !s.fdbIs vid mac x :) ∧
  (∀ (s : State) (src : Src) (e : FdbEntry), s.takesFields src [(F.SW_FDBCMD_OP, 3), (F.SW_FDBCMD_BUSY, 1)] = true → s.switching 1 = false →
    s.fdbFind (s.rd F.SW_FDBMACH_VID) (s.rd F.SW_FDBMACH_MAC * 2 ^ 32 + s.rd F.SW_FDBMACL_MAC) = some e →
    Completes (.fdbLookup src) s fun t => t.rd F.SW_FDBCMD_RESULT = 1 ∧ t.on F.SW_FDBDST_STATIC = e.static ∧
      t.rd F.SW_FDBDST_KIND = (match e.dst with | .edge _ => 0 | .remote _ _ => 1 | .discard => 2) ∧ t.slath.fdb = s.slath.fdb :) ∧
  (∀ (s : State) (src : Src), s.takesFields src [(F.SW_FDBCMD_OP, 3), (F.SW_FDBCMD_BUSY, 1)] = true → s.switching 1 = false →
    s.fdbFind (s.rd F.SW_FDBMACH_VID) (s.rd F.SW_FDBMACH_MAC * 2 ^ 32 + s.rd F.SW_FDBMACL_MAC) = none →
    Completes (.fdbLookup src) s fun t => t.rd F.SW_FDBCMD_RESULT = 2 :) ∧
  (∀ (s : State) (src : Src), s.takesFields src [(F.SW_FDBCMD_OP, 4), (F.SW_FDBCMD_BUSY, 1)] = true → s.switching 1 = false →
    Completes (.fdbFlushDynamic src) s fun t => t.rd F.SW_FDBCMD_RESULT = 1 ∧
      t.slath.fdb = s.slath.fdb.filter fun x => x.static || x.dst != s.fdbDst :) ∧
  (∀ (s : State) (src : Src), s.takesFields src [(F.SW_FDBCMD_OP, 5), (F.SW_FDBCMD_BUSY, 1)] = true → s.switching 1 = false →
    Completes (.fdbFlushAll src) s fun t => t.rd F.SW_FDBCMD_RESULT = 1 ∧ t.slath.fdb = s.slath.fdb.filter fun x => x.static :)

/-- R206, R207, R210, R211, R219 to R221, R243: a frame starts at a boundary, ends, waits for its shaper or its launch time, or is given up.
Where it rests on the model's own reading: assumption 29. -/
def Obligations.EgressService : Prop :=
  (∀ (s : State) (n : Fin 25) (h : EItem), (s.outOf (n.val + 2)).sending = none →
    (n.val ≤ 16 → s.on (F.SW_PSTATn_LINK (n.val + 2)) = true) → (isEdge (n.val + 2) = true → s.clocked 2 = true) →
    (∀ i ∈ (s.outOf (n.val + 2)).items, i.poison = false) → s.eligible (n.val + 2) 7 = true → (s.outOf (n.val + 2)).head 7 = some h →
    Completes (.egressFrameBoundary n false) s fun t => (∃ x, (t.outOf (n.val + 2)).sending = some x ∧ x.item = h ∧ x.start = s.now16) ∧
      (t.outOf (n.val + 2)).items = dropHead 7 (s.outOf (n.val + 2)).items :) ∧
  (∀ (s : State) (n : Fin 25) (x : Sending) (bad : Bool), (s.outOf (n.val + 2)).sending = some x → x.awaits = false →
    s.sends (s.leaves (n.val + 2) x.item (x.stomp || bad)) = true →
    Completes (.frameSent n bad) s fun t => (t.outOf (n.val + 2)).sending = none ∧
      ∃ r, t.out = s.out ++ s.leaves (n.val + 2) x.item (x.stomp || bad) :: r :) ∧
  (∀ (s : State) (n : Fin 19) (q : Fin 8) (e : Int), (s.outOf n.val).elig.getD q.val none = some e →
    Completes (.shaperRelease n q) s fun t => release16 e ≤ (t.now16 : Int) ∧ t.regs = s.regs ∧ t.outs = s.outs :) ∧
  (∀ (s : State) (n : Fin 17) (q : Fin 8) (h : EItem), (s.outOf (n.val + 2)).head q.val = some h → s.unsendable (n.val + 2) q.val = true →
    Completes (.unsendableTimeout n q) s fun t => (t.outOf (n.val + 2)).items = dropHead q.val (s.outOf (n.val + 2)).items ∧
      t.rd (F.SW_GLONGn_COUNT (n.val + 2)) =
        min (s.rd (F.SW_GLONGn_COUNT (n.val + 2)) + 1) (2 ^ (F.SW_GLONGn_COUNT (n.val + 2)).width - 1) :) ∧
  (∀ (s : State) (n : Fin 16) (lti : BitVec 12), lti ≠ 0 → (∃ i ∈ (s.outOf (n.val + 3)).items, i.lti = lti.toNat) →
    Completes (.launchTime n lti) s fun t => t = s.reach (s.launchE lti.toNat).sec (s.launchE lti.toNat).ns (s.launchE lti.toNat).frac :) ∧
  (∀ (s : State) (n : Fin 16) (lti : BitVec 12), lti ≠ 0 → (∃ i ∈ (s.outOf (n.val + 3)).items, i.lti = lti.toNat) →
    Completes (.launchDeadline n lti) s fun t => t.rd (F.SW_LSTATn_OUTCOME (n.val + 3)) = 2 ∧
      (t.outOf (n.val + 3)).items = (s.outOf (n.val + 3)).items.filter (·.lti != lti.toNat) :) ∧
  (∀ (s : State) (n : Fin 25) (h : EItem), (s.outOf (n.val + 2)).sending = none →
    (n.val ≤ 16 → s.on (F.SW_PSTATn_LINK (n.val + 2)) = true) → (isEdge (n.val + 2) = true → s.clocked 2 = true) →
    (∀ i ∈ (s.outOf (n.val + 2)).items, i.poison = false) → s.eligible (n.val + 2) 7 = true → (s.outOf (n.val + 2)).head 7 = some h →
    Completes (.egressFrameBoundary n true) s fun t => (t.outOf (n.val + 2)).sending = none ∧
      (t.outOf (n.val + 2)).items = dropHead 7 (s.outOf (n.val + 2)).items ∧ t.rd (F.SW_POISONn_COUNT (n.val + 2)) =
        min (s.rd (F.SW_POISONn_COUNT (n.val + 2)) + 1) (2 ^ (F.SW_POISONn_COUNT (n.val + 2)).width - 1) :)

/-- R212 to R218: a gate list is armed, taken back, switched in, followed entry by entry, switched off, and started after a boot load. Where
it rests on the model's own reading: assumption 31. -/
def Obligations.TimeGates : Prop :=
  (∀ (s : State) (src : Src) (n : Fin 17) (l : Bool),
    s.takesFields src [(F.SW_GCTLn_ARM (n.val + 2), 1), (F.SW_GCTLn_PLIST (n.val + 2), b2n l)] = true → (s.outOf (n.val + 2)).armed = none →
    s.reached (s.rd (F.SW_GSWAPSn_SEC (n.val + 2))) (s.rd (F.SW_GSWAPNSn_NS (n.val + 2))) 0 = false →
    Completes (.gateArm src n l) s fun t => (t.outOf (n.val + 2)).armed = some (b2n l) ∧ t.on (F.SW_GSTATn_ARMED (n.val + 2)) = true ∧
      t.on (F.SW_GSTATn_LATESWAP (n.val + 2)) = false ∧ (t.outOf (n.val + 2)).active = (s.outOf (n.val + 2)).active :) ∧
  (∀ (s : State) (src : Src) (n : Fin 17), s.takesFields src [(F.SW_GCTLn_DISARM (n.val + 2), 1)] = true →
    (s.outOf (n.val + 2)).armed.isSome = true → Completes (.gateDisarm src n) s fun t => (t.outOf (n.val + 2)).armed = none ∧
      t.on (F.SW_GSTATn_ARMED (n.val + 2)) = false ∧ t.rd (F.SW_GSTATn_SWAPOUT (n.val + 2)) = 1 :) ∧
  (∀ (s : State) (src : Src) (n : Fin 17), s.takesFields src [(F.SW_GCTLn_OFF (n.val + 2), 1)] = true →
    Completes (.gateOff src n) s fun t => (t.outOf (n.val + 2)).active = none ∧ (t.outOf (n.val + 2)).armed = none ∧
      t.rd (F.SW_GSTATn_ACTIVE (n.val + 2)) = 0 ∧ t.rd (F.SW_GSTATn_STATE (n.val + 2)) = 255 :) ∧
  (∀ (s : State) (n : Fin 17) (l : Nat), (s.outOf (n.val + 2)).armed = some l → Completes (.gateSwap n) s fun t =>
    (t.outOf (n.val + 2)).armed = none ∧ (t.outOf (n.val + 2)).active = some l ∧ t.rd (F.SW_GSTATn_SWAPOUT (n.val + 2)) = 2 :) ∧
  (∀ (s : State) (n : Fin 17) (es : List (Nat × Nat)) (k ran : Nat), s.gatePos (n.val + 2) = some (es, k, ran) →
    Completes (.gateEntry n) s fun t => s.clock.site + ((es.getD k (0, 0)).2 - ran) ≤ t.clock.site ∧
      ∃ m, t = (s.ticks m).gateShow (n.val + 2) :) ∧
  (∀ (s : State), Completes .gateListBootStart s fun t => ∀ n : Fin 17, (t.outOf (n.val + 2)).active =
    if (s.outOf (n.val + 2)).bootList then some 0 else (s.outOf (n.val + 2)).active :)

/-- R224 to R227, R229, R231 to R240: the time latch shows one instant, a step sets local time; peer delay, the root's SYNC, a node's use of
a SYNC, and the discipline's timeouts. Where it rests on the model's own readings: assumptions 4, 34. -/
def Obligations.TimeReadsAndDistribution : Prop :=
  (∀ (s : State) (src : Src) (b : Bool), s.takesField src (if b then F.TM_SEC48L_SEC else F.TM_SEC_SEC) = true →
    Completes (.timeReadLatch src b) s fun t => t.rd F.TM_NS_NS = s.ns ∧ t.rd F.TM_FRAC_FRAC = s.frac ∧
      t.rd F.TM_SEC48H_SEC = s.sec48 / 2 ^ 32 ∧ t.rd F.TM_TICK_TICK = s.clock.tick % 2 ^ 32 ∧
      t.out = s.out ++ [.answer src .ok (bytesOf [BitVec.ofNat 32 s.sec])] :) ∧
  (∀ (s : State) (src : Src), s.takesFields src [(F.TM_CTL_SNAP, 1)] = true → Completes (.snap src) s fun t =>
    t.rd F.TM_NS_NS = s.ns ∧ t.rd F.TM_FRAC_FRAC = s.frac ∧ t.rd F.TM_SEC48H_SEC = s.sec48 / 2 ^ 32 ∧
    t.rd F.TM_TICK_TICK = s.clock.tick % 2 ^ 32 ∧ t.clock = s.clock :) ∧
  (∀ (s : State) (src : Src), s.takesFields src [(F.TM_CTL_STEP, 1)] = true → Completes (.timeStep src) s fun t =>
    t.clock.site = ((s.rd F.TM_SETH_SEC48 * 2 ^ 32 + s.rd F.TM_SETS_SEC) * secNs + s.rd F.TM_SETNS_NS) * nsUnit ∧
    t.clock.tick = s.clock.tick + 1 ∧ t.on F.TM_DSTAT_STEPPED = true ∧
    t.rd F.TM_STEPS_COUNT = min (s.rd F.TM_STEPS_COUNT + 1) (2 ^ (F.TM_STEPS_COUNT).width - 1) :) ∧
  (∀ (s : State) (p : PortR), s.isUp p.val = true → Completes (.pdreqSend p) s fun t =>
    t.out = (s.emit (.cell p.val (linkCell 5 6 1 (beBytes (Tbl.get 0 p.val s.tm.pdNext) 2 ++ beBytes 0 2)))).out ∧
    Tbl.get none p.val t.tm.pdWait = some { seq := Tbl.get 0 p.val s.tm.pdNext, t1 := s.now16 } :) ∧
  (∀ (s : State) (p : PortR) (c : Cell) (t2 t3 : BitVec 64), Completes (.pdreq p c t2 t3) s fun t => ∃ x, t.out = (s.emit (.cell p.val x)).out ∧
    x.corr = BitVec.ofInt 48 ((stamp16 t3 : Int) - stamp16 t2) ∧ x.payload = slice c.payload 0 2 ++ beBytes 0 2 ∧ x.op = 2 :) ∧
  (∀ (s : State) (p : PortR) (c : Cell) (t4 : BitVec 64) (w : PdPending), Tbl.get none p.val s.tm.pdWait = some w →
    beAt c.payload 0 2 = w.seq → (Tbl.get [] p.val s.tm.pdKept).length < 8 →
    let kept := (((stamp16 t4 : Int) - w.t1 - c.corr.toInt) / 2 / 256).toNat :: Tbl.get [] p.val s.tm.pdKept
    Completes (.pdresp p c t4) s fun t => Tbl.get none p.val t.tm.pdWait = none ∧ Tbl.get [] p.val t.tm.pdKept = kept ∧
      t.rd (F.TM_PDLYp_DELAY p.val) = kept.sum / kept.length % 2 ^ (F.TM_PDLYp_DELAY p.val).width ∧
      t.rd (if p.val = 0 then F.TM_PDSTAT_PDOUT0 else F.TM_PDSTAT_PDOUT1) = 1 :) ∧
  (∀ (s : State) (p : PortR) (c : Cell) (t4 : BitVec 64), Tbl.get none p.val s.tm.pdWait = none → Completes (.pdresp p c t4) s fun t =>
    t.rd F.TM_LATE_COUNT = min (s.rd F.TM_LATE_COUNT + 1) (2 ^ (F.TM_LATE_COUNT).width - 1) ∧ t.tm = s.tm :) ∧
  (∀ (s : State), s.on F.RG_ROLE_ROOT = true → s.isUp 0 = true → s.isUp 1 = true → s.wrapped 0 = false → s.wrapped 1 = false →
    (∀ n : Fin 2, Tbl.get 0 n.val s.slath.ded < s.dedCells n.val ∧ (s.outOf n.val).spilled 6 = false) → Completes .syncSend s fun t => t.tm.syncSent = (s.tm.syncSent + 1) % 65536 ∧
      (t.outOf 0).items.length = (s.outOf 0).items.length + 1 ∧ (t.outOf 1).items.length = (s.outOf 1).items.length + 1 :) ∧
  (∀ (s : State) (p : PortR) (c : Cell) (tin tout : BitVec 64), s.on F.RG_ROLE_ROOT = false → c.wraps = 0 → c.snode = 0 →
    s.isOwnRing c.sring.toNat = true → c.ring = false → s.on F.TM_DSTAT_SRCRING = false → s.tm.lastUsed = none → s.tm.syncLost = false →
    Completes (.timeSync p c tin tout) s fun t => t.tm.lastUsed = some (beAt c.payload 10 2) ∧ t.rd F.TM_DSTAT_SYNCOUT = 1 ∧
      t.rd F.TM_DSTAT_SYNCSEQ = beAt c.payload 10 2 ∧
      t.rd F.TM_DOFF_OFFSET = ofSigned 32 (wrapSite ((stamp16 tin : Int) - ((origin16 c.payload : Int) + c.corr.toInt +
        ((s.rd (F.TM_PDLYp_DELAY p.val) : Int) * 256 + toSigned 16 (s.rd (F.TM_ASYMp_ASYM p.val)) * 4096))) / 256) :) ∧
  (∀ (s : State) (p : PortR) (c : Cell) (tin tout : BitVec 64), s.on F.RG_ROLE_ROOT = false → c.wraps = 0 →
    (c.snode ≠ 0 ∨ s.isOwnRing c.sring.toNat = false) →
    Completes (.timeSync p c tin tout) s fun t => t.tm = s.tm ∧
      t.rd F.TM_SYNCBAD_COUNT = min (s.rd F.TM_SYNCBAD_COUNT + 1) (2 ^ (F.TM_SYNCBAD_COUNT).width - 1) :) ∧
  (∀ (s : State), s.on F.RG_ROLE_ROOT = false → s.rd F.TM_DSTAT_STATE = 1 ∨ s.rd F.TM_DSTAT_STATE = 2 → Completes .syncTimeout s fun t =>
    t.rd F.TM_DSTAT_STATE = 3 ∧ t.rd F.TM_DSTAT_SYNCOUT = 2 ∧ t.tm.syncLost = true :) ∧
  (∀ (s : State) (d : Byte) (off : BitVec 72), s.on F.RG_ROLE_ROOT = true → s.on F.TM_DCFG_GMEN = true → s.rd F.TM_DCFG_DOMAIN = d.toNat →
    Completes (.gmOffset d off) s fun t => t.rd F.TM_DOFF_OFFSET = ofSigned 32 off.toInt ∧ t.tm.firstUsed = true ∧ t.rd F.TM_DSTAT_STATE ≠ 0 :) ∧
  (∀ (s : State), s.on F.RG_ROLE_ROOT = true → s.rd F.TM_DSTAT_STATE = 1 ∨ s.rd F.TM_DSTAT_STATE = 2 → Completes .announceTimeout s fun t =>
    t.rd F.TM_DSTAT_STATE = 3 :) ∧
  (∀ (s : State) (d : Byte) (off : BitVec 72), s.rd F.TM_DCFG_DOMAIN ≠ d.toNat → Completes (.gmOffset d off) s fun t => t = s :)

/-- R243 to R247: compares, captures, transmit stamps and pulses per second. Where it rests on the model's own readings: assumptions 4, 33.
-/
def Obligations.ComparesAndCaptures : Prop :=
  (∀ (s : State) (src : Src) (e : Fin 16), s.takesField src (F.TM_TXIDn_SEQID e.val) = true → Completes (.txStampPop src e) s fun t =>
    t.stamps e.val = (s.stamps e.val).tail :) ∧
  (∀ (s : State) (src : Src) (k : Fin 32), s.takesFields src [(F.TM_CMPk_CFG_ARM k.val, 1)] = true → s.on (F.TM_CMPk_CFG_ARM k.val) = false →
    s.reached (s.rd (F.TM_CMPk_S_SEC k.val)) (s.rd (F.TM_CMPk_NS_NS k.val)) 0 = false →
    Completes (.compareArm src k) s fun t => t.on (F.TM_CMPk_CFG_ARM k.val) = true ∧ t.on (F.TM_CMPk_CFG_LATE k.val) = false :) ∧
  (∀ (s : State) (src : Src) (k : Fin 32), s.takesFields src [(F.TM_CMPk_CFG_ARM k.val, 1)] = true → s.on (F.TM_CMPk_CFG_ARM k.val) = false →
    s.reached (s.rd (F.TM_CMPk_S_SEC k.val)) (s.rd (F.TM_CMPk_NS_NS k.val)) 0 = true → s.rd (F.TM_CMPk_PER_PERIOD k.val) = 0 →
    Completes (.compareArm src k) s fun t => t.on (F.TM_CMPk_CFG_ARM k.val) = false ∧ t.on (F.TM_CMPk_CFG_LATE k.val) = true ∧
      t.rd (F.TM_CMPk_CFG_OUTCOME k.val) = 2 ∧ t.clock.tick = s.clock.tick + 1 :) ∧
  (∀ (s : State) (src : Src) (k : Fin 32), s.takesFields src [(F.TM_CMPk_CFG_DISARM k.val, 1)] = true → s.on (F.TM_CMPk_CFG_ARM k.val) = true →
    Tbl.get false k.val s.tm.fired = false → Completes (.compareDisarm src k) s fun t => t.on (F.TM_CMPk_CFG_ARM k.val) = false ∧
      t.rd (F.TM_CMPk_CFG_OUTCOME k.val) = 1 :) ∧
  (∀ (s : State) (k : Fin 32), s.on (F.TM_CMPk_CFG_ARM k.val) = true → s.rd (F.TM_CMPk_PER_PERIOD k.val) = 0 →
    Completes (.compareFire k) s fun t => t.on (F.TM_CMPk_CFG_ARM k.val) = false ∧ t.rd (F.TM_CMPk_CFG_OUTCOME k.val) = 2 :) ∧
  (∀ (s : State) (k : Fin 32), s.on (F.TM_CMPk_CFG_ARM k.val) = true → s.rd (F.TM_CMPk_PER_PERIOD k.val) ≠ 0 →
    Completes (.compareFire k) s fun t => t.on (F.TM_CMPk_CFG_ARM k.val) = true ∧ t.rd (F.TM_CMPk_CFG_OUTCOME k.val) = 2 ∧
      t.rd (F.TM_CMPk_NS_NS k.val) = (s.rd (F.TM_CMPk_NS_NS k.val) + s.rd (F.TM_CMPk_PER_PERIOD k.val)) % secNs :) ∧
  (∀ (s : State) (c : Fin 4) (falling : Bool) (held : Byte), s.on (F.TM_CAPc_CFG_ENABLE c.val) = true → s.rd (F.TM_CAPc_CFG_EDGE c.val) = 3 →
    s.rd (F.TM_CAPc_CFG_FILT c.val) ≤ held.toNat →
    (s.caps c.val).length < 8 → Completes (.captureEdge c falling held) s fun t => t.caps c.val = s.caps c.val ++ [(s.sec, s.ns, falling)] :) ∧
  (∀ (s : State) (c : Fin 4) (falling : Bool) (held : Byte), s.on (F.TM_CAPc_CFG_ENABLE c.val) = true → s.rd (F.TM_CAPc_CFG_EDGE c.val) = 3 →
    s.rd (F.TM_CAPc_CFG_FILT c.val) ≤ held.toNat →
    8 ≤ (s.caps c.val).length → Completes (.captureEdge c falling held) s fun t => t.tm = s.tm ∧
      t.rd F.TM_CAPLOST_COUNT = min (s.rd F.TM_CAPLOST_COUNT + 1) (2 ^ (F.TM_CAPLOST_COUNT).width - 1) :) ∧
  (∀ (s : State) (src : Src) (c : Fin 4), s.takesField src (F.TM_CAPc_NS_NS c.val) = true → Completes (.capturePop src c) s fun t =>
    t.caps c.val = (s.caps c.val).tail :) ∧
  (∀ (s : State) (i : Fin 2), s.on (F.TM_PPSi_CFG_ENABLE i.val) = true → s.on (F.TM_PPSi_CFG_LOCKONLY i.val) = false →
    Completes (.ppsPulse i) s fun t => Tbl.get none i.val t.tm.pps = some (t.ppsEnd i.val) ∧
      (s.ppsNow i.val = true → t.clock = s.clock) ∧ (s.ppsNow i.val = false → s.nowNs / secNs < t.nowNs / secNs) :) ∧
  (∀ (s : State) (i : Fin 2), Completes (.ppsWidthEnd i) s fun t => Tbl.get none i.val t.tm.pps = none ∧ t.regs = s.regs ∧
    ∀ e, Tbl.get none i.val s.tm.pps = some e → e ≤ t.clock.tick :) ∧
  (∀ (s : State) (c : Fin 4) (falling : Bool) (held : Byte), held.toNat < s.rd (F.TM_CAPc_CFG_FILT c.val) →
    Completes (.captureEdge c falling held) s fun t => t = s :)

/-- R250 to R254, R278: a timed action is held for its weaver, fires, is cancelled, or is refused. Where it rests on the model's own
reading: assumption 37. -/
def Obligations.ScheduledActions : Prop :=
  (∀ (s : State) (c : Cell), s.hasRight c.from 1 = true → c.payload.length = 20 → c.len.toNat = 20 → beAt c.payload 10 2 = 0 →
    beAt c.payload 13 1 / 2 = 0 → beAt c.payload 18 2 = 0 → beAt c.payload 12 1 < 128 → beAt c.payload 4 4 < secNs →
    s.takesActs (beAt c.payload 12 1) = true → (s.wvr (beAt c.payload 12 1)).acts.length < 8 →
    20 * (nsUnit : Int) < s.until (beAt c.payload 0 4) (beAt c.payload 4 4) (beAt c.payload 8 2) →
    Completes (.act c) s fun t => (t.wvr (beAt c.payload 12 1)).acts.length = (s.wvr (beAt c.payload 12 1)).acts.length + 1 ∧
      t.rd (F.TM_SAn_OUTCOME (beAt c.payload 12 1)) = 1 ∧ t.rd (F.TM_SAn_ACTID (beAt c.payload 12 1)) = beAt c.payload 16 2 :) ∧
  (∀ (s : State) (c : Cell), s.hasRight c.from 1 = false → Completes (.act c) s fun t =>
    t.wv = s.wv ∧ t.rd F.TM_SAREF_COUNT = min (s.rd F.TM_SAREF_COUNT + 1) (2 ^ (F.TM_SAREF_COUNT).width - 1) :) ∧
  (∀ (s : State) (n : Fin 128) (a : WvAct) (as : List WvAct), (s.wvr n.val).acts = a :: as → Completes (.actFire n) s fun t =>
    (t.wvr n.val).acts = as ∧ t.rd (F.TM_SAn_OUTCOME n.val) = 1 ∧ t.rd (F.TM_SAn_ACTID n.val) = a.actid % 65536 :) ∧
  (∀ (s : State) (c : Cell), s.hasRight c.from 1 = true → c.payload.length = 4 → c.len.toNat = 4 → beAt c.payload 1 1 = 0 →
    beAt c.payload 0 1 < 128 → s.takesActs (beAt c.payload 0 1) = true →
    (∃ a ∈ (s.wvr (beAt c.payload 0 1)).acts, a.actid = beAt c.payload 2 2) →
    Completes (.cancel c) s fun t => t.rd (F.TM_SAn_OUTCOME (beAt c.payload 0 1)) = 4 ∧
      (t.wvr (beAt c.payload 0 1)).acts = (s.wvr (beAt c.payload 0 1)).acts.filter fun a => a.actid != beAt c.payload 2 2 :) ∧
  (∀ (s : State) (c : Cell), s.hasRight c.from 1 = true → c.payload.length = 4 → c.len.toNat = 4 → beAt c.payload 1 1 = 0 →
    beAt c.payload 0 1 < 128 → s.takesActs (beAt c.payload 0 1) = true →
    (∀ a ∈ (s.wvr (beAt c.payload 0 1)).acts, a.actid ≠ beAt c.payload 2 2) →
    Completes (.cancel c) s fun t => t.wv = s.wv ∧
      t.rd F.TM_LATE_COUNT = min (s.rd F.TM_LATE_COUNT + 1) (2 ^ (F.TM_LATE_COUNT).width - 1) :)

/-- R269, R271, R274 to R276: weavers start and stop one by one, by basket, all together and at a time; their dividers restart. Where it
rests on the model's own reading: assumption 35. -/
def Obligations.WeaversStartAndStop : Prop :=
  (∀ (s : State) (src : Src) (n : Fin 128), s.takesFields src [(F.WVn_CTL_START n.val, 1)] = true → s.wvOn n.val = false →
    Completes (.weaverStart src n) s fun t => t.rd (F.WVn_STAT_STATE n.val) = 1 ∧ t.rd (F.WVn_STAT_PC n.val) = 0 ∧
      (t.wvr n.val).npc = 0 ∧ (t.wvr n.val).free = s.clock.tick + 8 ∧ (t.wvr n.val).t0 = s.clock.tick + 8 :) ∧
  (∀ (s : State) (src : Src) (n : Fin 128), s.takesFields src [(F.WVn_CTL_START n.val, 1)] = true → s.wvOn n.val = true →
    Completes (.weaverStart src n) s fun t => t.on (F.WVn_STAT_STARTIGN n.val) = true ∧ t.wv = s.wv :) ∧
  (∀ (s : State) (src : Src) (n : Fin 128), s.takesFields src [(F.WVn_CTL_STOP n.val, 1)] = true → s.wvOn n.val = true →
    Completes (.weaverStop src n) s fun t => t.rd (F.WVn_STAT_STATE n.val) = 0 ∧ (t.wvr n.val).acts = [] ∧ (t.wvr n.val).wait = .none :) ∧
  (∀ (s : State) (src : Src) (m : Fin 16) (mask : Byte), s.takesFields src [(F.BKm_START_MASK m.val, mask.toNat)] = true →
    Completes (.basketStart src m mask) s fun t => ∀ i : Fin 8, mask.getLsbD i.val = true → s.wvOn (8 * m.val + i.val) = false →
      t.rd (F.WVn_STAT_STATE (8 * m.val + i.val)) = 1 ∧ (t.wvr (8 * m.val + i.val)).free = s.clock.tick + 8 :) ∧
  (∀ (s : State) (src : Src) (m : Fin 16) (mask : Byte), s.takesFields src [(F.BKm_STOP_MASK m.val, mask.toNat)] = true →
    Completes (.basketStop src m mask) s fun t => ∀ i : Fin 8, mask.getLsbD i.val = true →
      t.rd (F.WVn_STAT_STATE (8 * m.val + i.val)) = 0 :) ∧
  (∀ (s : State) (src : Src), s.takesFields src [(F.BK_GCTL_GO, 1)] = true → Completes (.globalGo src) s fun t =>
    ∀ n ∈ s.gmask, s.wvOn n = false → t.rd (F.WVn_STAT_STATE n) = 1 ∧ (t.wvr n).free = s.clock.tick + 8 :) ∧
  (∀ (s : State) (src : Src), s.takesFields src [(F.BK_GCTL_ARM, 1)] = true → s.on F.BK_GCTL_ARM = false →
    s.reached (s.rd F.BK_GTS_SEC) (s.rd F.BK_GTNS_NS) 0 = false →
    Completes (.globalArm src) s fun t => t.on F.BK_GCTL_ARM = true ∧ t.on F.BK_GCTL_LATE = false ∧ t.wv = s.wv :) ∧
  (∀ (s : State) (src : Src), s.takesFields src [(F.BK_GCTL_DISARM, 1)] = true → s.on F.BK_GCTL_ARM = true →
    Completes (.globalDisarm src) s fun t => t.on F.BK_GCTL_ARM = false ∧ t.rd F.BK_GCTL_OUTCOME = 1 ∧ t.wv = s.wv :) ∧
  (∀ (s : State) (src : Src), s.takesFields src [(F.BK_GCTL_STOP, 1)] = true → Completes (.globalStop src) s fun t =>
    ∀ n ∈ s.gmask, t.rd (F.WVn_STAT_STATE n) = 0 :) ∧
  (∀ (s : State), s.on F.BK_GCTL_ARM = true → Completes .globalStartTime s fun t => t.on F.BK_GCTL_ARM = false ∧ t.rd F.BK_GCTL_OUTCOME = 2 ∧
    ∀ n ∈ s.gmask, s.wvOn n = false → t.rd (F.WVn_STAT_STATE n) = 1 :) ∧
  (∀ (s : State), s.wv.autoDue = true → Completes .autostart s fun t => t.wv.autoDue = false ∧ ∀ n : Fin 128, s.on (F.WVn_CTL_AUTOSTART n.val) = true → s.wvOn n.val = false →
    t.rd (F.WVn_STAT_STATE n.val) = 1 ∧ (t.wvr n.val).free = s.clock.tick + 1 :) ∧
  (∀ (s : State) (src : Src) (m : Fin 16) (mask : Byte), s.takesFields src [(F.BKm_CLKRST_MASK m.val, mask.toNat)] = true →
    Completes (.clockRestart src m mask) s fun t => ∀ i : Fin 8, mask.getLsbD i.val = true → s.wvOn (8 * m.val + i.val) = true →
      (s.wvr (8 * m.val + i.val)).start ≤ s.clock.tick → (t.wvr (8 * m.val + i.val)).t0 = s.clock.tick :) ∧
  (∀ (s : State), s.wv.autoDue = false → Completes .autostart s fun t => t = s :) ∧
  (∀ (s : State) (src : Src) (m : Fin 16) (mask : Byte), s.takesFields src [(F.BKm_CLKRST_MASK m.val, mask.toNat)] = true →
    Completes (.clockRestart src m mask) s fun t => ∀ n : Fin 128, s.wvOn n.val = false ∨ s.clock.tick < (s.wvr n.val).start → t.wvr n.val = s.wvr n.val :)

/-- R260, R264 to R267, R288: basket flags and lines, the weaver queues with their backlog, the aggregator, and the bank supplies. Where it
rests on the model's own reading: assumption 35. -/
def Obligations.WeaverQueuesAndFlags : Prop :=
  (∀ (s : State) (src : Src) (m : Fin 16) (v : BitVec 16), s.takesFields src [(F.BKm_FSET_FLAGS m.val, v.toNat)] = true →
    (∀ i : Fin 8, (s.wvr (8 * m.val + i.val)).wait = .none) →
    Completes (.flagSet src m v) s fun t => t.flags m.val = s.flags m.val ||| v.toNat :) ∧
  (∀ (s : State) (src : Src) (m : Fin 16) (v : BitVec 16), s.takesFields src [(F.BKm_FLAGS_FLAGS m.val, v.toNat)] = true →
    (∀ i : Fin 8, (s.wvr (8 * m.val + i.val)).wait = .none) →
    Completes (.flagClear src m v) s fun t => t.flags m.val = s.flags m.val &&& (0xFFFF ^^^ v.toNat) :) ∧
  (∀ (s : State) (src : Src) (m : Fin 16) (v : BitVec 4), s.takesFields src [(F.BKm_IRQ_LINE m.val, v.toNat)] = true →
    (∀ i : Fin 8, (s.wvr (8 * m.val + i.val)).wait = .none) →
    Completes (.irqRaise src m v) s fun t => t.lines m.val = s.lines m.val ||| v.toNat :) ∧
  (∀ (s : State) (src : Src) (n : Fin 128) (d : Word), s.takesFields src [(F.WVn_TXQ_DATA n.val, d.toNat)] = true →
    (s.wvr n.val).back = [] → (s.wvr n.val).tx.length < s.txCap n.val →
    Completes (.txPush src n d) s fun t => (t.wvr n.val).tx = (s.wvr n.val).tx ++ [(s.rd (F.WVn_TXTAG_TAG n.val), d.toNat)] :) ∧
  (∀ (s : State) (src : Src) (n : Fin 128) (d : Word), s.takesFields src [(F.WVn_TXQ_DATA n.val, d.toNat)] = true →
    s.txCap n.val ≤ (s.wvr n.val).tx.length → s.rd (F.WVn_QCFG_BACKLOG n.val) ≤ (s.wvr n.val).back.length →
    Completes (.txPush src n d) s fun t => (t.wvr n.val).tx = (s.wvr n.val).tx ∧ (t.wvr n.val).back = (s.wvr n.val).back ∧
      t.on (F.WVn_STAT_TXOVF n.val) = true :) ∧
  (∀ (s : State) (n : Fin 128), Completes (.backlogMove n) s fun t => t.regs = s.regs ∧
    (t.wvr n.val).tx = (s.wvr n.val).tx ++ (s.wvr n.val).back.take (s.txCap n.val - (s.wvr n.val).tx.length) ∧
    (t.wvr n.val).back = (s.wvr n.val).back.drop (s.txCap n.val - (s.wvr n.val).tx.length) :) ∧
  (∀ (s : State) (src : Src) (n : Fin 128), s.takesField src (F.WVn_RXD_DATA n.val) = true → s.on (F.WVn_CTL_RXDEST n.val) = false →
    Completes (.rxPop src n) s fun t => (t.wvr n.val).rx = (s.wvr n.val).rx.tail :) ∧
  (∀ (s : State) (n : Fin 128) (tag d : Nat) (r : List (Nat × Nat)), s.on (F.WVn_CTL_RXDEST n.val) = true → s.throttled = false →
    (s.wvr n.val).rx = (tag, d) :: r → tag / 64 ≠ 2 → s.eq.entries.length < 4096 →
    Completes (.weaverAggregatorDrain n) s fun t => (t.wvr n.val).rx = r ∧ ∃ e, t.eq.entries = s.eq.entries ++ [e] ∧
      e.w0 = eqWord0 (s.rd (F.WVn_CTL_EQPRI n.val)) 1 1 (n.val + tag % 64 * 256) ∧ e.w2 = BitVec.ofNat 32 d :) ∧
  (∀ (s : State) (v : BitVec 4), Completes (.vioChange v) s fun t => t.rd F.BK_VIO_PRESENT = v.toNat :)

/-- R263, R272, R281 to R293: what each weaver instruction does when it issues on a running weaver: lanes and shifts are paced, waits are
entered or passed, words are taken and given, the next slot is chosen. Where it rests on the model's own reading: assumption 35. -/
def Obligations.WeaverInstructions : Prop :=
  (∀ (s : State) (n : Fin 128), s.issues n.val 0 = true → Completes (.halt n true) s fun t =>
    t.rd (F.WVn_STAT_STATE n.val) = 0 ∧ t.on (F.WVn_STAT_HALTED n.val) = true :) ∧
  (∀ (s : State) (n : Fin 128), s.issues n.val 0 = true → Completes (.halt n false) s fun t =>
    t.rd (F.WVn_STAT_STATE n.val) = 0 ∧ t.on (F.WVn_STAT_PARERR n.val) = true :) ∧
  (∀ (s : State) (n : Fin 128), s.issues n.val 1 = true → Completes (.sho n true) s fun t => ∃ b, (t.wvr n.val).busy = some b ∧
    b.word = s.nextWord n.val ∧ b.total = groupsOf (s.nextWord n.val) + bitsOf (s.nextWord n.val) 4 4 ∧
    (t.wvr n.val).npc = nextSlot (s.wvr n.val).npc :) ∧
  (∀ (s : State) (n : Fin 128) (xs : List Byte), s.issues n.val 2 = true → Completes (.shi n true xs) s fun t =>
    ∃ b, (t.wvr n.val).busy = some b ∧ b.word = s.nextWord n.val ∧ b.samples = xs ∧
      b.total = groupsOf (s.nextWord n.val) + bitsOf (s.nextWord n.val) 4 4 :) ∧
  (∀ (s : State) (n : Fin 128) (levels : Byte), s.issues n.val 3 = true → Completes (.wpin n true levels) s fun t =>
    (t.wvr n.val).wait = (if bitsOf (s.nextWord n.val) 15 2 = b2n (s.sense n.val (bitsOf (s.nextWord n.val) 17 3)
      (bitsOf levels.toNat (bitsOf (s.nextWord n.val) 17 3) 1 == 1)) then .none else .pin (s.nextWord n.val)) :) ∧
  (∀ (s : State) (n : Fin 128) (w : Nat), (s.wvr n.val).wait = .pin w → s.pinCan n.val w = true → Completes (.wpinPass n) s fun t => (t.wvr n.val).wait = .none ∧
    (t.wvr n.val).free = s.clock.tick + 1 :) ∧
  (∀ (s : State) (n : Fin 128), s.issues n.val 4 = true → s.aloneWaiting n.val →
    bitsOf (s.flags (n.val / 8)) (bitsOf (s.nextWord n.val) 16 4) 1 ≠ bitsOf (s.nextWord n.val) 15 1 →
    Completes (.wflg n true) s fun t => (t.wvr n.val).wait = .flg (s.nextWord n.val) :) ∧
  (∀ (s : State) (m : Fin 16) (i : Fin 8) (w : Nat), s.rd (F.WVn_STAT_STATE (8 * m.val + i.val)) = 1 →
    (s.wvr (8 * m.val + i.val)).wait = .flg w → bitsOf (s.flags m.val) (bitsOf w 16 4) 1 = bitsOf w 15 1 →
    Completes (.wflgPass m) s fun t => (t.wvr (8 * m.val + i.val)).wait = .none :) ∧
  (∀ (s : State) (n : Fin 128), s.issues n.val 5 = true → s.aloneWaiting n.val →
    bitsOf (s.lines (n.val / 8)) (bitsOf (s.nextWord n.val) 18 2) 1 = 0 →
    Completes (.wirq n true) s fun t => (t.wvr n.val).wait = .irq (s.nextWord n.val) :) ∧
  (∀ (s : State) (m : Fin 16) (i : Fin 8) (w : Nat), s.rd (F.WVn_STAT_STATE (8 * m.val + i.val)) = 1 →
    (s.wvr (8 * m.val + i.val)).wait = .irq w → bitsOf (s.lines m.val) (bitsOf w 18 2) 1 = 1 →
    Completes (.wirqPass m) s fun t => (t.wvr (8 * m.val + i.val)).wait = .none :) ∧
  (∀ (s : State) (n : Fin 128), s.issues n.val 6 = true → bitsOf (s.nextWord n.val) 19 1 = 0 →
    16 * (nsUnit : Int) ≤ (s.wvFetch n.val).until (s.rd (F.WVn_TRS_SEC n.val)) (s.rd (F.WVn_TRNS_NS n.val)) 0 →
    Completes (.wtim n true) s fun t => (t.wvr n.val).wait = .tim (s.nextWord n.val) :) ∧
  (∀ (s : State) (n : Fin 128) (w : Nat), (s.wvr n.val).wait = .tim w → Completes (.wtimPass n) s fun t => (t.wvr n.val).wait = .none :) ∧
  (∀ (s : State) (n : Fin 128), s.issues n.val 7 = true → Completes (.drv n true) s fun t => ∃ b, (t.wvr n.val).busy = some b ∧
    b.word = s.nextWord n.val ∧ b.total = 1 + bitsOf (s.nextWord n.val) 0 4 :) ∧
  (∀ (s : State) (n : Fin 128) (tag d : Nat) (r : List (Nat × Nat)), s.issues n.val 8 = true → bitsOf (s.nextWord n.val) 17 3 = 0 →
    s.txCap n.val ≠ 0 → (s.wvr n.val).tx = (tag, d) :: r → Completes (.take n true) s fun t => (t.wvr n.val).tx = r ∧ (t.wvr n.val).tg = tag ∧
      t.rd (F.WVn_SHIFT_SH n.val) = d % 2 ^ 32 :) ∧
  (∀ (s : State) (n : Fin 128), s.issues n.val 8 = true → s.txCap n.val = 0 ∨ (s.wvr n.val).tx = [] → Completes (.take n true) s fun t =>
    t.rd (F.WVn_STAT_STATE n.val) = 2 ∧ t.rd (F.WVn_STAT_STALLON n.val) = 1 ∧ (t.wvr n.val).wait = .take (s.nextWord n.val) :) ∧
  (∀ (s : State) (n : Fin 128), s.issues n.val 9 = true → (s.wvr n.val).rx.length < s.rxCap n.val → Completes (.give n true) s fun t =>
    (t.wvr n.val).rx = (s.wvr n.val).rx ++
      [(bitsOf (s.nextWord n.val) 11 6, (s.wvFetch n.val).giveVal n.val (bitsOf (s.nextWord n.val) 17 3))] :) ∧
  (∀ (s : State) (n : Fin 128), s.issues n.val 0xA = true → (s.wvr n.val).rx.length + 2 ≤ s.rxCap n.val → Completes (.stamp n true) s fun t =>
    (t.wvr n.val).rx = (s.wvr n.val).rx ++ (s.wvr n.val).stampWords :) ∧
  (∀ (s : State) (n : Fin 128) (w tag d : Nat) (r : List (Nat × Nat)), s.rd (F.WVn_STAT_STATE n.val) = 2 → (s.wvr n.val).wait = .take w →
    bitsOf w 17 3 = 1 → s.txCap n.val ≠ 0 → (s.wvr n.val).tx = (tag, d) :: r → Completes (.stallEnd n) s fun t => t.rd (F.WVn_STAT_STATE n.val) = 1 ∧
      (t.wvr n.val).wait = .none ∧ (t.wvr n.val).tx = r ∧ t.rd (F.WVn_SC_SC n.val) = d % 2 ^ 32 :) ∧
  (∀ (s : State) (n : Fin 128), s.issues n.val 0xB = true → Completes (.cnt n true []) s fun t =>
    (t.wvr n.val).wait = .cnt (s.nextWord n.val) ∧ (bitsOf (s.nextWord n.val) 13 1 = 1 → t.rd (F.WVn_CN_CN n.val) = 0) :) ∧
  (∀ (s : State) (n : Fin 128) (w : Nat) (b : WvBusy), (s.wvr n.val).wait = .cnt w → (s.wvr n.val).busy = some b →
    Completes (.cntPass n []) s fun t => (t.wvr n.val).wait = .none ∧ (t.wvr n.val).busy = none ∧ t.regs = s.regs :) ∧
  (∀ (s : State) (n : Fin 128), s.issues n.val 0xC = true → bitsOf (s.nextWord n.val) 19 1 = 0 → Completes (.loop n true) s fun t =>
    t.rd (F.WVn_LOOP_L0 n.val) = (s.rd (F.WVn_LOOP_L0 n.val) + 65535) % 65536 ∧ (t.wvr n.val).npc =
      (if (s.rd (F.WVn_LOOP_L0 n.val) + 65535) % 65536 = 0 then nextSlot (s.wvr n.val).npc else bitsOf (s.nextWord n.val) 0 6) :) ∧
  (∀ (s : State) (n : Fin 128), s.issues n.val 0xC = true → bitsOf (s.nextWord n.val) 19 1 = 1 → Completes (.loop n true) s fun t =>
    t.rd (F.WVn_LOOP_L1 n.val) = (s.rd (F.WVn_LOOP_L1 n.val) + 65535) % 65536 ∧ (t.wvr n.val).npc =
      (if (s.rd (F.WVn_LOOP_L1 n.val) + 65535) % 65536 = 0 then nextSlot (s.wvr n.val).npc else bitsOf (s.nextWord n.val) 0 6) :) ∧
  (∀ (s : State) (n : Fin 128) (levels : Byte), s.issues n.val 0xD = true → Completes (.br n true levels) s fun t =>
    (t.wvr n.val).npc = if (s.wvFetch n.val).brHolds n.val (s.nextWord n.val) levels.toNat then bitsOf (s.nextWord n.val) 0 6
      else nextSlot (s.wvr n.val).npc :) ∧
  (∀ (s : State) (n : Fin 128), s.issues n.val 0xE = true → s.aloneWaiting n.val →
    (s.flags (n.val / 8) ||| 2 ^ bitsOf (s.nextWord n.val) 16 4) &&& (bitsOf (s.nextWord n.val) 0 16 ||| 2 ^ bitsOf (s.nextWord n.val) 16 4) ≠
      (bitsOf (s.nextWord n.val) 0 16 ||| 2 ^ bitsOf (s.nextWord n.val) 16 4) →
    Completes (.syncInstruction n true) s fun t => (t.wvr n.val).wait = .sync (s.nextWord n.val) ∧
      t.flags (n.val / 8) = s.flags (n.val / 8) ||| 2 ^ bitsOf (s.nextWord n.val) 16 4 :) ∧
  (∀ (s : State) (m : Fin 16) (i : Fin 8) (w : Nat), s.rd (F.WVn_STAT_STATE (8 * m.val + i.val)) = 1 →
    (s.wvr (8 * m.val + i.val)).wait = .sync w →
    s.flags m.val &&& (bitsOf w 0 16 ||| 2 ^ bitsOf w 16 4) = (bitsOf w 0 16 ||| 2 ^ bitsOf w 16 4) →
    Completes (.syncInstructionPass m) s fun t => (t.wvr (8 * m.val + i.val)).wait = .none :) ∧
  (∀ (s : State) (n : Fin 128), s.issues n.val 0xF = true → Completes (.set n true) s fun t =>
    t = (s.wvFetch n.val).setGo n.val (bitsOf (s.nextWord n.val) 16 4) (bitsOf (s.nextWord n.val) 0 16) :) ∧
  (∀ (s : State) (n : Fin 128), s.issues n.val 0xF = true → bitsOf (s.nextWord n.val) 16 4 = 2 → Completes (.set n true) s fun t =>
    t.rd (F.WVn_SC_SC n.val) = bitsOf (s.nextWord n.val) 0 16 :) ∧
  (∀ (s : State) (n : Fin 128) (w : Nat), (s.wvr n.val).wait = .pin w → s.pinCan n.val w = false → Completes (.wpinPass n) s fun t => t = s :)

/-- R303 to R309: INIT, requests, cancels, the commit, and how an attempt ends. Where it rests on the model's own reading: assumption 39. -/
def Obligations.CanTransmission : Prop :=
  (∀ (s : State) (src : Src) (k : Fin 8), s.takesFields src [(F.CFk_MODE_INIT k.val, 1)] = true → s.on (F.CFk_MODE_INIT k.val) = false →
    (s.canOf k.val).inFrame = false → Completes (.canInit src k) s fun t => t.on (F.CFk_MODE_INIT k.val) = true ∧
      t.on (F.CFk_MODE_INITACT k.val) = true ∧ t.can = s.can :) ∧
  (∀ (s : State) (src : Src) (k : Fin 8), s.takesFields src [(F.CFk_MODE_INIT k.val, 1)] = true → s.on (F.CFk_MODE_INIT k.val) = false →
    (s.canOf k.val).inFrame = true → Completes (.canInit src k) s fun t => t.on (F.CFk_MODE_INIT k.val) = true ∧
      t.rd (F.CFk_MODE_INITACT k.val) = s.rd (F.CFk_MODE_INITACT k.val) ∧ (t.canOf k.val).stopping = true :) ∧
  (∀ (s : State) (src : Src) (k : Fin 8), s.takesFields src [(F.CFk_MODE_INIT k.val, 0)] = true → s.on (F.CFk_MODE_INIT k.val) = true →
    Completes (.canInitRelease src k) s fun t => t.on (F.CFk_MODE_INIT k.val) = false ∧
      t.rd (F.CFk_MODE_INITACT k.val) = s.rd (F.CFk_MODE_INITACT k.val) ∧ (t.canOf k.val).stopping = false :) ∧
  (∀ (s : State) (k : Fin 8), s.on (F.CFk_MODE_INIT k.val) = false → Completes (.canIntegrationDone k) s fun t =>
    t.on (F.CFk_MODE_INITACT k.val) = false ∧ (t.canOf k.val).integrating = false :) ∧
  (∀ (s : State) (src : Src) (k : Fin 8) (mask : BitVec 3), s.takesFields src [(F.CFk_TXREQ_REQ k.val, mask.toNat)] = true →
    Completes (.canTxRequest src k mask) s fun t => ∀ b : Fin 3, mask.getLsbD b.val = true → s.requested k.val b.val = false →
      (s.canExpired k.val b.val = false → t.requested k.val b.val = true ∧ t.tbStatus k.val b.val = 1) ∧
      (s.canExpired k.val b.val = true → t.requested k.val b.val = false ∧ t.tbStatus k.val b.val = 9) :) ∧
  (∀ (s : State) (src : Src) (k : Fin 8) (mask : BitVec 3), s.takesFields src [(F.CFk_TXCAN_CAN k.val, mask.toNat)] = true →
    Completes (.canTxCancel src k mask) s fun t => ∀ b : Fin 3, mask.getLsbD b.val = true → s.requested k.val b.val = true →
      (s.tbStatus k.val b.val ≠ 2 → t.requested k.val b.val = false ∧ t.tbStatus k.val b.val = 4 ∧
        t.rd (F.CFk_TBb_STAT_CANOUT k.val b.val) = 1) ∧
      (s.tbStatus k.val b.val = 2 → t.requested k.val b.val = true ∧ t.tbStatus k.val b.val = 2 ∧
        t.rd (F.CFk_TBb_STAT_CANOUT k.val b.val) = 2) :) ∧
  (∀ (s : State) (k : Fin 8), s.canOnBus k.val = true → (s.canOf k.val).inFrame = false → s.rd (F.CFk_MODE_OPMODE k.val) ≠ 3 →
    Completes (.canCommit k) s fun t =>
    (t.canOf k.val).inFrame = true ∧ (t.canOf k.val).sof = s.clock.tick % 2 ^ 32 :) ∧
  (∀ (s : State) (k : Fin 8) (b : Nat), s.canOnBus k.val = true → (s.canOf k.val).inFrame = false → s.rd (F.CFk_MODE_OPMODE k.val) = 0 →
    (∀ j : Fin 3, s.canExpired k.val j.val = false) → s.canChoose k.val = some b → Completes (.canCommit k) s fun t =>
      t.tbStatus k.val b = 2 ∧ (t.canOf k.val).active = some b ∧ t.out = (s.emit (.can k.val (s.canFrame k.val b))).out :) ∧
  (∀ (s : State) (k : Fin 8) (b : Fin 3) (how : CanEnd) (ld : Option Byte), (s.canOf k.val).active = some b.val →
    (∀ d, ld = some d → d.toNat ≤ 127) → Completes (.canAttemptEnd k how ld) s fun t => (t.canOf k.val).active = none ∧
      t.rd (F.CFk_TBb_TS_STAMP k.val b.val) = (s.canOf k.val).sof % 2 ^ 32 ∧
      t.tbStatus k.val b.val = (match how with
        | .sent => if bitsOf (s.canOf k.val).held b.val 1 = 1 then 6 else 3
        | .arbitrationLost =>
          if bitsOf (s.canOf k.val).held b.val 1 = 1 then 5 else if s.on (F.CFk_TBb_CTL_ONESHOT k.val b.val) then 7 else 1
        | .error =>
          if bitsOf (s.canOf k.val).held b.val 1 = 1 then 5 else if s.on (F.CFk_TBb_CTL_ONESHOT k.val b.val) then 8 else 1) :) ∧
  (∀ (s : State) (k : Fin 8) (b : Fin 3), s.requested k.val b.val = true → s.on (F.CFk_TBb_CTL_LTEN k.val b.val) = true →
    Completes (.canLaunchTime k b) s fun t => t.regs = s.regs ∧ t.can = s.can ∧ s.clock.tick ≤ t.clock.tick ∧
      (s.reached (s.rd (F.CFk_TBb_LTS_SEC k.val b.val)) (s.rd (F.CFk_TBb_LTNS_NS k.val b.val)) 0 = true → t.clock = s.clock) :) ∧
  (∀ (s : State) (k : Fin 8) (b : Fin 3), s.requested k.val b.val = true → s.tbStatus k.val b.val = 1 →
    s.on (F.CFk_TBb_CTL_LTEN k.val b.val) = true → Completes (.canLaunchDeadline k b) s fun t => t.tbStatus k.val b.val = 9 ∧
      t.requested k.val b.val = false ∧ t.rd (F.CFk_TBb_STAT_LOUT k.val b.val) = 2 ∧
      t.rd (F.CFk_LEXP_COUNT k.val) = min (s.rd (F.CFk_LEXP_COUNT k.val) + 1) (2 ^ (F.CFk_LEXP_COUNT k.val).width - 1) :) ∧
  (∀ (s : State) (k : Fin 8) (b : Nat), s.canOnBus k.val = true → (s.canOf k.val).inFrame = false → s.rd (F.CFk_MODE_OPMODE k.val) = 3 →
    (∀ j : Fin 3, s.canExpired k.val j.val = false) → s.canChoose k.val = some b → Completes (.canCommit k) s fun t =>
      t.tbStatus k.val b = 2 ∧ (t.canOf k.val).active = some b ∧ t.out = s.out :) ∧
  (∀ (s : State) (k : Fin 8) (b : Fin 3) (how : CanEnd) (d : Byte), (s.canOf k.val).active = some b.val → 127 < d.toNat →
    s.on (F.CFk_MODE_TDCEN k.val) = true → s.on (F.CFk_TBb_CTL_FDF k.val b.val) = true → s.on (F.CFk_TBb_CTL_BRS k.val b.val) = true →
    Completes (.canAttemptEnd k how (some d)) s fun t => (t.canOf k.val).active = none ∧ t.rd (F.CFk_ERR_LEC k.val) = 7 ∧
      t.rd (F.CFk_TDC_MEAS k.val) = d.toNat :)

/-- R310 to R315: filters and receive entries, acknowledgement, fault confinement, bus-off and recovery. Where it rests on the model's own
reading: assumption 39. -/
def Obligations.CanReceptionAndErrors : Prop :=
  (∀ (s : State) (k : Fin 8) (f : CanFrame) (fs : List CanFilter) (i : Nat) (x : CanFilter), s.canOnBus k.val = true →
    (s.canOf k.val).active = none → s.rd (F.CFk_MODE_OPMODE k.val) ≠ 3 → (f.fdf = true → s.on (F.CFk_MODE_FDOE k.val) = true) → (s.canOf k.val).filters = some fs →
    firstFit f fs 0 = some (i, x) → bitsOf x.cfg 3 1 = 0 → s.rd (F.CFk_RXSTAT_OWNED k.val) < 64 →
    Completes (.canFrameReceived k f) s fun t => t.rd (F.CFk_RXSTAT_OWNED k.val) = s.rd (F.CFk_RXSTAT_OWNED k.val) + 1 ∧
      t.rd (F.CFk_RXSTAT_HEAD k.val) = s.rd (F.CFk_RXSTAT_HEAD k.val) ∧
      Tbl.get [] ((s.rd (F.CFk_RXSTAT_HEAD k.val) + s.rd (F.CFk_RXSTAT_OWNED k.val)) % 64) (t.canOf k.val).rx =
        rxWords f i false (s.canOf k.val).sof (((s.canOf k.val).seq + 1) % 65536) :) ∧
  (∀ (s : State) (k : Fin 8) (f : CanFrame) (fs : List CanFilter), s.canOnBus k.val = true → (s.canOf k.val).active = none → s.rd (F.CFk_MODE_OPMODE k.val) ≠ 3 →
    (f.fdf = true → s.on (F.CFk_MODE_FDOE k.val) = true) → (s.canOf k.val).filters = some fs → firstFit f fs 0 = none →
    s.on (F.CFk_MODE_RXDEF k.val) = true → Completes (.canFrameReceived k f) s fun t =>
      t.rd (F.CFk_RXSTAT_OWNED k.val) = s.rd (F.CFk_RXSTAT_OWNED k.val) ∧
      t.rd (F.CFk_RXREJ_COUNT k.val) = min (s.rd (F.CFk_RXREJ_COUNT k.val) + 1) (2 ^ (F.CFk_RXREJ_COUNT k.val).width - 1) :) ∧
  (∀ (s : State) (k : Fin 8) (f : CanFrame) (fs : List CanFilter) (i : Nat) (x : CanFilter), s.canOnBus k.val = true →
    (s.canOf k.val).active = none → s.rd (F.CFk_MODE_OPMODE k.val) ≠ 3 → (f.fdf = true → s.on (F.CFk_MODE_FDOE k.val) = true) → (s.canOf k.val).filters = some fs →
    firstFit f fs 0 = some (i, x) → bitsOf x.cfg 3 1 = 0 → 64 ≤ s.rd (F.CFk_RXSTAT_OWNED k.val) →
    Completes (.canFrameReceived k f) s fun t => t.rd (F.CFk_RXSTAT_OWNED k.val) = s.rd (F.CFk_RXSTAT_OWNED k.val) ∧
      (t.canOf k.val).rx = (s.canOf k.val).rx ∧
      t.rd (F.CFk_RXOVR_COUNT k.val) = min (s.rd (F.CFk_RXOVR_COUNT k.val) + 1) (2 ^ (F.CFk_RXOVR_COUNT k.val).width - 1) :) ∧
  (∀ (s : State) (src : Src) (k : Fin 8) (n : BitVec 7), s.takesFields src [(F.CFk_RXACK_COUNT k.val, n.toNat)] = true →
    Completes (.canRxAck src k n) s fun t => t.rd (F.CFk_RXSTAT_OWNED k.val) + n.toNat = s.rd (F.CFk_RXSTAT_OWNED k.val) ∧
      t.rd (F.CFk_RXSTAT_HEAD k.val) = (s.rd (F.CFk_RXSTAT_HEAD k.val) + n.toNat) % 64 :) ∧
  (∀ (s : State) (k : Fin 8) (plus : Bool), s.canOnBus k.val = true → s.rd (F.CFk_MODE_OPMODE k.val) = 0 →
    (s.canOf k.val).tec ≤ 247 → Completes (.canError k .bit1 true plus) s fun t => (t.canOf k.val).tec = (s.canOf k.val).tec + 8 ∧
      (t.canOf k.val).recv = (s.canOf k.val).recv ∧ t.rd (F.CFk_ERR_LEC k.val) = 4 ∧
      t.rd (F.CFk_ERR_STATE k.val) = (if 128 ≤ (s.canOf k.val).tec + 8 ∨ 128 ≤ (s.canOf k.val).recv then 1 else 0) :) ∧
  (∀ (s : State) (k : Fin 8) (plus : Bool), s.canOnBus k.val = true → s.rd (F.CFk_MODE_OPMODE k.val) = 0 → 248 ≤ (s.canOf k.val).tec →
    Completes (.canError k .bit0 true plus) s fun t => t.rd (F.CFk_ERR_STATE k.val) = (if s.on F.NC_MODE_POLICY then 2 else 3) ∧
      t.rd (F.CFk_BUSOFF_COUNT k.val) = min (s.rd (F.CFk_BUSOFF_COUNT k.val) + 1) (2 ^ (F.CFk_BUSOFF_COUNT k.val).width - 1) ∧
      ∀ b : Fin 3, s.requested k.val b.val = true → t.requested k.val b.val = false ∧ t.tbStatus k.val b.val = 10 :) ∧
  (∀ (s : State) (k : Fin 8) (tr plus : Bool), s.canOnBus k.val = true → s.on (F.CFk_MODE_PXD k.val) = false →
    Completes (.canError k .resRecessive tr plus) s fun t => (t.canOf k.val).integrating = true ∧
      (t.canOf k.val).tec = (s.canOf k.val).tec ∧ (t.canOf k.val).recv = (s.canOf k.val).recv ∧
      t.rd (F.CFk_PXE_COUNT k.val) = min (s.rd (F.CFk_PXE_COUNT k.val) + 1) (2 ^ (F.CFk_PXE_COUNT k.val).width - 1) :) ∧
  (∀ (s : State) (src : Src) (k : Fin 8), s.takesFields src [(F.CFk_MODE_RECOVER k.val, 1)] = true → s.on F.NC_MODE_POLICY = true →
    s.rd (F.CFk_ERR_STATE k.val) = 2 → Completes (.canRecover src k) s fun t => t.rd (F.CFk_ERR_STATE k.val) = 3 :) ∧
  (∀ (s : State) (k : Fin 8), s.rd (F.CFk_ERR_STATE k.val) = 3 → Completes (.canRecoveryDone k) s fun t =>
    t.rd (F.CFk_ERR_STATE k.val) = 0 ∧ t.rd (F.CFk_ERR_TEC k.val) = 0 ∧ t.rd (F.CFk_ERR_REC k.val) = 0 ∧ (t.canOf k.val).tec = 0 ∧
    (t.canOf k.val).recv = 0 :) ∧
  (∀ (s : State) (k : Fin 8) (f : CanFrame) (fs : List CanFilter) (b : Nat), s.canOnBus k.val = true → (s.canOf k.val).filters = some fs →
    (s.canOf k.val).active = some b → s.rd (F.CFk_MODE_OPMODE k.val) = 3 →
    Completes (.canFrameReceived k f) s fun t => t = s.canTake k.val (s.canFrame k.val b) fs :) ∧
  (∀ (s : State) (k : Fin 8), s.canOnBus k.val = true → Completes (.canError k .stuff true false) s fun t =>
    (t.canOf k.val).tec = (s.canOf k.val).tec ∧ (t.canOf k.val).recv = (s.canOf k.val).recv ∧ t.rd (F.CFk_ERR_LEC k.val) = 1 :) ∧
  (∀ (s : State) (k : Fin 8) (plus tr : Bool), s.canOnBus k.val = true → s.rd (F.CFk_MODE_OPMODE k.val) = 1 →
    Completes (.canError k .form tr plus) s fun t => (t.canOf k.val).tec = (s.canOf k.val).tec ∧
      (t.canOf k.val).recv = (s.canOf k.val).recv ∧ (t.canOf k.val).integrating = true :)

/-- R317, R319 to R321, R458: VBUS, the standard requests and the vendor requests of S. Where it rests on the model's own reading:
assumption 40. -/
def Obligations.ServicePortControl : Prop :=
  (∀ (s : State), Completes .usbVbusValid s fun t => t.on F.US_SSTAT_VBUS = true ∧ t.rd F.US_SSTAT_STATE =
    (if s.on F.US_SCTL_ENABLE = true ∧ s.rd F.US_SSTAT_STATE = 0 then 1 else s.rd F.US_SSTAT_STATE) :) ∧
  (∀ (s : State), Completes .usbVbusLoss s fun t => t.on F.US_SSTAT_VBUS = false ∧ t.rd F.US_SSTAT_STATE = 0 ∧
    (s.rd F.US_SSTAT_STATE ≠ 0 → t.usb.notices = [] ∧ t.usb.bulk = [] ∧ t.usb.ctl = none ∧ t.on F.US_SSTAT_RWEN = false ∧
      t.rd F.US_SSTAT_ADDR = 0) :) ∧
  (∀ (s : State) (a i l : BitVec 16), s.controlReady = true → a.toNat ≤ 127 → s.rd F.US_SSTAT_STATE ≠ 4 →
    Completes (.usbStandardRequest 0 5 a i l) s fun t => t.rd F.US_SSTAT_ADDR = a.toNat ∧
      t.rd F.US_SSTAT_STATE = (if a.toNat = 0 then 2 else 3) :) ∧
  (∀ (s : State) (v i l : BitVec 16), s.controlReady = true → v.toNat ≤ 1 → s.rd F.US_SSTAT_STATE ≠ 2 →
    Completes (.usbStandardRequest 0 9 v i l) s fun t => t.rd F.US_SSTAT_STATE = (if v.toNat = 0 then 3 else 4) :) ∧
  (∀ (s : State) (v i l : BitVec 16) (d : List Byte), s.controlReady = true → s.descriptor (v.toNat / 256) (v.toNat % 256) = some d →
    Completes (.usbStandardRequest 0x80 6 v i l) s fun t => t.out = s.out ++ [.usbData (d.take l.toNat)] ∧ t.regs = s.regs :) ∧
  (∀ (s : State) (ty r : Byte) (v i l : BitVec 16), s.controlReady = true → s.standard ty.toNat r.toNat v.toNat i.toNat = none →
    Completes (.usbStandardRequest ty r v i l) s fun t => t.out = s.out ++ [.usbStall] ∧ t.regs = s.regs :) ∧
  (∀ (s : State) (v i l : BitVec 16), s.controlReady = true → Completes (.getInfo v i l) s fun t => t.regs = s.regs ∧
    t.out = s.out ++ [if v = 0 ∧ i = 0 ∧ l = 32 then .usbData s.infoBytes else .usbStall] :) ∧
  (∀ (s : State) (v i l : BitVec 16), s.controlReady = true → Completes (.cmdResult v i l) s fun t => t.regs = s.regs ∧
    t.out = s.out ++ [if v = 0 ∧ i = 0 ∧ l = 16 then .usbData s.resultBytes else .usbStall] :) ∧
  (∀ (s : State) (v i l : BitVec 16), s.controlReady = true → Completes (.fwStatus v i l) s fun t => t.regs = s.regs ∧
    t.out = s.out ++ [if v = 0 ∧ i = 0 ∧ l = 16 then .usbData s.fwStatusBytes else .usbStall] :) ∧
  (∀ (s : State) (d : List Byte), s.controlReady = true → d.length = 32 → Completes (.cmd 0 0 d) s fun t =>
    t.usb.ctl = some { req := 0x10, data := d } ∧ t.regs = s.regs ∧ t.mg = s.mg :) ∧
  (∀ (s : State) (d : List Byte), s.controlReady = true → 17 ≤ d.length → d.length ≤ 4112 → (crc32c (d.drop 16)).toNat = leAt d 8 4 →
    Completes (.fwBlock 0 0 d) s fun t => t.usb.ctl = some { req := 0x20, data := d } ∧ t.regs = s.regs ∧ t.fw = s.fw :) ∧
  (∀ (s : State) (d : List Byte), s.controlReady = true → 17 ≤ d.length → d.length ≤ 4112 → (crc32c (d.drop 16)).toNat ≠ leAt d 8 4 →
    Completes (.fwBlock 0 0 d) s fun t => t.usb.ctl = none ∧ t.fw = s.fw ∧ t.mg = s.mg ∧ t.rd F.FW_ERR_CODE = 2 ∧
      t.out = s.out ++ [.usbStall] :) ∧
  (∀ (s : State) (ok : Bool) (x : CtlXfer), s.usb.ctl = some x → x.req = 0x20 → s.usb.bulk = [] →
    Completes (.controlTransferComplete ok) s fun t => t.usb.ctl = none ∧ t.rd F.US_CSTAT_RSTOUT = 1 ∧ (t.slotOf .s).code = 0x21 :)

/-- R322 to R330: bulk messages, notices, SOF, suspend, the two wakes, bus reset. Where it rests on the model's own reading: assumption 41.
-/
def Obligations.ServicePortTraffic : Prop :=
  (∀ (s : State) (tag : Word) (a : BitVec 64) (pb : Bool), s.bulkReady = true → s.takesRead .s (bitsOf a.toNat 40 8) (bitsOf a.toNat 0 40) = true →
    Completes (.bulkRead 1 4 tag a pb) s fun t => t.usb.busy = none ∧ ∃ w : Word, t.out = s.out ++
      [.usbBulk (bulkBytes { op := 1, loc := true, count := 4, tag := tag.toNat, addr := a.toNat, data := [], bad := false, parityBad := pb } .ok (bytesOf [w]))] :) ∧
  (∀ (s : State) (fl : Byte) (n : BitVec 16) (tag : Word) (a : BitVec 64) (pb : Bool), s.bulkReady = true → (2 ≤ fl.toNat ∨ n.toNat = 0 ∨ 64 < n.toNat) →
    Completes (.bulkRead fl n tag a pb) s fun t => t.regs = s.regs ∧ t.usb.busy = none ∧ ∃ m : BulkMsg, m.op = 1 ∧ m.tag = tag.toNat ∧
      t.out = s.out ++ [.usbBulk (bulkBytes m .badOp [])] :) ∧
  (∀ (s : State) (tag v : Word) (a : BitVec 64), s.bulkReady = true → bitsOf a.toNat 40 8 = F.TM_SETS_SEC.key / 0x100000 →
    bitsOf a.toNat 0 40 = F.TM_SETS_SEC.key % 0x100000 → s.takesFields .s [(F.TM_SETS_SEC, v.toNat)] = true →
    Completes (.bulkWrite 1 4 tag a (leBytes v.toNat 4)) s fun t => t.rd F.TM_SETS_SEC = v.toNat ∧ t.usb.busy = none ∧
      ∃ m : BulkMsg, m.op = 2 ∧ m.tag = tag.toNat ∧ t.out = s.out ++ [.usbBulk (bulkBytes m .ok [])] :) ∧
  (∀ (s : State) (fl : Byte) (n : BitVec 16) (tag : Word) (q : BitVec 64), s.bulkReady = true → fl.toNat ≤ 1 → 1 ≤ n.toNat → n.toNat ≤ 16 →
    Completes (.bulkTally fl n tag q) s fun t => t.regs = s.regs ∧ ∃ m : BulkMsg, m.op = 3 ∧ m.tag = tag.toNat ∧ t.out = s.out ++
      [.usbBulk (if q.toNat < s.tallyTail then bulkBytes m .addrErr [] else bulkBytes m .ok (s.tallyRead q.toNat n.toNat))] :) ∧
  (∀ (s : State) (fl : Byte) (n : BitVec 16) (tag : Word) (x : List Byte), s.bulkReady = true → fl.toNat ≤ 1 → n.toNat ≤ 4080 →
    x.length = n.toNat → Completes (.bulkConsole fl n tag x) s fun t => t.regs = s.regs ∧ ∃ m : BulkMsg, m.op = 4 ∧ m.tag = tag.toNat ∧
      t.out = s.out ++ [.console x, .usbBulk (bulkBytes m .ok [])] :) ∧
  (∀ (s : State) (k n : Nat) (r : List (Nat × Nat)), s.usb.notices = (k, n) :: r → s.rd F.US_SSTAT_STATE = 4 →
    s.clocked 4 = true → s.usb.ctl = none → s.usb.bulk = [] →
    s.usb.halted.contains 0x82 = false → Completes .usbNotice s fun t => t.usb.notices = r ∧ t.regs = s.regs ∧
      t.out = s.out ++ [.usbNotice (leBytes k 8 ++ leBytes n 8)] :) ∧
  (∀ (s : State) (f : BitVec 11), s.usbLive = true → Completes (.usbSof f) s fun t => t.rd F.US_SOF_FRAME = f.toNat ∧
    t.on F.US_SOF_SOFVALID = true ∧ t.rd F.US_SOFTICK_TICK = s.clock.tick % 2 ^ 32 ∧ t.rd F.US_SOF_UFRAME =
      (if s.on F.US_SSTAT_HS = true then
        if s.on F.US_SOF_SOFVALID = true ∧ s.rd F.US_SOF_FRAME = f.toNat then (s.rd F.US_SOF_UFRAME + 1) % 8 else 0
      else s.rd F.US_SOF_UFRAME) :) ∧
  (∀ (s : State), 1 ≤ s.rd F.US_SSTAT_STATE → s.rd F.US_SSTAT_STATE ≤ 4 → Completes .usbSuspend s fun t => t.rd F.US_SSTAT_STATE = 5 ∧
    t.usb.before = s.rd F.US_SSTAT_STATE ∧ t.rd F.US_SUSPENDS_COUNT = min (s.rd F.US_SUSPENDS_COUNT + 1) (2 ^ (F.US_SUSPENDS_COUNT).width - 1) :) ∧
  (∀ (s : State), s.rd F.US_SSTAT_STATE = 5 → Completes .usbHostResume s fun t =>
    t.rd F.US_SSTAT_STATE = s.usb.before % 2 ^ (F.US_SSTAT_STATE).width ∧ t.on F.US_WAKE_PEND = false ∧
    (s.on F.US_SSTAT_RWEN = true → s.on F.US_WAKE_PEND = true → t.rd F.US_WAKE_WAKEOUT = 1 ∧ t.rd F.US_WAKE_CAUSE = 0) :) ∧
  (∀ (s : State), s.rd F.US_SSTAT_STATE = 5 → Completes .usbWakeSource s fun t => t.on F.US_WAKE_PEND = true ∧ t.usb = s.usb :) ∧
  (∀ (s : State), s.clocked 4 = true → s.rd F.US_SSTAT_STATE = 5 → s.on F.US_SSTAT_RWEN = true → s.on F.US_WAKE_PEND = true →
    Completes .usbRemoteWake s fun t => t.rd F.US_SSTAT_STATE = s.usb.before % 2 ^ (F.US_SSTAT_STATE).width ∧ t.on F.US_WAKE_PEND = false ∧
      t.rd F.US_WAKE_WAKEOUT = 2 ∧ t.rd F.US_WAKE_CAUSE = 1 ∧ t.out = s.out ++ [.usbWake] :) ∧
  (∀ (s : State) (hs : Bool) (fl : Option Byte), s.rd F.US_SSTAT_STATE ≠ 0 → Completes (.usbBusReset hs fl) s fun t =>
    t.rd F.US_SSTAT_STATE = 2 ∧ t.on F.US_SSTAT_HS = hs ∧ t.on F.US_SSTAT_RWEN = false ∧ t.usb.notices = [] ∧ t.usb.bulk = [] ∧
    t.usb.ctl = none ∧ t.usb.busy = s.usb.busy.map (fun b => (b.1, true)) ∧ t.fw = s.fw ∧
    t.rd F.US_BULKDISC_COUNT = min (s.rd F.US_BULKDISC_COUNT + s.usb.bulk.length) (2 ^ (F.US_BULKDISC_COUNT).width - 1) ∧
    (∀ k, k / 0x100000 ≠ 6 → k ∉ eventKeys → t.reg k = s.reg k) ∧ t.rd F.US_RESETS_COUNT = min (s.rd F.US_RESETS_COUNT + 1) (2 ^ (F.US_RESETS_COUNT).width - 1) ∧
    (∀ x, s.usb.ctl = some x → t.rd F.US_CSTAT_RSTOUT = 2 ∧ (x.req = 0x10 ∨ x.req = 0x20 →
      t.rd F.US_RSTABORT_COUNT = min (s.rd F.US_RSTABORT_COUNT + 1) (2 ^ (F.US_RSTABORT_COUNT).width - 1))) :) ∧
  (∀ (s : State) (m : BulkMsg) (st : Status) (d : List Byte), s.usb.busy = some (m, true) →
    (s.bulkAnswer st d).out = s.out ∧ (s.bulkAnswer st d).usb.busy = none :)

/-- R333 to R336: power, connection, over-current, codes, line coding and transmission of the field ports. Where it rests on the model's own
reading: assumption 42. -/
def Obligations.FieldPorts : Prop :=
  (∀ (s : State) (n : Fin 4) (p : Bool), s.on (F.US_FPn_CTL_ENABLE n.val) = true → s.on (F.US_FPn_CTL_POWER n.val) = true →
    (s.field n.val).waiting = false → (s.rd (F.US_FPn_STAT_STATE n.val) = 0 ∨ s.rd (F.US_FPn_STAT_STATE n.val) = 4) →
    Completes (.fieldPower n p) s fun t => t.rd (F.US_FPn_STAT_STATE n.val) = (if p then 2 else 1) ∧ (t.field n.val).tries = 0 :) ∧
  (∀ (s : State) (n : Fin 4) (d : FieldDevice), (s.rd (F.US_FPn_STAT_STATE n.val) = 1 ∨ s.rd (F.US_FPn_STAT_STATE n.val) = 2) →
    Completes (.fieldConnect n d) s fun t => t.rd (F.US_FPn_ID_VID n.val) = d.vid.toNat ∧ t.rd (F.US_FPn_ID_PID n.val) = d.pid.toNat ∧
      t.rd (F.US_FPn_STAT_DRIVER n.val) = deviceDriver d ∧ t.rd (F.US_FPn_STAT_STATE n.val) = (if deviceDriver d = 0 then 2 else 3) :) ∧
  (∀ (s : State) (n : Fin 4), 1 ≤ s.rd (F.US_FPn_STAT_STATE n.val) → s.rd (F.US_FPn_STAT_STATE n.val) ≤ 3 →
    Completes (.fieldOvercurrent n) s fun t => t.rd (F.US_FPn_STAT_STATE n.val) = 4 ∧ t.rd (F.US_FPn_STAT_DRIVER n.val) = 0 ∧
      (s.on F.NC_MODE_POLICY = false → (s.field n.val).tries < s.rd (F.US_FPn_CTL_RETRIES n.val) → (t.field n.val).waiting = true) ∧
      (s.on F.NC_MODE_POLICY = true ∨ s.rd (F.US_FPn_CTL_RETRIES n.val) ≤ (s.field n.val).tries →
        t.on (F.US_FPn_CTL_POWER n.val) = false) :) ∧
  (∀ (s : State) (n : Fin 4), (s.field n.val).waiting = true → s.on (F.US_FPn_CTL_ENABLE n.val) = true →
    s.on (F.US_FPn_CTL_POWER n.val) = true → Completes (.fieldPowerRetry n) s fun t => t.rd (F.US_FPn_STAT_STATE n.val) = 1 ∧
      (t.field n.val).waiting = false ∧ (t.field n.val).tries = (s.field n.val).tries + 1 :) ∧
  (∀ (s : State) (n : Fin 4), (s.rd (F.US_FPn_STAT_STATE n.val) = 2 ∨ s.rd (F.US_FPn_STAT_STATE n.val) = 3) →
    Completes (.fieldDisconnect n) s fun t => t.rd (F.US_FPn_STAT_STATE n.val) = 1 ∧ t.rd (F.US_FPn_STAT_DRIVER n.val) = 0 :) ∧
  (∀ (s : State) (n : Fin 4) (bs : List Byte) (re : Bool), s.rd (F.US_FPn_STAT_STATE n.val) = 3 → s.rd (F.US_FPn_STAT_DRIVER n.val) = 4 →
    s.throttled = false → s.clocked 4 = true → (s.field n.val).code.skip = false → (s.field n.val).ready = [] → (∀ b ∈ bs, b ≠ 13 ∧ b ≠ 10) →
    (s.field n.val).code.bytes.length + bs.length < 250 → Completes (.fieldData n bs re) s fun t =>
      (t.field n.val).code.bytes = (s.field n.val).code.bytes ++ bs ∧ t.eq = s.eq ∧ t.regs = s.regs :) ∧
  (∀ (s : State) (n : Fin 4), s.throttled = false → (s.field n.val).ready = [] → (s.field n.val).code.bytes ≠ [] →
    (s.field n.val).code.bytes.length ≤ 8 → s.eq.entries.length < 4096 → Completes (.codeGapTimeout n) s fun t =>
      (t.field n.val).code.bytes = [] ∧ ∃ e, t.eq.entries = s.eq.entries ++ [e] ∧
        e.w0 = eqWord0 (s.rd (F.US_FPn_CFG_EQPRI n.val)) 3 1 (n.val + 4 + 16 * (s.field n.val).code.bytes.length) ∧
        e.w2 = BitVec.ofNat 32 (beAt ((s.field n.val).code.bytes ++ List.replicate (8 - (s.field n.val).code.bytes.length) 0) 0 4) ∧
        e.w3 = BitVec.ofNat 32 (beAt ((s.field n.val).code.bytes ++ List.replicate (8 - (s.field n.val).code.bytes.length) 0) 4 4) :) ∧
  (∀ (s : State) (src : Src) (n : Fin 4) (b : BitVec 24) (f : BitVec 2),
    s.takesWrite src 6 (0x1010 + 0x100 * n.val) (b.toNat + f.toNat * 2 ^ 24) = true → Completes (.lineCodingWrite src n b f) s fun t =>
      t.rd (F.US_FPn_LINE_BAUD n.val) = b.toNat ∧ t.rd (F.US_FPn_LINE_FORMAT n.val) = f.toNat ∧
      t.out = (if s.rd (F.US_FPn_STAT_DRIVER n.val) = 4 then (s.emit (.lineCoding n.val b.toNat f.toNat)).out else s.out) ++ [.answer src .ok []] :) ∧
  (∀ (s : State) (src : Src) (n : Fin 4) (l : BitVec 7), s.takesWrite src 6 (0x1014 + 0x100 * n.val) (l.toNat + 2 ^ 8) = true →
    (s.rd (F.US_FPn_STAT_DRIVER n.val) = 1 ∨ s.rd (F.US_FPn_STAT_DRIVER n.val) = 4) → Completes (.fieldTxGo src n l) s fun t =>
      t.on (F.US_FPn_TXCTL_BUSY n.val) = true ∧ t.on (F.US_FPn_TXCTL_GO n.val) = true ∧
      t.out = (s.emit (.fieldOut n.val ((s.fieldBytes n.val).take l.toNat))).out ++ [.answer src .ok []] :) ∧
  (∀ (s : State) (src : Src) (n : Fin 4) (l : BitVec 7), s.takesWrite src 6 (0x1014 + 0x100 * n.val) (l.toNat + 2 ^ 8) = true →
    s.rd (F.US_FPn_STAT_DRIVER n.val) ≠ 1 → s.rd (F.US_FPn_STAT_DRIVER n.val) ≠ 4 → Completes (.fieldTxGo src n l) s fun t =>
      t.on (F.US_FPn_TXCTL_BUSY n.val) = false ∧ t.on (F.US_FPn_TXCTL_GO n.val) = false ∧ t.on (F.US_FPn_TXCTL_TXERR n.val) = true :) ∧
  (∀ (s : State) (n : Fin 4) (ok : Bool), s.on (F.US_FPn_TXCTL_BUSY n.val) = true → Completes (.fieldTxDone n ok) s fun t =>
    t.on (F.US_FPn_TXCTL_BUSY n.val) = false ∧ t.on (F.US_FPn_TXCTL_GO n.val) = false ∧ (ok = false → t.on (F.US_FPn_TXCTL_TXERR n.val) = true ∧
      t.rd (F.US_FPn_XERR_COUNT n.val) = min (s.rd (F.US_FPn_XERR_COUNT n.val) + 1) (2 ^ (F.US_FPn_XERR_COUNT n.val).width - 1)) :)

/-- R338, R339, R342 to R348: pushes, pops with their latch, the ring forwarder, the watermarks. -/
def Obligations.EventQueueService : Prop :=
  (∀ (s : State) (src : Src) (w3 : Word), s.takesWrite src 8 0xC w3.toNat = true → s.eq.entries.length < 4032 →
    Completes (.eventPush src w3) s fun t => ∃ e, t.eq.entries = s.eq.entries ++ [e] ∧ e.w1 = BitVec.ofNat 32 s.ns ∧ e.w3 = w3 ∧
      e.w2 = Tbl.get 0 2 s.eq.push ∧ bitsOf e.w0.toNat 31 1 = 1 ∧ bitsOf e.w0.toNat 30 1 = 0 ∧ bitsOf e.w0.toNat 23 4 = 0 ∧
      bitsOf e.w0.toNat 27 3 = bitsOf (Tbl.get 0 0 s.eq.push).toNat 27 3 :) ∧
  (∀ (s : State) (src : Src) (w3 : Word), s.takesWrite src 8 0xC w3.toNat = true → 4032 ≤ s.eq.entries.length →
    Completes (.eventPush src w3) s fun t => t.eq = s.eq ∧ t.on F.EQ_STAT_PUSHREF = true ∧
      t.rd F.EQ_PUSHREF_COUNT = min (s.rd F.EQ_PUSHREF_COUNT + 1) (2 ^ (F.EQ_PUSHREF_COUNT).width - 1) :) ∧
  (∀ (f : EqEntry → Bool) (es : List EqEntry) (e : EqEntry), firstServed f es = some e →
    ∃ a b, es = a ++ e :: b ∧ f e = true ∧ (∀ x ∈ a, f x = true → x.pri < e.pri) ∧ ∀ x ∈ b, f x = true → x.pri ≤ e.pri :) ∧
  (∀ (s : State) (src : Src) (c : Nat) (e : EqEntry), s.takesField src F.EQ_POP0_WORD = true → consumer src = some c →
    firstServed (·.needLocal) s.eq.entries = some e → Completes (.eventPop src true) s fun t =>
      Tbl.get (0, 0, 0, 0) c t.eq.latch = (e.w0, e.w1, e.w2, e.w3) ∧ t.out = s.out ++ [.answer src .ok (bytesOf [e.w0])] ∧
      (s.quietProducers → t.eq.entries = replaceFirst (fun x => x.needLocal && x.pri == e.pri)
        (fun x => if x.needRing then some { x with needLocal := false } else none) s.eq.entries) :) ∧
  (∀ (s : State) (src : Src) (c : Nat) (e : EqEntry), s.takesField src F.EQ_POP0_WORD = true → consumer src = some c →
    firstServed (·.needLocal) s.eq.entries = some e → Completes (.eventPop src false) s fun t =>
      Tbl.get (0, 0, 0, 0) c t.eq.latch = (e.w0 ||| BitVec.ofNat 32 (2 ^ 30), e.w1, e.w2, e.w3) ∧
      t.rd F.EQ_POISON_COUNT = min (s.rd F.EQ_POISON_COUNT + 1) (2 ^ (F.EQ_POISON_COUNT).width - 1) :) ∧
  (∀ (s : State) (src : Src) (c : Nat) (ok : Bool), s.takesField src F.EQ_POP0_WORD = true → consumer src = some c →
    firstServed (·.needLocal) s.eq.entries = none → Completes (.eventPop src ok) s fun t =>
      Tbl.get (0, 0, 0, 0) c t.eq.latch = (0, 0, 0, 0) ∧ t.eq.entries = s.eq.entries :) ∧
  (∀ (s : State) (src : Src) (ok : Bool), consumer src = none → Completes (.eventPop src ok) s fun t => t.eq = s.eq :) ∧
  (∀ (s : State) (bad : List Nat) (h : EqEntry), s.quietProducers → (∀ e ∈ s.eq.entries, e.needRing = true → s.noRing e.dring = false) →
    firstServed (fun e => e.needRing && !s.cellWaits e.dring e.dnode) s.eq.entries = some h →
    Completes (.eventCellSend bad) s fun t =>
      t.eq.entries = (takeFor (fun e => e.needRing && e.dring == h.dring && e.dnode == h.dnode) 32 s.eq.entries []).1 ∧
      Tbl.get 0 (h.dring * 4096 + h.dnode) t.eq.seq = (Tbl.get 0 (h.dring * 4096 + h.dnode) s.eq.seq + 1) % 65536 ∧
      t.rd F.EQ_RINGCELL_COUNT = min (s.rd F.EQ_RINGCELL_COUNT + 1) (2 ^ (F.EQ_RINGCELL_COUNT).width - 1) ∧
      ∃ u : State, t = (u.send (u.mkCell 3 3 0 h.dring h.dnode (Tbl.get 0 (h.dring * 4096 + h.dnode) s.eq.seq) (entryBytes bad
        (takeFor (fun e => e.needRing && e.dring == h.dring && e.dnode == h.dnode) 32 s.eq.entries []).2 0)) none 24).1 :) ∧
  (∀ (dr dn k : Nat) (es : List EqEntry),
    (takeFor (fun e => e.needRing && e.dring == dr && e.dnode == dn) k es []).2.Pairwise (fun x y => y.pri ≤ x.pri) ∧
    ∀ q, ((takeFor (fun e => e.needRing && e.dring == dr && e.dnode == dn) k es []).2.filter fun e => e.pri == q) <+:
      (es.filter fun e => (e.needRing && e.dring == dr && e.dnode == dn) && e.pri == q) :) ∧
  (∀ (s : State) (c : Cell), Completes (.eventCell c) s fun t => t.out = s.out ++ [.mgmtCell c] ∧ t.regs = s.regs ∧ t.eq = s.eq :) ∧
  (∀ (s : State) (src : Src) (h l : BitVec 13), s.takesFields src [(F.EQ_MARKS_HWM, h.toNat), (F.EQ_MARKS_LWM, l.toNat)] = true →
    h.toNat ≤ s.eq.entries.length → Completes (.eqMarksWrite src h l) s fun t => t.rd F.EQ_MARKS_HWM = h.toNat ∧
      t.rd F.EQ_MARKS_LWM = l.toNat ∧ t.throttled = true ∧ t.eq = s.eq :) ∧
  (∀ (s : State) (src : Src) (h l : BitVec 13), s.takesFields src [(F.EQ_MARKS_HWM, h.toNat), (F.EQ_MARKS_LWM, l.toNat)] = true →
    s.eq.entries.length ≤ l.toNat → s.quietProducers → Completes (.eqMarksWrite src h l) s fun t =>
      t.rd F.EQ_MARKS_HWM = h.toNat ∧ t.rd F.EQ_MARKS_LWM = l.toNat ∧ t.throttled = false ∧ t.eq.entries = s.eq.entries :)

/-- R353 to R359: the inlet's states, its limiters and fault timer, qualification, holdup, faults and their retries. Where it rests on the
model's own reading: assumption 44. -/
def Obligations.InletStates : Prop :=
  (∀ (s : State) (l : Bool), s.inlet = 0 → Completes (.seatAssert l) s fun t => t.inlet = 1 ∧ t.rd F.PW_INSTAT_SEAT = 3 ∧
    t.pow.latched = (s.pow.latched && !l) :) ∧
  (∀ (s : State), s.inlet = 1 → Completes .seatQualified s fun t => t.inlet = (if s.pow.latched then 1 else 2) :) ∧
  (∀ (s : State) (a b : Bool), (a && b) = false → Completes (.seatRelease a b) s fun t => t.inlet = 0 ∧
    t.rd F.PW_INSTAT_SEAT = b2n a + 2 * b2n b ∧ (s.inlet ≠ 0 → t.rd F.PW_INSTAT_CAUSE = 6 ∧ t.on F.PW_INSTAT_PG = false) :) ∧
  (∀ (s : State), s.inlet ≠ 0 → Completes .inletOv s fun t => t.inlet = 1 ∧ t.rd F.PW_INSTAT_CAUSE = 4 ∧ t.on F.PW_INSTAT_PG = false :) ∧
  (∀ (s : State), (s.inlet = 2 ∨ s.inlet = 3 ∨ s.inlet = 5) → Completes .inletUv s fun t => t.inlet = 1 ∧ t.rd F.PW_INSTAT_CAUSE = 5 :) ∧
  (∀ (s : State), s.inlet = 2 → Completes .rampDone s fun t => t.inlet = 3 ∧ t.pow.qual = !s.pow.timer :) ∧
  (∀ (s : State), s.inlet = 2 → Completes .rampTimeout s fun t => t.inlet = 6 ∧ t.rd F.PW_INSTAT_CAUSE = 3 :) ∧
  (∀ (s : State) (p : Bool), s.fetOn = true → Completes (.inletLimitEntry p) s fun t => t.pow.timer = true ∧
    t.rd F.PW_INSTAT_LIMIT = s.rd F.PW_INSTAT_LIMIT ||| (if p then 2 else 1) ∧
    (s.inlet = 3 → s.pow.qual = true → s.rd F.PW_INSTAT_LIMIT = 0 → t.rd F.PW_INSTAT_QOUT = 1 ∧ t.pow.qual = false) :) ∧
  (∀ (s : State) (a b : Bool), Completes (.inletLimitExit a b) s fun t =>
    t.rd F.PW_INSTAT_LIMIT = s.rd F.PW_INSTAT_LIMIT &&& (b2n a + 2 * b2n b) ∧ t.pow = s.pow :) ∧
  (∀ (s : State), s.pow.timer = true → s.rd F.PW_INSTAT_LIMIT = 0 → Completes .faultTimerIdle s fun t => t.pow.timer = false ∧
    t.pow.qual = (s.pow.qual || s.inlet == 3) ∧ t.regs = s.regs :) ∧
  (∀ (s : State), s.fetOn = true → s.pow.timer = true → Completes .faultTimerExpiry s fun t => t.inlet = 6 ∧ t.rd F.PW_INSTAT_CAUSE = 1 ∧
    t.pow.timer = false ∧
    t.pow.latched = !(s.on F.PW_INCFG_POLICY && decide (s.rd F.PW_INSTAT_RETRYN < s.rd F.PW_INCFG_RETRIES)) :) ∧
  (∀ (s : State), s.fetOn = true → Completes .fastTrip s fun t => t.inlet = 6 ∧ t.rd F.PW_INSTAT_CAUSE = 2 ∧
    t.rd F.PW_INFAULTS_COUNT = min (s.rd F.PW_INFAULTS_COUNT + 1) (2 ^ (F.PW_INFAULTS_COUNT).width - 1) ∧
    t.pow.latched = !(s.on F.PW_INCFG_POLICY && decide (s.rd F.PW_INSTAT_RETRYN < s.rd F.PW_INCFG_RETRIES)) :) ∧
  (∀ (s : State), s.inlet = 3 → s.pow.qual = true → Completes .qualTimer s fun t => t.inlet = 4 ∧ t.rd F.PW_INSTAT_QOUT = 2 ∧
    t.on F.PW_INSTAT_PG = true ∧ t.pow.qual = false :) ∧
  (∀ (s : State), s.inlet = 4 → Completes .holdupEntry s fun t => t.inlet = 5 ∧ t.on F.PW_INSTAT_PG = true ∧ t.rd F.PW_INSTAT_LIMIT = 0 :) ∧
  (∀ (s : State), s.inlet = 5 → Completes .holdupExit s fun t => t.inlet = 4 ∧ t.on F.PW_INSTAT_PG = true :) ∧
  (∀ (s : State), s.inlet = 6 → s.on F.PW_INCFG_POLICY = true → s.rd F.PW_INSTAT_RETRYN < s.rd F.PW_INCFG_RETRIES →
    Completes .inletRetry s fun t => t.inlet = 2 ∧ t.rd F.PW_INSTAT_RETRYN = s.rd F.PW_INSTAT_RETRYN + 1 ∧ t.pow.latched = false :) ∧
  (∀ (s : State), s.inlet = 4 → Completes .inletRetryReset s fun t => t.rd F.PW_INSTAT_RETRYN = 0 ∧ t.inlet = 4 :) ∧
  (∀ (s : State) (f : MateFrame), mateGood f 0 = true → s.pow.latched = true → Completes (.inletclrMessage f) s fun t => t.pow.latched = false ∧
    t.inlet = (if s.inlet = 6 then 1 else s.inlet) :)

/-- R360, R361, R363, R365 to R370, R414: the power-fail warning, the final checkpoint, samples and heat, trips, retries, ON and LOADCURVE.
Where it rests on the model's own readings: assumptions 43, 45, 70. -/
def Obligations.BranchesAndWarning : Prop :=
  (∀ (s : State), s.on F.PW_PFWSTAT_ACTIVE = false → Completes .pfwAssert s fun t => t.on F.PW_PFWSTAT_ACTIVE = true ∧
    t.rd F.PW_PFWS_COUNT = min (s.rd F.PW_PFWS_COUNT + 1) (2 ^ (F.PW_PFWS_COUNT).width - 1) ∧
    (s.corePowered = true → s.isActive = true → t.pow.final = true) ∧
    ∀ b : Fin 8, s.on F.PW_OWN_OWNER = true → bitsOf (s.rd F.PW_PFWCFG_SHED) b.val 1 = 1 → s.branch b.val = 1 →
      t.branch b.val = 0 ∧ t.rd (F.PW_Bb_STAT_CAUSE b.val) = 3 ∧ t.rd (F.PW_Bb_CTL_ON b.val) = s.rd (F.PW_Bb_CTL_ON b.val) :) ∧
  (∀ (s : State), s.on F.PW_PFWSTAT_ACTIVE = true → Completes .pfwRelease s fun t => t.on F.PW_PFWSTAT_ACTIVE = false ∧ t.pow.shed = 0 ∧
    ∀ b : Fin 8, s.autonomous = true → bitsOf s.pow.shed b.val 1 = 1 → s.on (F.PW_Bb_CTL_ON b.val) = true → t.branch b.val = 1 :) ∧
  (∀ (s : State), s.on F.PW_PFWSTAT_ACTIVE = false → s.corePowered = true → s.isActive = true → s.store.fitted = true → s.pow.final = false →
    s.mt.finalPart = none → Completes .pfwAssert s fun t => t.mt.writing = s.mt.writing ∧ t.store = s.store ∧
      t.mt.finalPart.isSome = (s.mt.writing.isNone && !s.mt.lent) :) ∧
  (∀ (s : State) (ok : Bool), s.pow.final = true → (s.store.fitted = true → s.mt.finalPart.isSome = true) →
    Completes (.finalCheckpointDone ok) s fun t => t.pow.final = false ∧ t.mt.finalPart = none ∧ (s.store.fitted = true → t.mg.toStore = []) :) ∧
  (∀ (s : State) (ok : Bool), s.pow.final = true → s.store.fitted = true → s.mt.finalPart = none → Completes (.finalCheckpointDone ok) s fun t => t = s :) ∧
  (∀ (s : State) (adc : List (BitVec 16)), adc.length = 11 → Completes (.branchSample adc) s fun t =>
    (∀ (c : Fin 11) (v : BitVec 16), adc[c.val]? = some v → t.rd (F.PW_ADCc_VALUE c.val) = v.toNat) ∧
    ∀ (b : Fin 8) (v : BitVec 16), adc[3 + b.val]? = some v → t.heatOf b.val = min (s.heated b.val v.toNat) heatOne ∧
      (s.on F.PW_OWN_OWNER = true → s.branch b.val = 1 → heatOne ≤ s.heated b.val v.toNat →
        t.branch b.val ≠ 1 ∧ t.rd (F.PW_Bb_STAT_CAUSE b.val) = 1) ∧
      (s.heated b.val v.toNat < heatOne → t.branch b.val = s.branch b.val) :) ∧
  (∀ (s : State) (b : Fin 8) (ma : BitVec 16), s.on F.PW_OWN_OWNER = true → s.branch b.val = 1 → Completes (.branchInstantTrip b ma) s fun t =>
    t.heatOf b.val = heatOne ∧ t.rd (F.PW_Bb_STAT_CAUSE b.val) = 2 ∧
    t.rd (F.PW_Bb_TRIPS_COUNT b.val) = min (s.rd (F.PW_Bb_TRIPS_COUNT b.val) + 1) (2 ^ (F.PW_Bb_TRIPS_COUNT b.val).width - 1) ∧
    t.branch b.val = (if s.autonomous = true ∧ s.rd (F.PW_Bb_STAT_RETRYN b.val) < s.rd (F.PW_Bb_CTL_RETRIES b.val) then 3 else 2) :) ∧
  (∀ (s : State) (b : Fin 8), s.branch b.val = 3 → s.heatOf b.val ≤ heatOne / 2 → Completes (.branchRetry b) s fun t => t.branch b.val = 1 ∧
    t.rd (F.PW_Bb_STAT_RETRYN b.val) = (s.rd (F.PW_Bb_STAT_RETRYN b.val) + 1) % 2 ^ (F.PW_Bb_STAT_RETRYN b.val).width :) ∧
  (∀ (s : State) (b : Fin 8), s.branch b.val = 1 → Completes (.branchRetryReset b) s fun t => t.rd (F.PW_Bb_STAT_RETRYN b.val) = 0 ∧
    t.branch b.val = 1 :) ∧
  (∀ (s : State) (b : Fin 8) (ma : BitVec 16), s.on F.PW_OWN_OWNER = true → s.branch b.val ≠ 1 → s.on (F.PW_Bb_STAT_STUCK b.val) = false →
    Completes (.branchStuck b ma) s fun t => t.on (F.PW_Bb_STAT_STUCK b.val) = true ∧ t.branch b.val = s.branch b.val :) ∧
  (∀ (s : State) (src : Src) (b : Fin 8), s.takesFields src [(F.PW_Bb_CTL_ON b.val, 1)] = true → Completes (.branchOn src b true) s fun t =>
    t.branch b.val = 1 ∧ t.on (F.PW_Bb_CTL_ON b.val) = true ∧ t.heatOf b.val = s.heatOf b.val ∧
    (2 ≤ s.branch b.val → t.rd (F.PW_Bb_STAT_RETRYN b.val) = 0) :) ∧
  (∀ (s : State) (src : Src) (b : Fin 8), s.takesFields src [(F.PW_Bb_CTL_ON b.val, 0)] = true → s.on (F.PW_Bb_CTL_ON b.val) = true →
    Completes (.branchOn src b false) s fun t => t.branch b.val = 0 ∧ t.on (F.PW_Bb_CTL_ON b.val) = false ∧
      t.heatOf b.val = s.heatOf b.val :) ∧
  (∀ (s : State) (src : Src) (b : Fin 8), s.takesFields src [(F.PW_Bb_CTL_LOADCURVE b.val, 1)] = true → Completes (.loadcurve src b) s fun t =>
    Tbl.get [] b.val t.pow.curves = s.shadowCurve b.val ∧ t.pow.heat = s.pow.heat :)

/-- R371, R372: the hand-over of the branches between the hubs of a pair. Where it rests on the model's own readings: assumptions 46, 47. -/
def Obligations.BranchHandover : Prop :=
  (∀ (s : State) (f : MateFrame), mateGood f 0 = true → s.on F.PW_OWN_OWNER = true → Completes (.mateTake f) s fun t => t.pow.frozen = true ∧ t.regs = s.regs ∧
    t.out = s.out ++ [.mate 8 ((List.range 8).flatMap fun b => s.offerEntry b)] :) ∧
  (∀ (s : State) (f : MateFrame), mateGood f 16 = true → s.pow.offering = true → Completes (.offer f) s fun t => t.rd F.PW_OWN_HANDOUT = 1 ∧
    t.pow.offering = false ∧ ∀ b : Fin 8, t.branch b.val = bitsOf (beAt f.payload (2 * b.val) 2) 14 2 ∧
      t.rd (F.PW_Bb_STAT_RETRYN b.val) = bitsOf (beAt f.payload (2 * b.val) 2) 11 3 ∧
      t.heatOf b.val = min (max (s.heatOf b.val) (bitsOf (beAt f.payload (2 * b.val) 2) 0 11 * 2 ^ 50)) heatOne :) ∧
  (∀ (s : State) (f : MateFrame), mateGood f 16 = true → s.pow.offering = false → s.rd F.PW_OWN_HANDOUT = 2 → Completes (.offer f) s fun t =>
    t.rd F.PW_LATE_COUNT = min (s.rd F.PW_LATE_COUNT + 1) (2 ^ (F.PW_LATE_COUNT).width - 1) ∧ t.pow = s.pow :) ∧
  (∀ (s : State), s.pow.offering = true → Completes .offerTimeout s fun t => t.rd F.PW_OWN_HANDOUT = 2 ∧ t.pow.offering = false ∧
    ∀ b : Fin 8, t.branch b.val = s.rd (F.PW_Bb_CTL_ON b.val) :) ∧
  (∀ (s : State) (f : MateFrame), mateGood f 3 = true → s.on F.PW_OWN_TAKING = true → Completes (.branchMessage f) s fun t =>
    t.branch (beAt f.payload 0 1 % 8) = bitsOf (beAt f.payload 1 2) 14 2 ∧ t.rd (F.PW_Bb_STAT_RETRYN (beAt f.payload 0 1 % 8)) = bitsOf (beAt f.payload 1 2) 11 3 :) ∧
  (∀ (s : State), s.on F.PW_OWN_TAKING = true → Completes .roleChange s fun t => t.on F.PW_OWN_OWNER = true ∧ t.on F.PW_OWN_TAKING = false ∧
    t.pow.frozen = false ∧ t.pow.offering = false :) ∧
  (∀ (s : State), s.on F.PW_OWN_TAKING = false → s.on F.PW_OWN_OWNER = true → s.pow.frozen = true → Completes .roleChange s fun t =>
    t.on F.PW_OWN_OWNER = false ∧ t.pow.frozen = false :) ∧
  (∀ (s : State) (f : MateFrame), mateGood f 0 = false → Completes (.mateTake f) s fun t => t = s.bump F.MT_LINEERR_COUNT :) ∧
  (∀ (s : State) (f : MateFrame), mateGood f 16 = false → Completes (.offer f) s fun t => t = s.bump F.MT_LINEERR_COUNT :) ∧
  (∀ (s : State) (f : MateFrame), mateGood f 3 = false → Completes (.branchMessage f) s fun t => t = s.bump F.MT_LINEERR_COUNT :)

/-- R378 to R381, R384, R385, R477: the AON domain, the supply sequence with its power-good race, the PLLs, REFCLK and TEST_N. Where it
rests on the model's own readings: assumptions 8, 49. -/
def Obligations.SuppliesAndClocks : Prop :=
  (∀ (s : State) (slot : Bool), Completes (.aonPowerOn slot none) s fun t => t.sup.aon = true ∧ t.mt.listening = true ∧
    t.on F.MT_STAT_SLOT = slot ∧ t.inlet = 0 ∧ t.weave = none ∧ t.pending = s.pending ∧ t.otp = s.otp ∧ (s.mt.writing = none → s.mt.finalPart = none → t.store = s.store) ∧
    t.rd F.RG_IDL_IDENT = s.otp.fusedId % 2 ^ 32 :) ∧
  (∀ (s : State) (slot : Bool) (c : Card), Completes (.aonPowerOn slot (some c)) s fun t => t.sup.aon = true ∧ t.mt.listening = true ∧
    t.on F.MT_STAT_SLOT = slot ∧ t.otp.fusedId = c.ident.toNat ∧ t.store = c.store ∧ t.pending = s.pending :) ∧
  (∀ (s : State), Completes .aonPowerFail s fun t => t.sup.aon = false ∧ t.regs = [] ∧ t.weave = none ∧ t.otp = s.otp ∧
    (s.mt.writing = none → s.mt.finalPart = none → t.store = s.store) ∧ t.pending = s.pending :) ∧
  (∀ (s : State), s.inlet = 4 → s.corePowered = false → s.sup.group = 0 → s.sup.retry = false → s.sup.spent = false →
    (s.sup.start = true ∨ s.on F.MT_STAT_OWNER = true) → Completes .coreStart s fun t => t.sup.group = 1 ∧ t.rd F.PW_SEQ_STEP = 2 ∧
      t.sup.start = false ∧ t.rd F.PW_SEQ_TRIES = 0 :) ∧
  (∀ (s : State) (g : Fin 4), s.sup.group = g.val + 1 → g.val < 3 → Completes (.railPg g) s fun t => t.sup.group = g.val + 2 ∧
    t.rd F.PW_SEQ_PGOUT = 1 ∧ t.rd F.PW_SEQ_STEP = 2 * (g.val + 2) :) ∧
  (∀ (s : State), s.sup.group = 4 → Completes (.railPg 3) s fun t => t.corePowered = true ∧ t.sup.locking = true ∧ t.sup.group = 0 ∧
    t.rd F.PW_SEQ_STEP = 9 ∧ t.rd F.PW_SEQ_PGOUT = 1 ∧ t.weave = none :) ∧
  (∀ (s : State) (g : Fin 4), s.sup.group ≠ g.val + 1 → s.sup.lateGroup = g.val + 1 → Completes (.railPg g) s fun t =>
    t.rd F.PW_LATE_COUNT = min (s.rd F.PW_LATE_COUNT + 1) (2 ^ (F.PW_LATE_COUNT).width - 1) ∧ t.sup.lateGroup = 0 :) ∧
  (∀ (s : State), s.sup.group ≠ 0 → Completes .seqTimeout s fun t => t.rd F.PW_SEQ_PGOUT = 2 ∧ t.rd F.PW_SEQ_FAILGRP = s.sup.group % 8 ∧
    t.on F.PW_RSTCAUSE_SEQFAIL = true ∧ t.sup.group = 0 ∧ t.sup.lateGroup = s.sup.group ∧
    t.sup.retry = decide (s.rd F.PW_SEQ_TRIES < 3) :) ∧
  (∀ (s : State), s.sup.retry = true → s.inlet = 4 → s.rd F.PW_SEQ_TRIES < 3 → Completes .seqRetry s fun t =>
    t.rd F.PW_SEQ_TRIES = s.rd F.PW_SEQ_TRIES + 1 ∧ t.sup.retry = false ∧ t.sup.group = 1 ∧ t.rd F.PW_SEQ_STEP = 2 :) ∧
  (∀ (s : State), s.sup.locking = true → s.sup.held = 0 → Completes .pllsLocked s fun t => t.rd F.PW_SEQ_STEP = 11 ∧ t.sup.locking = false ∧
    t.clock = { site := 0, tick := 0 } ∧ t.rd F.RG_IDL_IDENT = s.otp.fusedId % 2 ^ 32 :) ∧
  (∀ (s : State), s.corePowered = true → Completes .railPgLoss s fun t => t.on F.PW_RSTCAUSE_PGLOSS = true ∧ t.sup.stop = true :) ∧
  (∀ (s : State), (s.corePowered = true ∨ s.sup.group ≠ 0) → (s.sup.stop = true ∨ (s.inlet ≠ 4 ∧ s.inlet ≠ 5)) → Completes .coreStop s fun t =>
    t.corePowered = false ∧ t.on F.PW_RSTCAUSE_STOP = true ∧ t.weave = none ∧ t.sup.group = 0 ∧ t.sup.mcUp = false ∧
    t.on F.MT_STAT_OWNER = false :) ∧
  (∀ (s : State) (p : Fin 6), Completes (.pllLoss p) s fun t => bitsOf (t.rd F.NC_PLLSTAT_LOST) p.val 1 = 1 ∧
    t.sup.unlocked = s.sup.unlocked ||| 2 ^ p.val ∧ (p = 1 → ∀ q : Fin 3, s.isUp q.val = true → t.isUp q.val = false) :) ∧
  (∀ (s : State) (p : Fin 6), s.sup.unlocked = 2 ^ p.val → Completes (.pllRelock p) s fun t => t.sup.unlocked = 0 ∧
    bitsOf (t.rd F.NC_ALMCOND_COND) 0 1 = 0 :) ∧
  (∀ (s : State), Completes .refclkLoss s fun t => t.on F.PW_RSTCAUSE_REFLOSS = true ∧ t.on F.NC_PLLSTAT_REFLOSS = true ∧
    bitsOf t.sup.held 0 1 = 1 ∧ (s.corePowered = true → t.sup.locking = true ∧ t.rd F.PW_SEQ_STEP = 9 ∧ t.weave = none) :) ∧
  (∀ (s : State), Completes .refclkReturn s fun t => bitsOf t.sup.held 0 1 = 0 ∧ t.regs = s.regs ∧ t.sup.locking = s.sup.locking :) ∧
  (∀ (s : State) (low : Bool), Completes (.testN low) s fun t => bitsOf t.sup.held 1 1 = b2n low ∧
    t.rd F.PW_RSTCAUSE_PIN = s.rd F.PW_RSTCAUSE_PIN ∧ (low = true → s.corePowered = true → t.sup.locking = true ∧ t.weave = none) :)

/-- R388 to R391: RESET_N, the ring reset, and the resets of single units. Where it rests on the model's own readings: assumptions 14, 49,
63. -/
def Obligations.ResetsOfHubAndUnits : Prop :=
  (∀ (s : State), s.corePowered = true → Completes .resetN s fun t => t.on F.PW_RSTCAUSE_PIN = true ∧ t.rd F.PW_SEQ_STEP = 9 ∧
    t.sup.locking = true ∧ t.sup.mcUp = false ∧ t.weave = none ∧ t.eq.entries = [] ∧ t.mg.tally = [] ∧ t.can = [] ∧
    t.corePowered = true :) ∧
  (∀ (s : State) (src : Src) (key : Word), s.takesFields src [(F.NC_RSTREQ_KEY, key.toNat)] = true → Completes (.ringReset src key) s fun t =>
    t.on F.PW_RSTCAUSE_RING = true ∧ t.weave = none ∧ t.sup.mcUp = false ∧ t.eq.entries = [] ∧ t.mg.tally = s.mg.tally ∧
    t.clock = s.clock ∧ t.rd F.PW_SEQ_STEP = 11 ∧ (∃ a b, t.sup.writer = some (a, b, s.sec, s.ns)) ∧ .answer src .ok [] ∈ t.out :) ∧
  (∀ (s : State) (src : Src) (mask : Byte), s.takesFields src [(F.NC_URST_CAN, mask.toNat)] = true → Completes (.canReset src mask) s fun t =>
    ∀ k : Fin 8, t.canOf k.val = (if mask.getLsbD k.val = true then CanSt.init else s.canOf k.val) :) ∧
  (∀ (s : State) (src : Src), s.takesFields src [(F.NC_URST_FIELDHUB, 1)] = true → Completes (.fieldhubReset src) s fun t =>
    t.usb.fields = [] ∧ t.usb.ctl = s.usb.ctl ∧ ∀ n : Fin 4, t.rd (F.US_FPn_STAT_STATE n.val) = 0 :) ∧
  (∀ (s : State) (src : Src), s.takesFields src [(F.NC_URST_SVC, 1)] = true → Completes (.svcReset src) s fun t =>
    t.usb.fields = s.usb.fields ∧ t.usb.ctl = none ∧ t.usb.bulk = [] ∧ t.usb.busy = none ∧ t.usb.notices = [] ∧ t.rd F.US_SSTAT_STATE = 0 :) ∧
  (∀ (s : State) (src : Src), s.takesFields src [(F.NC_URST_BRIDGE, 1)] = true → Completes (.bridgeReset src) s fun t =>
    t.bridge.slots = [] ∧ t.bridge.jobs = s.bridge.jobs ∧ t.bridge.held = s.bridge.held :) ∧
  (∀ (s : State) (src : Src), s.takesFields src [(F.NC_URST_TIME, 1)] = true → Completes (.timeReset src) s fun t =>
    t.tm.fired = [] ∧ t.tm.caps = [] ∧ t.clock = s.clock ∧ ∀ k : Fin 32, t.on (F.TM_CMPk_CFG_ARM k.val) = false :) ∧
  (∀ (s : State) (src : Src), s.takesFields src [(F.NC_URST_UPLINK, 1)] = true → Completes (.uplinkReset src) s fun t =>
    (t.outOf 2).items = [] ∧ (t.outOf 2).sending = none ∧ t.isUp 2 = false :) ∧
  (∀ (s : State) (src : Src) (mask : BitVec 16), s.takesFields src [(F.NC_WRST_BASKET, mask.toNat)] = true →
    Completes (.basketReset src mask) s fun t => ∀ (m : Fin 16) (i : Fin 8), mask.getLsbD m.val = true →
      (t.wvr (8 * m.val + i.val)).tx = [] ∧ (t.wvr (8 * m.val + i.val)).rx = [] ∧ (t.wvr (8 * m.val + i.val)).acts = [] ∧
      (t.wvr (8 * m.val + i.val)).wait = .none ∧ t.rd (F.WVn_STAT_STATE (8 * m.val + i.val)) = 0 :) ∧
  (∀ (s : State) (src : Src) (mask : BitVec 16), s.takesFields src [(F.NC_ERST_EDGE, mask.toNat)] = true →
    Completes (.edgeReset src mask) s fun t => ∀ e : Fin 16, mask.getLsbD e.val = true →
      (t.outOf (e.val + 3)).items = [] ∧ (t.outOf (e.val + 3)).sending = none ∧ Tbl.get none (e.val + 3) t.slath.inputs = none :) ∧
  (∀ (s : State), Completes .unitResetDone s fun t => t = s :)

/-- R392 to R397: pace, voltage, speed modes, and the thermal fallback. Where it rests on the model's own reading: assumption 50. -/
def Obligations.PaceVoltageAndSpeed : Prop :=
  (∀ (s : State) (sc : BitVec 13) (w : Fin 8), Completes (.paceWindow sc w) s fun t => t.rd F.NC_PACE_SC = sc.toNat ∧
    t.rd F.NC_PACE_SLOWEST = w.val ∧ (s.on F.NC_SPSTAT_CHANGING = true → sc.toNat ≤ targetSc (s.rd F.NC_SPSTAT_TGT) →
      t.rd F.NC_SPSTAT_CUR = s.rd F.NC_SPSTAT_TGT ∧ t.on F.NC_SPSTAT_CHANGING = false) :) ∧
  (∀ (s : State), s.on F.NC_AVS_AVSFAULT = false → Completes (.avsLoop true) s fun t => t.on F.NC_AVS_AVSFAULT = false ∧
    (ceiling (s.rd F.NC_SPSTAT_TGT) < s.rd F.NC_AVS_VCORE → t.rd F.NC_AVS_VCORE = s.rd F.NC_AVS_VCORE - 5) ∧
    (s.rd F.NC_AVS_VCORE < ceiling (s.rd F.NC_SPSTAT_TGT) → targetSc (s.rd F.NC_SPSTAT_TGT) < s.rd F.NC_PACE_SC →
      t.rd F.NC_AVS_VCORE = s.rd F.NC_AVS_VCORE + 5) ∧
    (s.rd F.NC_AVS_VCORE ≤ ceiling (s.rd F.NC_SPSTAT_TGT) → s.rd F.NC_PACE_SC * 100 < 95 * targetSc (s.rd F.NC_SPSTAT_TGT) →
      600 < s.rd F.NC_AVS_VCORE → t.rd F.NC_AVS_VCORE = s.rd F.NC_AVS_VCORE - 5) :) ∧
  (∀ (s : State), s.on F.NC_AVS_AVSFAULT = false → Completes (.avsLoop false) s fun t => t.on F.NC_AVS_AVSFAULT = true ∧
    t.rd F.NC_AVS_VCORE = s.rd F.NC_AVS_VCORE ∧ bitsOf (t.rd F.NC_ALMCOND_COND) 2 1 = 1 :) ∧
  (∀ (s : State) (ok : Bool), s.on F.NC_AVS_AVSFAULT = true → Completes (.avsRetry ok) s fun t => t.on F.NC_AVS_AVSFAULT = (!ok) ∧
    (ok = true → bitsOf (t.rd F.NC_ALMCOND_COND) 2 1 = 0) :) ∧
  (∀ (s : State) (src : Src) (m : BitVec 2), s.takesFields src [(F.NC_MODE_SPEED, m.toNat)] = true → Completes (.speedModeWrite src m) s fun t =>
    t.rd F.NC_MODE_SPEED = m.toNat ∧ t.rd F.NC_SPSTAT_TGT = m.toNat ∧ t.on F.NC_SPSTAT_THERMAL = false ∧
    t.rd F.NC_SPSTAT_CUR = max (s.rd F.NC_SPSTAT_CUR) m.toNat ∧ t.on F.NC_SPSTAT_CHANGING = decide (m.toNat < s.rd F.NC_SPSTAT_CUR) :) ∧
  (∀ (s : State) (tj : BitVec 11), s.rd F.NC_SPSTAT_CUR = 0 → s.on F.NC_SPSTAT_THERMAL = false → Completes (.thermalFallback tj) s fun t =>
    t.rd F.NC_TEMP_TJ = tj.toNat ∧ t.on F.NC_SPSTAT_THERMAL = s.autonomous ∧ t.rd F.NC_SPSTAT_CUR = (if s.autonomous then 1 else 0) ∧
    bitsOf (t.rd F.NC_ALMCOND_COND) 3 1 = 1 :) ∧
  (∀ (s : State) (tj : BitVec 11), s.on F.NC_SPSTAT_THERMAL = true → s.rd F.NC_MODE_SPEED = 0 → 0 < s.rd F.NC_SPSTAT_CUR →
    Completes (.thermalReturn tj) s fun t => t.rd F.NC_TEMP_TJ = tj.toNat ∧ t.on F.NC_SPSTAT_THERMAL = false ∧ t.rd F.NC_SPSTAT_TGT = 0 ∧
      t.on F.NC_SPSTAT_CHANGING = true ∧ bitsOf (t.rd F.NC_ALMCOND_COND) 3 1 = 0 :)

/-- R371, R399, R401, R402, R404, R407, R408, R416, R425, R429: roles, the ownership of the store, the mate line and its timers. Where it
rests on the model's own readings: assumptions 46, 47, 51. -/
def Obligations.PairRolesAndMateLine : Prop :=
  (∀ (s : State), s.mt.listening = true → Completes .mateListenEnd s fun t => t.mt.listening = false ∧
    (s.on F.MT_STAT_SLOTERR = false → t.mt.req = true) ∧ (s.on F.MT_STAT_MATEPRES = false → t.on F.PW_OWN_OWNER = true) :) ∧
  (∀ (s : State), s.mt.req = true → s.owner = false → s.canAcquire = true → Completes .storeAcquire s fun t => t.owner = true ∧
    t.sup.start = (s.sup.start || s.mt.taking.isNone) :) ∧
  (∀ (s : State) (r g : Bool), Completes (.ownershipLines r g) s fun t => t.mt.reqI = r ∧ t.mt.gntI = g ∧
    (s.isStandby = true → s.mt.surrender = true → s.mt.taking = none → r = false → g = true →
      t.mt.taking = some 1 ∧ t.rd F.MT_STAT_TKOUT = 1) :) ∧
  (∀ (s : State), Completes .watchdogRefresh s fun t => t = s :) ∧
  (∀ (s : State), s.coreRuns = true → s.sup.mcUp = true → s.on F.FW_STAT_RECOVERY = false → s.on F.MT_STAT_MATEPRES = true →
    Completes .watchdogExpiry s fun t => t.owner = false ∧
    t.sup.mcUp = false ∧ (s.owner = true → t.rd F.MT_STAT_ROLE = 2) :) ∧
  (∀ (s : State), s.coreRuns = true → s.sup.mcUp = true → s.on F.FW_STAT_RECOVERY = false → s.on F.MT_STAT_MATEPRES = false →
    Completes .watchdogExpiry s fun t =>
    t.on F.PW_RSTCAUSE_WARM = true ∧ t.weave = none ∧ t.sup.alarms = s.sup.alarms ||| 256 ∧ t.clock = s.clock :) ∧
  (∀ (s : State), s.owner = true → Completes .heartbeatSend s fun t => t.regs = s.regs ∧ t.out = s.out ++
    [.mate 1 (beBytes (s.rd F.MT_CKSEQ_CKSEQ) 4 ++ beBytes (b2n s.coreRuns) 1 ++ beBytes (s.rd F.MT_STAT_SLOT) 1 ++ beBytes 0 2)] :) ∧
  (∀ (s : State), s.owner = false → Completes .beaconSend s fun t => t.regs = s.regs ∧ ∃ p, p.length = 8 ∧ t.out = s.out ++ [.mate 2 p] :) ∧
  (∀ (s : State) (f : MateFrame), mateGood f 8 = true → s.isStandby = true → s.mt.timedOut = false → beAt f.payload 5 1 % 2 ≠ s.rd F.MT_STAT_SLOT →
    Completes (.heartbeat f) s fun t => t.rd F.MT_STAT_HBOUT = 1 ∧ t.on F.MT_STAT_MATEPRES = true ∧ t.on F.MT_STAT_SLOTERR = false ∧
      t.on F.MT_STAT_CKFAULT = s.storeFree :) ∧
  (∀ (s : State) (f : MateFrame), mateGood f 8 = true → s.owner = false → s.mt.timedOut = true → Completes (.heartbeat f) s fun t =>
    t.rd F.MT_LATE_COUNT = min (s.rd F.MT_LATE_COUNT + 1) (2 ^ (F.MT_LATE_COUNT).width - 1) ∧ t.mt.taking = s.mt.taking :) ∧
  (∀ (s : State) (f : MateFrame), mateGood f 8 = false → Completes (.heartbeat f) s fun t => t.mt = s.mt ∧
    t.rd F.MT_LINEERR_COUNT = min (s.rd F.MT_LINEERR_COUNT + 1) (2 ^ (F.MT_LINEERR_COUNT).width - 1) :) ∧
  (∀ (s : State), s.isStandby = true → s.mt.timedOut = false → s.mt.taking = none → Completes .heartbeatTimeout s fun t =>
    t.mt.timedOut = true ∧ t.rd F.MT_STAT_HBOUT = 2 ∧
    (s.storeFree = true → t.mt.taking = some 0 ∧ t.mt.run = 0 ∧ t.rd F.MT_STAT_TKOUT = 1 ∧ t.rd F.MT_STAT_ROLE = 0) ∧
    (s.storeFree = false → t.mt.taking = none ∧ t.rd F.MT_STAT_TKOUT = 2 ∧ t.on F.MT_STAT_LINEFAULT = true ∧
      t.rd F.MT_BLOCKED_COUNT = min (s.rd F.MT_BLOCKED_COUNT + 1) (2 ^ (F.MT_BLOCKED_COUNT).width - 1)) :) ∧
  (∀ (s : State), s.isStandby = true → (s.mt.timedOut = true ∨ s.mt.surrender = true) → s.rd F.MT_STAT_TKOUT = 2 → s.mt.taking = none → s.storeFree = true →
    Completes .storeCheck s fun t => t.mt.taking = some (b2n s.mt.surrender) ∧ t.rd F.MT_STAT_TKOUT = 1 :) ∧
  (∀ (s : State) (f : MateFrame), mateGood f 8 = true → Completes (.beacon f) s fun t => t.on F.MT_STAT_MATEPRES = true ∧
    t.rd F.MT_MATE_MSTATE = beAt f.payload 0 1 % 4 ∧ t.rd F.MT_MATE_MREADY = beAt f.payload 1 1 % 2 ∧ t.rd F.MT_MATE_MPRRES = beAt f.payload 2 1 :) ∧
  (∀ (s : State), s.on F.MT_STAT_MATEPRES = true → Completes .mateTimeout s fun t => t.on F.MT_STAT_MATEPRES = false ∧
    (s.owner = true → bitsOf (t.rd F.NC_ALMCOND_COND) 6 1 = 1) :) ∧
  (∀ (s : State) (f : MateFrame), mateGood f 4 = true → s.isStandby = true → s.mt.taking = none → Completes (.surrender f) s fun t =>
    t.mt.surrender = true ∧ (s.storeFree = true → t.mt.taking = some 1 ∧ t.rd F.MT_STAT_TKOUT = 1) ∧
    (s.storeFree = false → t.mt.taking = none ∧ t.rd F.MT_STAT_TKOUT = 2 ∧ t.on F.MT_STAT_LINEFAULT = true ∧
      t.rd F.MT_BLOCKED_COUNT = min (s.rd F.MT_BLOCKED_COUNT + 1) (2 ^ (F.MT_BLOCKED_COUNT).width - 1)) :) ∧
  (∀ (s : State) (f : MateFrame), mateGood f 4 = false → Completes (.surrender f) s fun t => t = s.bump F.MT_LINEERR_COUNT :) ∧
  (∀ (s : State) (f : MateFrame), mateGood f 8 = false → Completes (.beacon f) s fun t => t = s.bump F.MT_LINEERR_COUNT :)

/-- R409 to R415, R440: checkpoints and tally entries on their way to the store, and the windows in which the owner lends it. Where it rests
on the model's own readings: assumptions 55, 56, 70. -/
def Obligations.CheckpointsAndLending : Prop :=
  (∀ (s : State), s.isActive = true → s.store.fitted = true → s.mt.writing = none → s.mt.finalPart = none → s.mt.lent = false →
    s.mt.lending = false → Completes .checkpointIncremental s fun t => t.mt.writing = some (s.ckCapture false false) ∧ t.regs = s.regs :) ∧
  (∀ (s : State), s.isActive = true → s.store.fitted = true → (s.mt.writing.isSome = true ∨ s.mt.finalPart.isSome = true ∨ s.mt.lent = true ∨ s.mt.lending = true) →
    Completes .checkpointIncremental s fun t => t.mt.writing = s.mt.writing ∧ t.mt.due = true ∧ t.mt.dueFull = s.mt.dueFull :) ∧
  (∀ (s : State), s.isActive = true → s.store.fitted = true → s.mt.writing = none → s.mt.finalPart = none → s.mt.lent = false →
    s.mt.lending = false → Completes .checkpointFull s fun t => t.mt.writing = some (s.ckCapture true false) ∧ t.regs = s.regs :) ∧
  (∀ (s : State), s.isActive = true → s.store.fitted = true → (s.mt.writing.isSome = true ∨ s.mt.finalPart.isSome = true ∨ s.mt.lent = true ∨ s.mt.lending = true) →
    Completes .checkpointFull s fun t => t.mt.writing = s.mt.writing ∧ t.mt.due = true ∧ t.mt.dueFull = true :) ∧
  (∀ (s : State) (p : CkPart), s.mt.writing = some p → s.mt.forCmd = false → s.mt.yielding = false → s.mt.due = false →
    s.mt.lending = false → Completes (.checkpointWritten true) s fun t => t.mt.writing = none ∧ t.mt.lastSlot = some p.slot ∧
      t.store.parts = p :: s.store.parts.filter (fun q => !(q.slot == p.slot && q.half == p.half)) ∧
      t.rd F.MT_CKSEQ_CKSEQ = p.ckseq % 2 ^ (F.MT_CKSEQ_CKSEQ).width :) ∧
  (∀ (s : State) (p : CkPart), s.mt.writing = some p → s.mt.forCmd = false → s.mt.yielding = false → s.mt.due = false →
    s.mt.lending = false → Completes (.checkpointWritten false) s fun t => t.mt.writing = none ∧ t.mt.nextFull = true ∧
      t.store.parts = s.store.parts.filter (fun q => !(q.slot == p.slot && q.half == p.half)) ∧ t.on F.MT_CKSTAT_WRFAIL = true ∧
      t.rd F.MT_CKFAIL_COUNT = min (s.rd F.MT_CKFAIL_COUNT + 1) (2 ^ (F.MT_CKFAIL_COUNT).width - 1) :) ∧
  (∀ (s : State) (q : Nat) (qs : List Nat) (e : TEntry), s.owner = true → s.mg.toStore = q :: qs → s.mg.tally.find? (fun e => e.seq == q) = some e →
    Completes (.tallyStoreWrite true) s fun t => t.mg.toStore = qs ∧ t.store.tally = (e :: s.store.tally).take 65536 ∧
      bitsOf (t.rd F.NC_ALMCOND_COND) 11 1 = 0 :) ∧
  (∀ (s : State) (q : Nat) (qs : List Nat), s.owner = true → s.mg.toStore = q :: qs → Completes (.tallyStoreWrite false) s fun t => t.mg.toStore = qs ∧
    t.store = s.store ∧ t.rd F.TL_LOST_COUNT = min (s.rd F.TL_LOST_COUNT + 1) (2 ^ (F.TL_LOST_COUNT).width - 1) ∧
    bitsOf (t.rd F.NC_ALMCOND_COND) 11 1 = 1 :) ∧
  (∀ (s : State) (f : MateFrame), mateGood f 0 = true → s.owner = true → s.mt.lent = false →
    (s.mt.writing.isSome = true ∨ s.mt.finalPart.isSome = true) →
    Completes (.lend f) s fun t => t.mt.lending = true ∧
    t.mt.lent = false ∧ t.mt.writing = s.mt.writing ∧ t.out = s.out :) ∧
  (∀ (s : State) (f : MateFrame), mateGood f 0 = true → s.owner = true → s.mt.lent = false → s.mt.writing = none →
    s.mt.finalPart = none → Completes (.lend f) s fun t => t.mt.lent = true ∧
    ∃ n, 100 ≤ n ∧ n ≤ 2000 ∧ t.out = s.out ++ [.mate 5 (beBytes n 2)] :) ∧
  (∀ (s : State) (f : MateFrame), mateGood f 2 = true → s.owner = false → Completes (.lent f) s fun t => t.mt.window = true ∧ t.regs = s.regs :) ∧
  (∀ (s : State) (f : MateFrame), mateGood f 0 = true → s.owner = true → s.mt.lent = true → s.mt.lending = false →
    Completes (.back f) s fun t => t.mt.lent = false ∧
    (s.mt.due = false → t.mt.writing = s.mt.writing) ∧
    (s.mt.due = true → s.isActive = true → s.store.fitted = true → s.mt.writing = none → s.mt.finalPart = none → s.pow.final = false →
      t.mt.writing = some (s.ckCapture s.mt.dueFull false) ∧ t.mt.due = false) :) ∧
  (∀ (s : State), s.owner = true → s.mt.lent = true → s.mt.lending = false → Completes .lendWindowEnd s fun t => t.mt.lent = false :) ∧
  (∀ (s : State), s.owner = true → s.mt.lent = true → s.pow.final = true → s.store.fitted = true → s.mt.writing = none → s.mt.finalPart = none →
    Completes .lendWindowEnd s fun t => t.mt.lent = false ∧ t.mt.finalPart = some (s.ckCapture false true) ∧ t.mt.writing = none :) ∧
  (∀ (s : State), s.owner = false → Completes .lendWindowEnd s fun t => t.mt.window = false ∧ t.regs = s.regs :) ∧
  (∀ (s : State) (ok : Bool), s.owner = false → Completes (.tallyStoreWrite ok) s fun t => t = s :)

/-- R417, R421, R423: a takeover at its hand-over, and the proving and verifying runs of a standby. Where it rests on the model's own
readings: assumptions 52, 53, 54. -/
def Obligations.TakeoverAndRuns : Prop :=
  (∀ (s : State) (cause : Nat), s.mt.taking = some cause → s.on F.PW_OWN_TAKING = true → s.pow.offering = true →
    s.on F.FW_STAT_RECOVERY = false → Completes (.takeover none .timer) s fun t => t.rd F.MT_STAT_ROLE = 1 ∧ t.on F.PW_OWN_OWNER = true ∧
      t.on F.PW_OWN_TAKING = false ∧ t.rd F.PW_OWN_HANDOUT = 2 ∧ t.mt.taking = none ∧ t.mt.timedOut = false ∧ t.mt.surrender = false ∧
      t.rd F.MT_TAKEOVERS_COUNT = min (s.rd F.MT_TAKEOVERS_COUNT + 1) (2 ^ (F.MT_TAKEOVERS_COUNT).width - 1) :) ∧
  (∀ (s : State) (store : Option StoreSt), s.mt.taking = none → s.isStandby = false → Completes (.takeover store .wait) s fun t =>
    t = s.storeSeen store :) ∧
  (∀ (s : State) (store : Option StoreSt) (fail : BitVec 6), (s.storeSeen store).canRun = true → s.on F.MT_CFG_PROVE = true →
    Completes (.provingRun store (some fail)) s fun t => t.on F.MT_PRSTAT_VALID = true ∧ bitsOf (t.rd F.MT_PRSTAT_FAIL) 0 6 = fail.toNat ∧
      t.rd F.MT_PRSTAT_PRCOUNT = (s.rd F.MT_PRSTAT_PRCOUNT + 1) % 256 ∧ [.mate 4 [], .mate 6 []] <:+ t.out ∧
      t.mt.ready = (t.rd F.MT_PRSTAT_FAIL == 0) ∧ t.corePowered = false ∧ t.mt.run = 0 ∧ t.rd F.MT_STAT_ROLE = 2 :) ∧
  (∀ (s : State) (store : Option StoreSt) (fail : BitVec 6), (s.storeSeen store).canRun = true → s.on F.MT_CFG_PROVE = false →
    Completes (.verifyingRun store (some fail)) s fun t => t.on F.MT_PRSTAT_VALID = true ∧
      bitsOf (t.rd F.MT_PRSTAT_FAIL) 0 6 = bitsOf fail.toNat 5 1 * 32 ∧ [.mate 4 [], .mate 6 []] <:+ t.out ∧
      t.corePowered = false ∧ t.mt.run = 0 ∧ t.rd F.MT_STAT_ROLE = 2 :) ∧
  (∀ (s : State) (store : Option StoreSt), (s.storeSeen store).canRun = true → s.on F.MT_CFG_PROVE = true →
    Completes (.provingRun store none) s fun t => t.rd F.MT_STAT_ROLE = 3 ∧ t.mt.run = 1 ∧ t.coreRuns = true ∧
      t.rd F.MT_PRSTAT_PRCOUNT = s.rd F.MT_PRSTAT_PRCOUNT :) ∧
  (∀ (s : State) (store : Option StoreSt), (s.storeSeen store).canRun = true →
    Completes (.verifyingRun store none) s fun t => t.rd F.MT_STAT_ROLE = 3 ∧ t.mt.run = 2 ∧ t.coreRuns = true ∧
      t.rd F.MT_PRSTAT_PRCOUNT = s.rd F.MT_PRSTAT_PRCOUNT :) ∧
  (∀ (s : State) (store : Option StoreSt) (fail : BitVec 6), (s.storeSeen store).canRun = false → s.mt.run = 1 → s.mt.taking = none →
    Completes (.provingRun store (some fail)) s fun t => t.on F.MT_PRSTAT_VALID = true ∧ bitsOf (t.rd F.MT_PRSTAT_FAIL) 0 6 = fail.toNat ∧
      t.rd F.MT_PRSTAT_PRCOUNT = (s.rd F.MT_PRSTAT_PRCOUNT + 1) % 256 ∧ t.corePowered = false ∧ t.mt.run = 0 :) ∧
  (∀ (s : State) (store : Option StoreSt) (fail : Option (BitVec 6)), (s.storeSeen store).canRun = false → s.mt.run ≠ 1 →
    Completes (.provingRun store fail) s fun t => t = s.storeSeen store :)

/-- R432 to R438, R388, R431, R58: the checks, the entry and the result slot of every command, and what the short ones and the resets do.
Where it rests on the model's own readings: assumptions 57, 58. -/
def Obligations.MailboxCommands : Prop :=
  (∀ (s : State) (src : Src) (tag : BitVec 16) (x : Args), s.serves src 1 tag x 0 = true → s.on F.FW_STAT_RECOVERY = false → s.mt.run = 0 →
    Completes (.nop src tag x) s fun t => s.entered t 1 0 ∧ s.showsResult t src 1 0 tag ∧ t.mg.nextSeq = s.mg.nextSeq + 1 ∧
      t.out = s.out ++ [.answer src .ok []] :) ∧
  (∀ (s : State) (src : Src) (tag : BitVec 16) (x : Args), s.reaches src = true → s.sup.mcUp = true → s.hasRight src 2 = false →
    s.usb.bulk = [] → Completes (.nop src tag x) s fun t => t.out = s.out ++ [.answer src .refused []] ∧ s.showsResult t src 1 0x12 tag ∧
      t.rd F.NC_CMDREF_COUNT = min (s.rd F.NC_CMDREF_COUNT + 1) (2 ^ (F.NC_CMDREF_COUNT).width - 1) ∧
      t.rd F.WE_MGRREF_COUNT = min (s.rd F.WE_MGRREF_COUNT + 1) (2 ^ (F.WE_MGRREF_COUNT).width - 1) :) ∧
  (∀ (s : State) (src : Src) (tag : BitVec 16) (x : Args), s.serves src 2 tag x 0 = true → s.on F.FW_STAT_RECOVERY = false → s.mt.run = 0 →
    Completes (.mark src tag x) s fun t => s.entered t 2 0 ∧ s.showsResult t src 2 0 tag ∧
      ∀ e es, t.mg.tally = e :: es → e.detail = tag.toNat + x.a1.toNat % 65536 * 65536 :) ∧
  (∀ (s : State) (src : Src) (tag : BitVec 16) (x : Args), s.serves src 0x10 tag x 0 = true →
    x.a1.toNat = F.TM_SETS_SEC.key / 0x100000 → x.a2.toNat = F.TM_SETS_SEC.key % 0x100000 → Completes (.regwrite src tag x) s fun t =>
      t.rd F.TM_SETS_SEC = (s.rd F.TM_SETS_SEC &&& (0xFFFFFFFF ^^^ x.a4.toNat)) ||| (x.a3.toNat &&& x.a4.toNat) ∧
      s.showsResult t src 0x10 0 tag :) ∧
  (∀ (s : State) (src : Src) (tag : BitVec 16) (x : Args), s.starts src 0x11 tag x = true → s.mt.run = 0 → Completes (.warmreset src tag x) s fun t =>
    t.on F.PW_RSTCAUSE_WARM = true ∧ t.weave = none ∧ t.sup.mcUp = false ∧ t.clock = s.clock ∧ t.rd F.PW_SEQ_STEP = 11 ∧
    s.entered t 0x11 1 :) ∧
  (∀ (s : State) (src : Src) (tag : BitVec 16) (x : Args), s.starts src 0x12 tag x = true → Completes (.release src tag x) s fun t =>
    t.isAssigned = false ∧ t.mg.longRes = some 0 ∧ t.mg.longQ.length = 1 :) ∧
  (∀ (s : State) (src : Src) (tag : BitVec 16) (x : Args), s.starts src 0x30 tag x = true → s.store.fitted = true →
    Completes (.yield src tag x) s fun t => t.mt.yielding = true ∧ (t.mt.writing.isSome = true ∨ t.mt.due = true) ∧
      s.showsResult t src 0x30 1 tag :) ∧
  (∀ (s : State) (src : Src) (tag : BitVec 16) (x : Args), s.serves src 0x31 tag x 0 = true → Completes (.inletclr src tag x) s fun t =>
    t.out = s.out ++ [.answer src .ok [], .mate 10 []] ∧ s.showsResult t src 0x31 0 tag :) ∧
  (∀ (s : State) (src : Src) (tag : BitVec 16) (x : Args), s.starts src 0x32 tag x = true →
    Completes (.checkpoint src tag x) s fun t => t.mt.forCmd = true ∧ (t.mt.writing.isSome = true ∨ t.mt.due = true) ∧
      t.mg.longQ.length = 1 :) ∧
  (∀ (s : State) (src : Src) (tag : BitVec 16) (x : Args), s.hears src = true → s.hasRight src 1 = true →
    (cmdOf src 0x32 tag x).argsOk = true → s.mg.longQ.length < 8 → (s.isActive = false ∨ s.store.fitted = false) →
    s.on F.FW_STAT_RECOVERY = false → s.mt.run = 0 → Completes (.checkpoint src tag x) s fun t => s.entered t 0x32 0x15 ∧
      s.showsResult t src 0x32 0x15 tag ∧ t.mt = s.mt ∧ t.store = s.store :) ∧
  (∀ (s : State) (src : Src) (tag : BitVec 16) (x : Args), s.serves src 0x40 tag x 0 = true → Completes (.revokekey src tag x) s fun t =>
    (Tbl.get KeySlot.blank x.a1.toNat t.otp.keys).revoked = true ∧ bitsOf (t.rd F.WE_KEYSLOT_REVOKED) x.a1.toNat 1 = 1 ∧
    s.showsResult t src 0x40 0 tag :) ∧
  (∀ (s : State) (src : Src) (tag : BitVec 16) (x : Args), s.serves src 0x50 tag x 0 = true → Completes (.debugunlock src tag x) s fun t =>
    t.on F.NC_DEBUG_UNLOCKED = true ∧ t.mg.debugUntil = some (s.clock.tick + x.a1.toNat * 30000000000) :) ∧
  (∀ (s : State) (src : Src) (tag : BitVec 16) (x : Args), s.serves src 0x51 tag x 0 = true → Completes (.debuglock src tag x) s fun t =>
    t.on F.NC_DEBUG_UNLOCKED = false ∧ (s.on F.NC_DEBUG_UNLOCKED = true → t.mg.debugUntil = none) :) ∧
  (∀ (s : State), s.on F.NC_DEBUG_UNLOCKED = true → Completes .debugTimeout s fun t => t.on F.NC_DEBUG_UNLOCKED = false ∧
    t.mg.debugUntil = none :) ∧
  (∀ (s : State) (x : LongCmd) (r : Nat), s.mg.longQ = [x] → s.mg.longRes = some r → s.on F.FW_STAT_RECOVERY = false → s.mt.run = 0 →
    s.usb.bulk = [] → Completes .commandCompletion s fun t => t.mg.longQ = [] ∧ t.mg.longRes = none ∧ s.entered t x.cmd.code r :) ∧
  (∀ (s : State) (src : Src) (tag : BitVec 16) (x : Args), s.starts src 0x30 tag x = true → s.store.fitted = false →
    Completes (.yield src tag x) s fun t => t.mg.longRes = some 0x1D ∧ t.mt.yielding = s.mt.yielding :)

/-- R442, R447 to R450: TLFETCH, the tally's head, and frames that management sends. Where it rests on the model's own readings: assumptions
32, 59. -/
def Obligations.TallyReadsAndFrames : Prop :=
  (∀ (s : State) (src : Src) (tag : BitVec 16) (x : Args), s.starts src 0x60 tag x = true → s.on F.TL_STORE_PRESENT = true →
    max 1 (s.mg.nextSeq + 1 - 65536) ≤ x.a1.toNat + x.a2.toNat * 2 ^ 32 → x.a1.toNat + x.a2.toNat * 2 ^ 32 ≤ s.mg.nextSeq →
    Completes (.tlfetch src tag x) s fun t => t.mg.longRes = some 0 ∧ t.on F.TL_FETCH_BUSY = true ∧
      t.rd F.TL_FETCH_COUNT = min x.a3.toNat (s.mg.nextSeq + 1 - (x.a1.toNat + x.a2.toNat * 2 ^ 32)) ∧
      t.mg.fetchBuf.length = t.rd F.TL_FETCH_COUNT :) ∧
  (∀ (s : State) (src : Src) (tag : BitVec 16) (x : Args), s.starts src 0x60 tag x = true →
    s.mg.nextSeq < x.a1.toNat + x.a2.toNat * 2 ^ 32 → Completes (.tlfetch src tag x) s fun t => t.mg.longRes = some 0x18 ∧
      t.mg.fetchBuf = s.mg.fetchBuf :) ∧
  (∀ (s : State) (src : Src), s.takesField src F.TL_HEADL_SEQ = true → Completes (.tallyHeadRead src) s fun t =>
    t.mg.latchHead = s.tallyHead ∧ t.mg.latchTail = s.tallyTail ∧ t.regs = s.regs ∧
    t.out = s.out ++ [.answer src .ok (bytesOf [BitVec.ofNat 32 (s.tallyHead % 2 ^ 32)])] :) ∧
  (∀ (s : State) (src : Src) (tol : Word) (d : Nat), s.takesFields src [(F.NC_FTXD3_TOL, tol.toNat)] = true →
    d = (Tbl.get 0 0x600 s.mg.ftx).toNat → bitsOf d 25 1 = 0 → s.outFlushing (bitsOf d 16 4 + 3) = false →
    (s.outOf (bitsOf d 16 4 + 3)).spilled (bitsOf d 20 3) = false →
    37 + Tbl.get 0 (bitsOf d 16 4 + 3) s.slath.ded ≤ s.dedCells (bitsOf d 16 4 + 3) → Completes (.frameSubmit src tol) s fun t =>
      ∃ i, (t.outOf (bitsOf d 16 4 + 3)).items = (s.outOf (bitsOf d 16 4 + 3)).items ++ [i] ∧ i.src = 19 ∧ i.tc = bitsOf d 20 3 ∧
        i.lti = 0 ∧ i.tsreq = (bitsOf d 24 1 == 1) :) ∧
  (∀ (s : State) (src : Src) (tol : Word) (d : Nat), s.takesFields src [(F.NC_FTXD3_TOL, tol.toNat)] = true →
    d = (Tbl.get 0 0x600 s.mg.ftx).toNat → bitsOf d 25 1 = 1 → freeLti s.tm.launch (s.tm.launch.length + 1) 1 = none →
    Completes (.frameSubmit src tol) s fun t => t.on F.NC_FTXSTAT_DROPPED = true ∧ t.outs = s.outs :)

/-- R429, R453 to R464: the firmware session, verification and activation, the starts of MFW, and the core's own failures. Where it rests on
the model's own reading: assumption 60. -/
def Obligations.FirmwareAndCores : Prop :=
  (∀ (s : State) (src : Src) (tag : BitVec 16) (x : Args), s.starts src 0x20 tag x = true → Completes (.fwbegin src tag x) s fun t =>
    t.fw.holder = some src ∧ t.fw.stComp = x.a1.toNat ∧ t.fw.stTotal = x.a2.toNat ∧ t.fw.staging = [] ∧ t.fw.verified = false ∧
    t.rd F.FW_SESSION_SESSION = s.cmdSeq % 2 ^ 32 ∧ t.mg.longRes = some 0 :) ∧
  (∀ (s : State) (src : Src) (tag : BitVec 16) (x : Args) (off len : Nat), s.starts src 0x21 tag x = true → off = leAt s.blkBytes 0 4 →
    len = leAt s.blkBytes 4 2 → s.fw.holder = some src → leAt s.blkBytes 6 1 = s.fw.stComp → leAt s.blkBytes 12 4 = s.rd F.FW_SESSION_SESSION →
    off % 4096 = 0 → 1 ≤ len → len ≤ 4096 → off + len ≤ s.fw.stTotal → (len = 4096 ∨ off + len = s.fw.stTotal) →
    (crc32c (slice s.blkBytes 16 len)).toNat = leAt s.blkBytes 8 4 → Tbl.get [] (off / 4096) s.fw.staging = [] →
    Completes (.fwblock src tag x true) s fun t => Tbl.get [] (off / 4096) t.fw.staging = slice s.blkBytes 16 len ∧
      t.fw.verified = false ∧ t.mg.longRes = some 0 :) ∧
  (∀ (s : State) (src : Src) (tag : BitVec 16) (x : Args), s.starts src 0x22 tag x = true → s.fw.holder = none →
    Completes (.fwverify src tag x) s fun t => t.mg.longRes = some 0x15 ∧ t.rd F.FW_ERR_CODE = 7 ∧ t.fw.verified = s.fw.verified :) ∧
  (∀ (s : State) (src : Src) (tag : BitVec 16) (x : Args), s.starts src 0x22 tag x = true → s.fw.holder.isSome = true →
    s.stagedWhole = true → leAt s.stagedImage (if s.fw.stComp = 5 then 0x28 else 0x10) 4 = s.fw.stTotal →
    s.imageError s.fw.stComp s.stagedImage = none → Completes (.fwverify src tag x) s fun t =>
      t.fw.verified = true ∧ t.rd F.FW_STAT_STATE = 2 ∧ t.mg.longRes = some 0 :) ∧
  (∀ (s : State) (src : Src) (tag : BitVec 16) (x : Args), s.starts src 0x22 tag x = true → s.fw.holder.isSome = true →
    s.stagedWhole = false → Completes (.fwverify src tag x) s fun t => t.fw.verified = s.fw.verified ∧ t.rd F.FW_ERR_CODE = 9 ∧
      t.mg.longRes = some 0x15 :) ∧
  (∀ (s : State) (src : Src) (tag : BitVec 16) (x : Args) (e : Nat), s.starts src 0x22 tag x = true → s.fw.holder.isSome = true →
    s.stagedWhole = true → leAt s.stagedImage (if s.fw.stComp = 5 then 0x28 else 0x10) 4 = s.fw.stTotal →
    s.imageError s.fw.stComp s.stagedImage = some e → Completes (.fwverify src tag x) s fun t =>
      t.fw.verified = s.fw.verified ∧ t.rd F.FW_ERR_CODE = e ∧ t.mg.longRes = some 0x11 :) ∧
  (∀ (s : State) (src : Src) (tag : BitVec 16) (x : Args) (ok : Bool), s.starts src 0x21 tag x = true →
    Completes (.fwblock src tag x ok) s fun t => t.fw.verified = false :) ∧
  (∀ (s : State) (src : Src) (tag : BitVec 16) (x : Args) (ok : Bool), s.starts src 0x23 tag x = true → x.a2.toNat = 0 →
    (s.fw.verified = false ∨ s.fw.stComp ≠ x.a1.toNat) → Completes (.activate src tag x ok) s fun t => t.mg.longRes = some 0x15 ∧
      t.rd F.FW_ERR_CODE = 10 ∧ t.fw.slots = s.fw.slots ∧ t.fw.curMfw = s.fw.curMfw :) ∧
  (∀ (s : State) (src : Src) (tag : BitVec 16) (x : Args), s.starts src 0x23 tag x = true → x.a1.toNat = 1 → x.a2.toNat = 0 →
    s.fw.verified = true → s.fw.stComp = 1 → s.compat 1 s.stagedImage = none → Completes (.activate src tag x true) s fun t =>
      t.mg.longRes = some 0 ∧ t.fw.curMfw = 1 - s.fw.curMfw ∧ t.fw.trial = true ∧ t.on F.FW_STAT_TRIAL = true ∧
      Tbl.get [] (1 - s.fw.curMfw) t.fw.slots = s.stagedImage :) ∧
  (∀ (s : State) (src : Src) (tag : BitVec 16) (x : Args), s.serves src 0x24 tag x 0 = true → Completes (.fwabort src tag x) s fun t =>
    t.fw.holder = none ∧ t.fw.verified = false ∧ t.rd F.FW_STAT_STATE = 0 :) ∧
  (∀ (s : State), s.coreRuns = true → s.sup.mcUp = false → s.sup.held = 0 → s.sup.locking = false →
    s.fw.trial = false → s.imageError 1 (Tbl.get [] s.fw.curMfw s.fw.slots) = none → Completes .mfwBoot s fun t => t.sup.mcUp = true ∧
      Tbl.get [] 1 t.fw.running = Tbl.get [] s.fw.curMfw s.fw.slots ∧ t.fw.curMfw = s.fw.curMfw ∧
      t.on F.FW_STAT_RECOVERY = s.on F.FW_STAT_RECOVERY :) ∧
  (∀ (s : State), s.coreRuns = true → s.sup.mcUp = false → s.sup.held = 0 → s.sup.locking = false →
    s.fw.trial = false → (s.imageError 1 (Tbl.get [] s.fw.curMfw s.fw.slots)).isSome = true →
    (s.imageError 1 (Tbl.get [] (1 - s.fw.curMfw) s.fw.slots)).isSome = true → Completes .mfwBoot s fun t => t.sup.mcUp = true ∧
      t.on F.FW_STAT_RECOVERY = true ∧ t.mg = s.mg :) ∧
  (∀ (s : State), s.fw.trial = true → s.sup.mcUp = true → Completes .trialEnd s fun t => t.fw.trial = false ∧ t.on F.FW_STAT_TRIAL = false ∧
    t.fw.curMfw = s.fw.curMfw :) ∧
  (∀ (s : State) (p : Fin 3), s.fw.sdm = [p.val] → s.isUp p.val = true → Completes .sdmNextLink s fun t => t.fw.sdm = [] ∧
    t.mg.longRes = some 0 :) ∧
  (∀ (s : State), s.fw.sdm.contains 3 = true → Completes .udsReconnect s fun t => t.fw.sdm = [] ∧ t.mg.longRes = some 0 :) ∧
  (∀ (s : State) (c : Fin 5) (r : List Byte), s.isActive = true → s.owner = true → s.store.fitted = true → s.runningOf (c.val + 1) = some r →
    Completes (.shelfWrite c true) s fun t => Tbl.get [] (c.val + 1) t.store.shelf = r :) ∧
  (∀ (s : State), s.sup.mcUp = true → s.mt.run = 0 → Completes .mc1Watchdog s fun t => t.usb.fields = [] ∧ s.entered t 0x8008 0 ∧
    ∀ n : Fin 4, t.rd (F.US_FPn_STAT_STATE n.val) = 0 :) ∧
  (∀ (s : State), s.sup.mcUp = true → s.mt.run = 0 → Completes (.sramParity true) s fun t => t.usb.fields = [] ∧ s.entered t 0x8008 0 :) ∧
  (∀ (s : State), s.sup.mcUp = true → s.on F.MT_STAT_MATEPRES = true → Completes (.sramParity false) s fun t => t.sup.mcUp = false ∧
    t.owner = false :) ∧
  (∀ (s : State) (src : Src) (tag : BitVec 16) (x : Args), s.starts src 0x22 tag x = true → s.fw.holder.isSome = true →
    s.stagedWhole = true → leAt s.stagedImage (if s.fw.stComp = 5 then 0x28 else 0x10) 4 ≠ s.fw.stTotal →
    Completes (.fwverify src tag x) s fun t => t.fw.verified = s.fw.verified ∧ t.rd F.FW_ERR_CODE = 1 ∧ t.mg.longRes = some 0x11 :) ∧
  (∀ (s : State) (src : Src) (tag : BitVec 16) (x : Args), s.starts src 0x23 tag x = true → x.a1.toNat = 1 → x.a2.toNat = 0 →
    s.fw.verified = true → s.fw.stComp = 1 → s.compat 1 s.stagedImage = none → Completes (.activate src tag x false) s fun t =>
      t.mg.longRes = some 0x15 ∧ t.rd F.FW_ERR_CODE = 8 ∧ t.fw.curMfw = s.fw.curMfw ∧ t.fw.running = s.fw.running ∧
      t.fw.trial = s.fw.trial :) ∧
  (∀ (s : State) (src : Src) (tag : BitVec 16) (x : Args) (e : Nat × Nat × Nat) (ok : Bool), s.starts src 0x23 tag x = true → x.a2.toNat = 0 →
    s.fw.verified = true → s.fw.stComp = x.a1.toNat → s.compat x.a1.toNat s.stagedImage = some e → Completes (.activate src tag x ok) s fun t =>
      t.mg.longRes = some 0x15 ∧ t.rd F.FW_ERR_CODE = 5 ∧ t.rd F.FW_ERR_COMP = x.a1.toNat ∧ t.rd F.FW_ERR_OTHER = e.1 ∧
      t.rd F.FW_ERR_SIDE = e.2.1 ∧ t.rd F.FW_ERRVAL_VERSION = e.2.2 ∧ t.fw.slots = s.fw.slots :)

/-- R8, R41, R42: a write that is taken, a write that is refused, a read that clears. Where it rests on the model's own reading: assumption
17. -/
def Obligations.RegisterAccesses : Prop :=
  (∀ (s : State) (src : Src) (cls off : Nat) (v : Word), s.takesWrite src cls off v.toNat = true → Completes (.registerWrite src cls off v) s
    fun t => .answer src .ok [] ∈ t.out :) ∧
  (∀ (s : State) (src : Src) (v : Word), s.takesFields src [(F.TM_SETS_SEC, v.toNat)] = true →
    Completes (.registerWrite src (F.TM_SETS_SEC.key / 0x100000) (F.TM_SETS_SEC.key % 0x100000) v) s fun t =>
      t.rd F.TM_SETS_SEC = v.toNat ∧ t.out = s.out ++ [.answer src .ok []] ∧ ∀ k, k ≠ F.TM_SETS_SEC.key → t.reg k = s.reg k :) ∧
  (∀ (s : State) (src : Src) (v : Word), s.takesWrite src (F.PW_RSTCAUSE_PIN.key / 0x100000) (F.PW_RSTCAUSE_PIN.key % 0x100000) v.toNat = true →
    Completes (.registerWrite src (F.PW_RSTCAUSE_PIN.key / 0x100000) (F.PW_RSTCAUSE_PIN.key % 0x100000) v) s fun t =>
      (t.reg F.PW_RSTCAUSE_PIN.key).toNat = (s.reg F.PW_RSTCAUSE_PIN.key).toNat &&& (0xFFFFFFFF ^^^ (v.toNat &&& 0xFF)) :) ∧
  (∀ (s : State) (src : Src) (cls off : Nat) (v : Word) (f : Fam) (is : List Nat), s.reaches src = true → cls ≤ 0x0D → off % 4 = 0 →
    s.hiddenNow src cls off = false → (cls = 5 → rxAt off = none) → regAt cls off = some (f, is) → (src.isRing && ringHidden f.id) = false →
    s.mayWrite src f.id = true → (f.id = .RGp_I2C → s.on (F.RGp_I2C_BUSY (ix is 0)) = false) → (s.beforeWrite f.id is).untouchedBy (keyOf cls off) f is v.toNat = false →
    Completes (.registerWrite src cls off v) s fun t => ∃ st, (st = .locked ∨ st = .claimed) ∧ t.out = s.out ++ [.answer src st []] ∧
      (∀ k, k ∉ refusalKeys → (cls = 4 → k ≠ (F.WVn_STAT_PROGREF (off / 0x400)).key) → t.reg k = s.reg k) ∧ (∀ p : Part, p ≠ .out → p.same s t) ∧
      t.rd F.WE_LOCKREF_COUNT =
        (if st = .locked then min (s.rd F.WE_LOCKREF_COUNT + 1) (2 ^ (F.WE_LOCKREF_COUNT).width - 1) else s.rd F.WE_LOCKREF_COUNT) ∧
      t.rd F.WE_CLAIMREF_COUNT =
        (if st = .claimed then min (s.rd F.WE_CLAIMREF_COUNT + 1) (2 ^ (F.WE_CLAIMREF_COUNT).width - 1) else s.rd F.WE_CLAIMREF_COUNT) ∧
      t.on F.WE_REFADR_VALID = true :) ∧
  (∀ (s : State) (src : Src) (cls off : Nat) (f : Fam) (is : List Nat), s.takesRead src cls off = true → regAt cls off = some (f, is) →
    Completes (.readClearRegister src cls off) s fun t =>
      (t.reg (keyOf cls off)).toNat &&& maskOf (fun x => x.acc == .rc) f.fields = 0 ∧
      ∃ w : Word, t.out = s.out ++ [.answer src .ok (bytesOf [w])] :) ∧
  (∀ (s : State) (src : Src), s.takesField src F.EQ_PUSHREF_COUNT = true →
    Completes (.readClearRegister src (F.EQ_PUSHREF_COUNT.key / 0x100000) (F.EQ_PUSHREF_COUNT.key % 0x100000)) s fun t =>
      t.rd F.EQ_PUSHREF_COUNT = 0 ∧ t.out = s.out ++ [.answer src .ok (bytesOf [s.reg F.EQ_PUSHREF_COUNT.key])] :)

/-- R63 to R72: the boot load, and the end of a live load at its quiet point or by its timeout. Where it rests on the model's own reading:
assumption 11. -/
def Obligations.WeaveLoads : Prop :=
  (∀ (s : State) (eb : Bool) (i : Image), s.bootDue = true → s.fw.curWeave = 0 → s.errClear.loadSlot 0 false = .inr i →
    Completes (.bootLoad false eb) s fun t => t.weave = some i.weave ∧ t.rd F.WE_STATUS_CODE = 1 ∧ t.on F.WE_STATUS_BARE = false ∧
      t.rd F.WE_STATUS_SLOT = 0 :) ∧
  (∀ (s : State), s.bootDue = true → Completes (.bootLoad true true) s fun t => t.rd F.WE_STATUS_CODE = 12 ∧ t.on F.WE_STATUS_BARE = true ∧
    t.weave = s.weave :) ∧
  (∀ (s : State) (l : LiveLoad) (i : Image), s.we.live = some l → s.rd F.WE_STATUS_STAGE = 3 → parseImage l.image = .inr i → s.quiet i = true →
    Completes .quietPointReached s fun t =>
    t.weave = some i.weave ∧ t.rd F.WE_QSTAT_OUTCOME = 1 ∧ t.rd F.WE_STATUS_CODE = 1 ∧ t.we.live = none ∧ t.mg.longRes = some 0 :) ∧
  (∀ (s : State), s.we.live = none → s.we.quietLost = true → Completes .quietPointReached s fun t => t.weave = s.weave ∧
    t.we.quietLost = false ∧ t.rd F.WE_LATE_COUNT = min (s.rd F.WE_LATE_COUNT + 1) (2 ^ (F.WE_LATE_COUNT).width - 1) :) ∧
  (∀ (s : State) (l : LiveLoad), s.we.live = some l → s.rd F.WE_STATUS_STAGE = 3 → Completes .quietTimeout s fun t => t.weave = s.weave ∧ t.we.live = none ∧
    t.rd F.WE_QSTAT_OUTCOME = 2 ∧ t.rd F.WE_STATUS_CODE = 10 ∧ t.mg.longRes = some 0x10A ∧ t.we.quietLost = true :) ∧
  (∀ (s : State) (l : LiveLoad) (i : Image), s.we.live = some l → s.rd F.WE_STATUS_STAGE = 3 → parseImage l.image = .inr i →
    s.quiet i = false → Completes .quietPointReached s fun t => t.weave = s.weave ∧ t.we = s.we ∧ t.mg = s.mg :)

/-- R403, R477, R478, R490, R491: the instructions of the test access port, and which balls a hub drives while TEST_N or ROLE is low; a
debug instruction that is served is the one command the model refuses. Where it rests on the model's own readings: assumptions 7, 61. -/
def Obligations.TestAccessPort : Prop :=
  (∀ (s : State), Completes (.jtagInstruction .bypass) s fun t => t.jtag = .bypass ∧ t.out = s.out ++ [.jtag 0 1] ∧ t.regs = s.regs :) ∧
  (∀ (s : State), Completes (.jtagInstruction .idcode) s fun t => t.jtag = .idcode ∧ t.out = s.out ++ [.jtag 0x212889AF 32] ∧ t.regs = s.regs :) ∧
  (∀ (s : State), Completes (.jtagInstruction .samplePreload) s fun t => t = { s with jtag := .samplePreload } :) ∧
  (∀ (s : State), Completes (.jtagInstruction .extest) s fun t => t = { s with jtag := .extest } :) ∧
  (∀ (s : State) (n : Nat), s.jtagDebug = false → Completes (.jtagInstruction (.debug n)) s fun t => t.jtag = .bypass ∧
    t.out = s.out ++ [.jtag 0 1] :) ∧
  (∀ (s : State) (n : Nat), s.jtagDebug = true → exec (.jtagInstruction (.debug n)) s = .refused .jtagDebug :) ∧
  (∀ (s : State) (p : Nat), s.sup.aon = true → s.testLow = false → s.roleHigh = false → s.pinTxdis p = some true ∧ s.pinPwren p = some false ∧
    s.pinIrqN = none ∧ s.pinLxbGntN = none ∧ s.pinHwmN = none ∧ s.pinNeN = none ∧ s.pinPps p = none ∧ s.pinField p = none :) ∧
  (∀ (s : State) (b : Nat), s.testLow = true → s.pinRole = none ∧ s.pinReqO = none ∧ s.pinGntO = none ∧ s.pinInletPg = none ∧
    s.pinPfwN = none ∧ s.pinGate b = none ∧ s.pinRailEn b = none ∧ s.pinTxdis b = none ∧ s.pinPwren b = none :) ∧
  (∀ (s : State) (b : Bool), Completes (.testN b) s fun t => t.testLow = b ∧ (b = true → t.roleHigh = false) :)

/-- What the events of the links, of membership and of the uplink leave as it was: every part of State and every register but those named.
-/
def Obligations.LinkAndMembershipFrames : Prop :=
  (∀ p : PortU, Leaves [.eq] (among (eventKeys ++ fieldKeys [F.RGp_LSTAT_STATE p.val])) (.clockLock p) ∧
    Leaves [.eq] (among (eventKeys ++ fieldKeys [F.RGp_LSTAT_STATE p.val])) (.acqTimeout p) ∧
    Leaves [.eq, .links] (among (eventKeys ++ fieldKeys [F.RGp_LSTAT_STATE p.val])) (.blockLock p) ∧
    Leaves [.eq] (among (eventKeys ++ fieldKeys [F.RGp_LSTAT_STATE p.val])) (.lockTimeout p) ∧
    Leaves [.eq] (among (eventKeys ++ fieldKeys [F.RGp_LSTAT_STATE p.val])) (.holdoffEnd p) ∧
    Leaves [.out] (among []) (.helloSend p) ∧ Leaves [.out] (among []) (.pulseSend p) ∧
    Leaves [.inbox, .links] (among (fieldKeys [F.RGp_LATE_COUNT p.val, F.RGp_LSTAT_STATE p.val])) (.pulse p) :) ∧
  (∀ (p : PortR) (d : Option (List Byte)), Leaves [] (among (fieldKeys [F.RGp_OPT0_TEMP p.val, F.RGp_OPT1_RXPWR p.val, F.RGp_OPT2_VALID p.val]))
    (.opticsPoll p d) :) ∧
  (∀ (p : PortR) (a : Bool) (d : Byte), Leaves [] (among (fieldKeys [F.RGp_I2C_BUSY p.val, F.RGp_I2CDAT_RDATA p.val])) (.i2cTransferDone p a d) :) ∧
  (∀ p : PortR, Leaves [] (among (fieldKeys [F.RGp_I2C_BUSY p.val])) (.i2cStretchTimeout p) ∧
    Leaves [.eq, .links] (among (eventKeys ++ fieldKeys [F.RG_WRAP_WRAPE])) (.unwrapHoldEnd p) :) ∧
  Leaves [.clock, .links] (among []) .roundStart ∧
  Leaves [.eq, .mem] (among (eventKeys ++ fieldKeys [F.RG_ENUM_RESULT])) .enumTimeout ∧
  Leaves [.mem] (among (fieldKeys [F.RG_POS_POSOUT])) .postableWindowTimeout ∧
  (∀ c : Cell, Leaves [.eq, .inbox] (among (eventKeys ++ fieldKeys [F.RG_DUPNODE_COUNT, F.RG_SELF_DUP])) (.dupcheck c) ∧
    Leaves [.clock, .eq, .freeCtr, .inbox, .mem, .out, .outs, .slath, .tm] trafficKey (.enumerateReturn c) ∧
    Leaves [.freeCtr, .inbox, .out, .outs, .slath, .tm] trafficKey (.uplinkCell c) ∧
    Leaves [.inbox, .out] (among []) (.eventCell c) :)

/-- What the events of time and of the switch's ports and gates leave as it was. -/
def Obligations.TimeAndSwitchFrames : Prop :=
  (∀ (c : Fin 4) (f : Bool) (h : Byte), Leaves [.tm] (among (fieldKeys [F.TM_CAPLOST_COUNT])) (.captureEdge c f h) :) ∧
  (∀ i : Fin 2, Leaves [.clock, .tm] (among []) (.ppsPulse i) ∧ Leaves [.clock, .tm] (among []) (.ppsWidthEnd i) :) ∧
  (∀ k : Fin 32, Leaves [.clock, .eq, .tm]
    (among (eventKeys ++ fieldKeys [F.TM_CMPk_CFG_ARM k.val, F.TM_CMPk_S_SEC k.val, F.TM_CMPk_NS_NS k.val])) (.compareFire k) :) ∧
  (∀ p : PortR, Leaves [.out, .tm] (among (fieldKeys [F.TM_PDSTAT_PDOUT0])) (.pdreqSend p) :) ∧
  (∀ (p : PortR) (c : Cell) (a b : BitVec 64), Leaves [.inbox, .out] (among []) (.pdreq p c a b) ∧
    Leaves [.inbox, .out, .tm] (among (fieldKeys [F.TM_PDSTAT_PDOUT0, F.TM_LATE_COUNT, F.TM_PDBAD_COUNT, F.TM_PDLYp_DELAY p.val])) (.pdresp p c a) :) ∧
  Leaves [.eq, .tm] (among (eventKeys ++ fieldKeys [F.TM_DSTAT_STATE])) .syncTimeout ∧
  Leaves [.eq] (among (eventKeys ++ fieldKeys [F.TM_DSTAT_STATE])) .announceTimeout ∧
  (∀ (n : Fin 16) (l : BitVec 12), Leaves [.clock] (among []) (.launchTime n l) :) ∧
  (∀ (n : Fin 19) (q : Fin 8), Leaves [.clock] (among []) (.shaperRelease n q) :) ∧
  (∀ (e : Fin 16) (x : BitVec 16), Leaves [.outs] (among (fieldKeys [F.SW_PAUSERXn_COUNT (e.val + 3), F.SW_PSTATn_PAUSED (e.val + 3)])) (.pause e x) :) ∧
  (∀ (e : Fin 16) (m : Byte) (x : List (BitVec 16)),
    Leaves [.outs] (among (fieldKeys [F.SW_PAUSERXn_COUNT (e.val + 3), F.SW_PSTATn_PAUSED (e.val + 3)])) (.priorityPause e m x) :) ∧
  (∀ (e : Fin 16) (q : Option (Fin 8)), Leaves [.outs] (among (fieldKeys [F.SW_PSTATn_PAUSED (e.val + 3)])) (.pauseExpiry e q) :) ∧
  (∀ (n : Fin 17) (v : BitVec 2) (d : Bool), Leaves [.outs] (among (fieldKeys [F.SW_LATEn_COUNT (n.val + 2), F.SW_PSTATn_LINK (n.val + 2)])) (.edgeLinkUp n v d) :) ∧
  (∀ n : Fin 17, Leaves [.clock] (among (fieldKeys [F.SW_GSTATn_STATE (n.val + 2)])) (.gateEntry n) ∧
    Leaves [.clock, .outs]
      (among (fieldKeys ([F.SW_GSTATn_STATE (n.val + 2), F.SW_GCTLn_ARM (n.val + 2), F.SW_GCYCn_CYCLE (n.val + 2)] ++
        (List.range 8).map fun q => F.SW_GWMAXn_q_WMAX (n.val + 2) q))) (.gateSwap n) :) ∧
  (∀ ok : Bool, Leaves [.eq] (among (eventKeys ++ fieldKeys [F.SW_OVCFG_TRAINED])) (.overflowTraining ok) :) ∧
  Leaves [] (among []) .ddrRefresh ∧ Leaves [.slath] (among []) .flowForceTimer ∧
  Leaves [.clock, .eq, .slath] (among (eventKeys ++ fieldKeys [F.SW_HASHCTL_SEL, F.SW_HASHRUN_RUN])) .hashWindow ∧
  (∀ (v : BitVec 12) (m : BitVec 48), Leaves [.slath] (among (fieldKeys [F.SW_FDBOCC_ENTRIES])) (.fdbAge v m) :) ∧
  (∀ (e : Fin 16) (f : Frame), Leaves [.outs, .slath] (among (fieldKeys [F.SW_FILTn_COUNT (e.val + 3)])) (.edgeFrame e f) :)

/-- What the weavers' instructions and passes and the CAN controllers' events leave as it was: an instruction of weaver n writes registers
of weaver n, its scheduled-action register, the flags of its basket (SET may raise lines of any basket) and the event queue's. -/
def Obligations.WeaverAndCanFrames : Prop :=
  (∀ (n : Fin 128) (ok : Bool),
    let own (c : Instr) : Prop := Leaves [.clock, .eq, .wv] (fun k => ofWeaver n.val k || among (eventKeys ++ fieldKeys [F.TM_SAn_ACTID n.val]) k) c
    let flags (c : Instr) : Prop := Leaves [.clock, .eq, .wv]
      (fun k => ofWeaver n.val k || among (eventKeys ++ fieldKeys [F.TM_SAn_ACTID n.val, F.BKm_FLAGS_FLAGS (n.val / 8)]) k) c
    own (.halt n ok) ∧ own (.sho n ok) ∧ (∀ x : List Byte, own (.shi n ok x)) ∧ (∀ x : Byte, own (.wpin n ok x)) ∧ flags (.wflg n ok) ∧
    flags (.wirq n ok) ∧ own (.wtim n ok) ∧ own (.drv n ok) ∧ own (.take n ok) ∧ own (.give n ok) ∧ own (.stamp n ok) ∧
    (∀ x : List Edge, own (.cnt n ok x)) ∧ own (.loop n ok) ∧ (∀ x : Byte, own (.br n ok x)) ∧ flags (.syncInstruction n ok) ∧
    Leaves [.clock, .eq, .wv]
      (fun k => ofWeaver n.val k || among (eventKeys ++ fieldKeys (F.TM_SAn_ACTID n.val :: (List.range 16).map F.BKm_FLAGS_FLAGS)) k) (.set n ok) :) ∧
  (∀ n : Fin 128, Leaves [.wv] (among []) (.wpinPass n) ∧ Leaves [.clock, .wv] (ofWeaver n.val) (.wtimPass n) ∧
    Leaves [.clock, .wv] (ofWeaver n.val) (.stallEnd n) ∧ (∀ x : List Edge, Leaves [.clock, .wv] (ofWeaver n.val) (.cntPass n x)) ∧
    Leaves [.wv] (among []) (.backlogMove n) ∧ Leaves [.eq, .wv] (among eventKeys) (.weaverAggregatorDrain n) ∧
    Leaves [.clock, .eq, .wv] (fun k => ofWeaver n.val k || among (eventKeys ++ fieldKeys [F.TM_SAn_ACTID n.val]) k) (.actFire n) :) ∧
  (∀ m : Fin 16, Leaves [.wv] (among (fieldKeys [F.BKm_FLAGS_FLAGS m.val])) (.wflgPass m) ∧
    Leaves [.wv] (among (fieldKeys [F.BKm_FLAGS_FLAGS m.val])) (.wirqPass m) ∧
    Leaves [.wv] (among (fieldKeys [F.BKm_FLAGS_FLAGS m.val])) (.syncInstructionPass m) :) ∧
  (∀ v : BitVec 4, Leaves [.eq, .wv] (among (eventKeys ++ fieldKeys [F.BK_VIO_PRESENT])) (.vioChange v) :) ∧
  Leaves [.wv] (fun k => (List.range 128).any fun n => ofWeaver n k) .autostart ∧
  Leaves [.clock, .wv] (fun k => among (fieldKeys [F.BK_GCTL_ARM]) k || (List.range 128).any fun n => ofWeaver n k) .globalStartTime ∧
  (∀ k : Fin 8,
    let touch : Nat → Bool := fun x => ofCan k.val x || among (eventKeys ++ fieldKeys [F.EQ_MERGED_COUNT]) x
    Leaves [.can] (among (fieldKeys [F.CFk_MODE_INIT k.val])) (.canIntegrationDone k) ∧ Leaves [.can, .eq, .out] touch (.canCommit k) ∧
    (∀ b : Fin 3, Leaves [.clock] (among []) (.canLaunchTime k b) ∧ Leaves [.can, .clock, .eq] touch (.canLaunchDeadline k b)) ∧
    (∀ f : CanFrame, Leaves [.can, .eq, .freeCtr] touch (.canFrameReceived k f)) ∧
    (∀ (e : CanErr) (a b : Bool), Leaves [.can, .eq] touch (.canError k e a b)) ∧ Leaves [.can, .eq] touch (.canRecoveryDone k) :)

/-- What the events of the service port, of the field ports and of the bridge leave as it was. -/
def Obligations.UsbAndBridgeFrames : Prop :=
  LeavesIdle [.out, .usb] (among []) .usbNotice ∧ Leaves [] (among (fieldKeys [F.US_SSTAT_STATE])) .usbVbusValid ∧
  (∀ f : BitVec 11, Leaves [] (among (fieldKeys [F.US_SOF_FRAME, F.US_SOFTICK_TICK])) (.usbSof f) :) ∧
  Leaves [.usb] (among (fieldKeys [F.US_SSTAT_STATE, F.US_SUSPENDS_COUNT])) .usbSuspend ∧
  Leaves [.usb] (among (fieldKeys [F.US_SSTAT_STATE, F.US_WAKE_PEND])) .usbHostResume ∧
  Leaves [] (among (fieldKeys [F.US_WAKE_PEND])) .usbWakeSource ∧
  Leaves [.out, .usb] (among (fieldKeys [F.US_SSTAT_STATE, F.US_WAKE_PEND, F.US_WAKES_COUNT])) .usbRemoteWake ∧
  (∀ n : Fin 4, (∀ b : Bool, Leaves [.usb] (among (fieldKeys [F.US_FPn_STAT_STATE n.val])) (.fieldPower n b)) ∧
    (∀ d : FieldDevice, Leaves [.eq, .out] (among (eventKeys ++ fieldKeys [F.US_FPn_STAT_STATE n.val, F.US_FPn_ID_VID n.val])) (.fieldConnect n d)) ∧
    Leaves [.eq, .usb] (among (eventKeys ++ fieldKeys [F.US_FPn_STAT_STATE n.val, F.US_FPn_ID_VID n.val, F.US_FPn_CTL_POWER n.val,
      F.US_FPn_OC_COUNT n.val, F.US_FPn_TXCTL_BUSY n.val, F.US_FPn_XERR_COUNT n.val])) (.fieldOvercurrent n) ∧
    Leaves [.usb] (among (fieldKeys [F.US_FPn_STAT_STATE n.val])) (.fieldPowerRetry n) ∧
    Leaves [] (among (fieldKeys [F.US_FPn_STAT_STATE n.val, F.US_FPn_ID_VID n.val, F.US_FPn_TXCTL_BUSY n.val, F.US_FPn_XERR_COUNT n.val]))
      (.fieldDisconnect n) ∧
    (∀ (x : List Byte) (b : Bool), Leaves [.eq, .usb] (among (eventKeys ++ fieldKeys [F.US_FPn_CODES_COUNT n.val, F.US_FPn_TRUNC_COUNT n.val]))
      (.fieldData n x b)) ∧
    Leaves [.eq, .usb] (among (eventKeys ++ fieldKeys [F.US_FPn_CODES_COUNT n.val, F.US_FPn_TRUNC_COUNT n.val])) (.codeGapTimeout n) ∧
    (∀ ok : Bool, Leaves [] (among (fieldKeys [F.US_FPn_TXCTL_BUSY n.val, F.US_FPn_XERR_COUNT n.val])) (.fieldTxDone n ok)) ∧
    (∀ (st : Byte) (d : List Byte), Leaves [.bridge] (among (fieldKeys [F.BX_DRd_STAT_STATE n.val, F.BX_LATE_COUNT])) (.delayedReadResult n st d)) ∧
    Leaves [.bridge] (among (fieldKeys [F.BX_DRd_STAT_STATE n.val, F.BX_DRDISC_COUNT, F.BX_ISTAT_DRDISC])) (.delayedReadDiscard n) :) ∧
  Leaves [] (among (fieldKeys [F.BX_LATE_COUNT])) .lxbLateReady

/-- What the events of the inlet, of the branches and of their hand-over leave as it was. -/
def Obligations.PowerPathFrames : Prop :=
  (let inlet : Nat → Bool := among (eventKeys ++ fieldKeys [F.PW_INSTAT_STATE])
   let fault : Nat → Bool := among (eventKeys ++ fieldKeys [F.PW_INSTAT_STATE, F.PW_INFAULTS_COUNT])
   (∀ b : Bool, Leaves [.eq, .pow] inlet (.seatAssert b)) ∧ Leaves [.eq, .pow] inlet .seatQualified ∧
   (∀ a b : Bool, Leaves [.eq, .pow] inlet (.seatRelease a b)) ∧ Leaves [.eq, .pow] inlet .inletOv ∧ Leaves [.eq, .pow] inlet .inletUv ∧
   Leaves [.eq, .pow] inlet .rampDone ∧ Leaves [.eq, .pow] fault .rampTimeout ∧ Leaves [.eq, .pow] fault .faultTimerExpiry ∧
   Leaves [.eq, .pow] fault .fastTrip ∧ Leaves [.pow] (among []) .faultTimerIdle ∧ Leaves [.eq, .pow, .sup] inlet .qualTimer ∧
   Leaves [.eq, .pow] inlet .holdupEntry ∧ Leaves [.eq, .pow] inlet .holdupExit ∧ Leaves [.eq, .pow] inlet .inletRetry ∧
   Leaves [] (among (fieldKeys [F.PW_INSTAT_STATE])) .inletRetryReset ∧ (∀ a b : Bool, Leaves [] (among (fieldKeys [F.PW_INSTAT_STATE])) (.inletLimitExit a b)) ∧
   (∀ b : Bool, Leaves [.pow] (among (fieldKeys [F.PW_INSTAT_STATE, F.PW_LATE_COUNT, F.PW_LIMITS_COUNT])) (.inletLimitEntry b)) ∧
   (∀ m : MateFrame, Leaves [.eq, .pow] (fun k => inlet k || among (fieldKeys [F.MT_LINEERR_COUNT]) k) (.inletclrMessage m)) :) ∧
  (∀ x : List (BitVec 16), Leaves [.eq, .out, .pow]
    (among (eventKeys ++ branchKeys ++ fieldKeys ((List.range 11).map F.PW_ADCc_VALUE ++ (List.range 8).map F.PW_Bb_CTL_ON ++
      (List.range 8).map F.PW_Bb_TRIPS_COUNT))) (.branchSample x) :) ∧
  (∀ b : Fin 8, (∀ x : BitVec 16, Leaves [.eq, .out, .pow]
      (among (eventKeys ++ fieldKeys [F.PW_Bb_STAT_STATE b.val, F.PW_Bb_CTL_ON b.val, F.PW_Bb_TRIPS_COUNT b.val])) (.branchInstantTrip b x) ∧
      Leaves [.eq] (among (eventKeys ++ fieldKeys [F.PW_Bb_STAT_STATE b.val])) (.branchStuck b x)) ∧
    Leaves [.eq, .out] (among (eventKeys ++ fieldKeys [F.PW_Bb_STAT_STATE b.val])) (.branchRetry b) ∧
    Leaves [] (among (fieldKeys [F.PW_Bb_STAT_STATE b.val])) (.branchRetryReset b) :) ∧
  Leaves [.eq, .mt, .out, .pow] (among (eventKeys ++ branchKeys ++ fieldKeys [F.PW_PFWSTAT_ACTIVE, F.PW_PFWS_COUNT])) .pfwAssert ∧
  Leaves [.eq, .out, .pow] (among (eventKeys ++ branchKeys ++ fieldKeys [F.PW_PFWSTAT_ACTIVE])) .pfwRelease ∧
  (∀ x : MateFrame, Leaves [.out, .pow] (among (fieldKeys [F.MT_LINEERR_COUNT])) (.mateTake x) ∧
    Leaves [.pow] (among (branchKeys ++ fieldKeys [F.MT_LINEERR_COUNT, F.PW_LATE_COUNT, F.PW_OWN_OWNER])) (.offer x) ∧
    Leaves [.pow] (among (branchKeys ++ fieldKeys [F.MT_LINEERR_COUNT])) (.branchMessage x) :) ∧
  Leaves [.pow] (among (branchKeys ++ fieldKeys [F.PW_OWN_OWNER])) .offerTimeout ∧
  Leaves [.eq, .pow] (among (eventKeys ++ fieldKeys [F.PW_OWN_OWNER])) .roleChange

/-- What the events of the supplies, of the pair and of management leave as it was. -/
def Obligations.PairAndSupplyFrames : Prop :=
  Leaves [] (among []) .unitResetDone ∧ Leaves [] (among []) .watchdogRefresh ∧ Leaves [.sup] (among []) .refclkReturn ∧
  Leaves [.sup] (among (fieldKeys [F.PW_RSTCAUSE_PGLOSS])) .railPgLoss ∧
  (∀ p : Fin 6, Leaves [.sup] (among (fieldKeys [F.NC_ALMCOND_COND])) (.pllRelock p) :) ∧
  (∀ (x : BitVec 13) (n : Fin 8), Leaves [.eq] (among (eventKeys ++ fieldKeys [F.NC_PACE_SC, F.NC_SPSTAT_CUR])) (.paceWindow x n) :) ∧
  (∀ ok : Bool, Leaves [.eq, .usb] (among (alarmKeys ++ fieldKeys [F.NC_AVS_VCORE, F.NC_SPSTAT_CUR])) (.avsLoop ok) ∧
    Leaves [] (among (fieldKeys [F.NC_ALMCOND_COND, F.NC_AVS_VCORE])) (.avsRetry ok) :) ∧
  (∀ x : BitVec 11, Leaves [.eq, .usb] (among (alarmKeys ++ fieldKeys [F.NC_SPSTAT_CUR, F.NC_TEMP_TJ])) (.thermalFallback x) ∧
    Leaves [.eq] (among (eventKeys ++ fieldKeys [F.NC_ALMCOND_COND, F.NC_SPSTAT_CUR, F.NC_TEMP_TJ])) (.thermalReturn x) :) ∧
  Leaves [.mt] (among (fieldKeys [F.PW_OWN_OWNER])) .mateListenEnd ∧ Leaves [.sup] (among (fieldKeys [F.MT_STAT_ROLE])) .storeAcquire ∧
  (∀ a b : Bool, Leaves [.eq, .mt, .sup, .usb] (among (alarmKeys ++ fieldKeys [F.MT_STAT_ROLE])) (.ownershipLines a b) :) ∧
  Leaves [.mt, .sup] (among (fieldKeys [F.MT_STAT_ROLE])) .storeCheck ∧ Leaves [.out] (among []) .heartbeatSend ∧
  Leaves [.out] (among []) .beaconSend ∧
  (∀ x : MateFrame, Leaves [.eq, .mt, .sup, .usb] (among (alarmKeys ++ fieldKeys [F.MT_STAT_ROLE, F.MT_LATE_COUNT, F.MT_LINEERR_COUNT])) (.heartbeat x) ∧
    Leaves [.eq, .mt, .sup, .usb] (among (alarmKeys ++ fieldKeys [F.MT_STAT_ROLE, F.MT_MATE_MSTATE, F.MT_LINEERR_COUNT])) (.beacon x) ∧
    Leaves [.mt, .sup] (among (fieldKeys [F.MT_STAT_ROLE, F.MT_LINEERR_COUNT, F.MT_BLOCKED_COUNT])) (.surrender x) ∧
    Leaves [.mt] (among (fieldKeys [F.MT_LINEERR_COUNT])) (.lent x) :) ∧
  Leaves [.mt, .sup] (among (fieldKeys [F.MT_STAT_ROLE, F.MT_BLOCKED_COUNT])) .heartbeatTimeout ∧
  Leaves [.eq, .usb] (among (alarmKeys ++ fieldKeys [F.MT_STAT_ROLE])) .mateTimeout ∧
  Leaves [.mt] (among []) .checkpointIncremental ∧ Leaves [.mt] (among []) .checkpointFull ∧
  (∀ x : MateFrame, Leaves [.freeCtr, .mt, .out] (among (fieldKeys [F.MT_LINEERR_COUNT])) (.lend x) ∧
    Leaves [.freeCtr, .mt, .out] (among (fieldKeys [F.MT_LINEERR_COUNT])) (.back x) :) ∧
  Leaves [.freeCtr, .mt, .out] (among []) .lendWindowEnd ∧
  (∀ (st : Option StoreSt) (x : Option (BitVec 6)), Leaves (.freeCtr :: coreParts) (fun _ => true) (.provingRun st x) ∧
    Leaves (.freeCtr :: coreParts) (fun _ => true) (.verifyingRun st x) :) ∧
  (∀ (s : State) (st : Option StoreSt) (x : Option (BitVec 6)), (s.storeSeen st).canRun = false →
    ((s.mt.run ≠ 1 ∨ x = none) → Completes (.provingRun st x) s fun t => t = s.storeSeen st) ∧
    ((s.mt.run ≠ 2 ∨ x = none) → Completes (.verifyingRun st x) s fun t => t = s.storeSeen st) :) ∧
  (∀ ok : Bool, Leaves [.eq, .mg, .store, .usb] (among (alarmKeys ++ fieldKeys [F.TL_LOST_COUNT])) (.tallyStoreWrite ok) :) ∧
  Leaves [.fw, .mg, .sup, .we] (among (fieldKeys [F.WE_QSTAT_OUTCOME, F.WE_STATUS_CODE, F.WE_ERRSPL_ID, F.WE_ERROFF_OFFSET, F.WE_ERRRES_KIND,
    F.WE_ERROWN_INDEX1])) .quietTimeout ∧
  Leaves [.fw] (among (fieldKeys [F.FW_STAT_STATE])) .trialEnd ∧
  (∀ (c : Fin 5) (ok : Bool), Leaves [.store] (among (fieldKeys [F.FW_SHELF_HELD])) (.shelfWrite c ok) :) ∧
  Leaves [.eq, .mg] (among (eventKeys ++ fieldKeys [F.NC_DEBUG_UNLOCKED])) .debugTimeout ∧
  (∀ i : JtagInstr, Leaves [.jtag, .out] (among []) (.jtagInstruction i) :)

/-- What a row that is one access of a register leaves as it was, whether the access is taken or refused (R41, R42): every part of State but
those its register's action works on, and every register but those named and those that count and capture a refusal. -/
def Obligations.RegisterRowFrames : Prop :=
  (∀ src : Src, Leaves [.out, .clock, .freeCtr, .mem, .outs, .slath, .tm] (fun k => byRow [] k || trafficKey k) (.enumStart src) ∧
    Leaves [.out, .mem] (byRow [F.RG_RPT5_DATA]) (.reportPop src) ∧ Leaves [.out, .mg] (byRow []) (.tallyHeadRead src) ∧
    (∀ b : Bool, Leaves [.out] (byRow [F.TM_FRAC_FRAC, F.TM_NS_NS, F.TM_SEC48H_SEC, F.TM_TICK_TICK]) (.timeReadLatch src b)) ∧
    Leaves [.out] (byRow [F.TM_CTL_SNAP, F.TM_FRAC_FRAC, F.TM_NS_NS, F.TM_SEC48H_SEC, F.TM_TICK_TICK]) (.snap src) :) ∧
  (∀ (src : Src) (p : PortR) (a x : Byte) (d w : Bool), Leaves [.out] (byRow [F.RGp_I2C_BUSY p.val]) (.i2cTransfer src p a d w x) :) ∧
  (∀ (src : Src) (h : Fin 3), Leaves [.out, .eq, .slath] (fun k => byRow [F.SW_HASHCTL_SEL, F.SW_HASHRUN_RUN] k || among eventKeys k)
    (.hashSwitch src h) :) ∧
  (∀ src : Src, Leaves [.out, .slath] (byRow [F.SW_FDBCMD_BUSY, F.SW_FDBOCC_ENTRIES]) (.fdbAddStatic src) ∧
    Leaves [.out, .slath] (byRow [F.SW_FDBCMD_BUSY, F.SW_FDBOCC_ENTRIES]) (.fdbDelete src) ∧
    Leaves [.out, .slath] (byRow [F.SW_FDBCMD_BUSY, F.SW_FDBDST_KIND]) (.fdbLookup src) ∧
    Leaves [.out, .slath] (byRow [F.SW_FDBCMD_BUSY, F.SW_FDBOCC_ENTRIES]) (.fdbFlushDynamic src) ∧
    Leaves [.out, .slath] (byRow [F.SW_FDBCMD_BUSY, F.SW_FDBOCC_ENTRIES]) (.fdbFlushAll src) :) ∧
  (∀ (src : Src) (n : Fin 17),
    (∀ l : Bool, Leaves [.out, .clock, .outs] (byRow ([F.SW_GCTLn_ARM (n.val + 2), F.SW_GCYCn_CYCLE (n.val + 2), F.SW_GLATEn_COUNT (n.val + 2),
      F.SW_GSTATn_STATE (n.val + 2)] ++ (List.range 8).map fun q => F.SW_GWMAXn_q_WMAX (n.val + 2) q)) (.gateArm src n l)) ∧
    Leaves [.out, .clock, .outs] (byRow ([F.SW_GCTLn_ARM (n.val + 2), F.SW_GCYCn_CYCLE (n.val + 2), F.SW_GLATEn_COUNT (n.val + 2),
      F.SW_GSTATn_STATE (n.val + 2)] ++ (List.range 8).map fun q => F.SW_GWMAXn_q_WMAX (n.val + 2) q)) (.gateDisarm src n) ∧
    Leaves [.out, .clock, .outs] (byRow ([F.SW_GCTLn_ARM (n.val + 2), F.SW_GCYCn_CYCLE (n.val + 2), F.SW_GLATEn_COUNT (n.val + 2),
      F.SW_GSTATn_STATE (n.val + 2)] ++ (List.range 8).map fun q => F.SW_GWMAXn_q_WMAX (n.val + 2) q)) (.gateOff src n) :) ∧
  (∀ (src : Src) (e : Fin 16), Leaves [.out, .tm] (byRow []) (.txStampPop src e) :) ∧
  (∀ (src : Src) (c : Fin 4), Leaves [.out, .tm] (byRow [F.TM_CAPc_NS_NS c.val]) (.capturePop src c) :) ∧
  (∀ (src : Src) (k : Fin 32),
    Leaves [.out, .clock, .eq, .tm] (fun x => byRow [F.TM_CMPk_CFG_ARM k.val, F.TM_CMPk_S_SEC k.val, F.TM_CMPk_NS_NS k.val, F.TM_CLATE_COUNT] x ||
      among eventKeys x) (.compareArm src k) ∧
    Leaves [.out] (byRow [F.TM_CMPk_CFG_ARM k.val, F.TM_LATE_COUNT]) (.compareDisarm src k) :) ∧
  (∀ (src : Src) (n : Fin 128), Leaves [.out, .wv] (fun k => byRow [] k || ofWeaver n.val k) (.weaverStart src n) ∧
    Leaves [.out, .eq, .wv] (fun k => byRow [F.TM_SAn_ACTID n.val] k || among eventKeys k || ofWeaver n.val k) (.weaverStop src n) ∧
    (∀ d : Word, Leaves [.out, .wv] (fun k => byRow [] k || ofWeaver n.val k) (.txPush src n d)) ∧
    Leaves [.out, .wv] (fun k => byRow [] k || ofWeaver n.val k) (.rxPop src n) :) ∧
  (∀ (src : Src) (m : Fin 16) (mask : Byte),
    Leaves [.out, .wv] (fun k => byRow [F.BKm_START_MASK m.val] k || (List.range 8).any fun i => ofWeaver (8 * m.val + i) k) (.basketStart src m mask) ∧
    Leaves [.out, .eq, .wv] (fun k => byRow (F.BKm_STOP_MASK m.val :: (List.range 8).map fun i => F.TM_SAn_ACTID (8 * m.val + i)) k ||
      among eventKeys k || (List.range 8).any fun i => ofWeaver (8 * m.val + i) k) (.basketStop src m mask) ∧
    Leaves [.out, .wv] (fun k => byRow [F.BKm_CLKRST_MASK m.val] k || (List.range 8).any fun i => ofWeaver (8 * m.val + i) k)
      (.clockRestart src m mask) :) ∧
  (∀ (src : Src) (m : Fin 16) (x : BitVec 16), Leaves [.out, .wv] (byRow [F.BKm_FLAGS_FLAGS m.val, F.BKm_FSET_FLAGS m.val]) (.flagSet src m x) ∧
    Leaves [.out, .wv] (byRow [F.BKm_FLAGS_FLAGS m.val]) (.flagClear src m x) :) ∧
  (∀ (src : Src) (m : Fin 16) (x : BitVec 4), Leaves [.out, .wv] (byRow [F.BKm_FLAGS_FLAGS m.val, F.BKm_IRQ_LINE m.val]) (.irqRaise src m x) :) ∧
  (∀ src : Src,
    Leaves [.out, .wv] (fun k => byRow [F.BK_GCTL_ARM] k || (List.range 128).any fun n => ofWeaver n k) (.globalGo src) ∧
    Leaves [.out, .clock, .wv] (fun k => byRow [F.BK_GCTL_ARM, F.BK_LATE_COUNT] k || (List.range 128).any fun n => ofWeaver n k) (.globalArm src) ∧
    Leaves [.out] (byRow [F.BK_GCTL_ARM, F.BK_LATE_COUNT]) (.globalDisarm src) ∧
    Leaves [.out, .eq, .wv] (fun k => byRow (F.BK_GCTL_ARM :: (List.range 128).map F.TM_SAn_ACTID) k || among eventKeys k ||
      (List.range 128).any fun n => ofWeaver n k) (.globalStop src) :) ∧
  (∀ (src : Src) (c : Fin 8),
    Leaves [.out, .can] (fun k => byRow [] k || ofCan c.val k) (.canInit src c) ∧
    Leaves [.out, .can] (fun k => byRow [] k || ofCan c.val k) (.canInitRelease src c) ∧
    Leaves [.out, .can] (fun k => byRow [] k || ofCan c.val k) (.canRecover src c) ∧
    (∀ n : BitVec 7, Leaves [.out] (fun k => byRow [] k || ofCan c.val k) (.canRxAck src c n)) ∧
    (∀ m : BitVec 3, Leaves [.out, .can, .eq] (fun k => byRow [F.EQ_MERGED_COUNT] k || among eventKeys k || ofCan c.val k) (.canTxRequest src c m) ∧
      Leaves [.out, .can, .eq] (fun k => byRow [F.EQ_MERGED_COUNT] k || among eventKeys k || ofCan c.val k) (.canTxCancel src c m)) :) ∧
  (∀ (src : Src) (x : Word), Leaves [.out, .eq] (fun k => byRow [F.EQ_STAT_PUSHREF, F.EQ_PUSHREF_COUNT] k || among eventKeys k) (.eventPush src x) :) ∧
  (∀ (src : Src) (ok : Bool), Leaves [.out, .eq, .usb] (fun k => byRow [F.EQ_POISON_COUNT] k || among eventKeys k) (.eventPop src ok) :) ∧
  (∀ (src : Src) (h l : BitVec 13), Leaves [.out, .eq, .usb] (fun k => byRow [F.EQ_MARKS_HWM] k || among eventKeys k) (.eqMarksWrite src h l) :) ∧
  (∀ (src : Src) (b : Fin 8),
    (∀ on : Bool, Leaves [.out, .eq, .pow] (fun k => byRow [F.PW_Bb_CTL_ON b.val, F.PW_Bb_STAT_STATE b.val] k || among eventKeys k)
      (.branchOn src b on)) ∧
    Leaves [.out, .eq, .pow] (fun k => byRow [F.PW_Bb_CTL_ON b.val, F.PW_Bb_STAT_STATE b.val] k || among eventKeys k) (.loadcurve src b) :) ∧
  (∀ (src : Src) (n : Fin 17), Leaves [.out, .clock, .eq, .outs, .slath, .tm]
    (fun k => byRow [F.TM_LTOCC_OCC] k || among eventKeys k || inClass 3 k) (.portDisable src n) :) ∧
  (∀ (src : Src) (m : BitVec 2), Leaves [.out, .eq] (fun k => byRow [F.NC_MODE_SPEED, F.NC_SPSTAT_CUR] k || among eventKeys k)
    (.speedModeWrite src m) :) ∧
  (∀ (src : Src) (tol : Word), Leaves [.out, .clock, .eq, .freeCtr, .outs, .slath, .tm]
    (fun k => byRow [F.NC_FTXD3_TOL, F.NC_FTXSTAT_DROPPED, F.TM_LTOCC_OCC, F.TM_LTFULL_COUNT] k || among eventKeys k || inClass 3 k)
    (.frameSubmit src tol) :) ∧
  (∀ (src : Src) (n : Fin 4),
    (∀ (d : BitVec 24) (x : BitVec 2), Leaves [.out] (byRow [F.US_FPn_LINE_BAUD n.val]) (.lineCodingWrite src n d x)) ∧
    (∀ len : BitVec 7, Leaves [.out] (byRow [F.US_FPn_TXCTL_LEN n.val, F.US_FPn_XERR_COUNT n.val]) (.fieldTxGo src n len)) :)

/-- What link faults, cells on their way, frames on their way, and the responses of other nodes leave as it was: no register outside the
ring (0x01), the switch (0x03) and the event queue, and no part of State but those of the ring, the switch, time stamps and the unit named.
-/
def Obligations.CellAndFrameFrames : Prop :=
  (∀ p : PortU, Leaves [.eq, .links, .out, .outs, .slath, .tm] trafficKey (.greetTimeout p) ∧
    Leaves [.eq, .links, .out, .outs, .slath, .tm] trafficKey (.keepaliveTimeout p) ∧
    (∀ c : LossCause, Leaves [.eq, .links, .out, .outs, .slath, .tm] trafficKey (.linkFaultDetected p c)) ∧
    Leaves [.eq, .inbox, .links, .out, .outs, .slath, .tm] trafficKey (.linkdown p) ∧
    (∀ c : Cell, Leaves [.clock, .eq, .freeCtr, .inbox, .links, .mem, .out, .outs, .slath, .tm] trafficKey (.hello p c)) ∧
    (∀ w0 w1 w2 w3 w4 w5 : Word, Leaves [.eq, .links] (fun k => inClass 1 k || among eventKeys k) (.cellHeader p w0 w1 w2 w3 w4 w5)) ∧
    (∀ (x : List Byte) (w : Word) (b : Bool) (u v : Byte), Leaves [.clock, .eq, .freeCtr, .inbox, .links, .out, .outs, .slath, .tm] trafficKey (.cellTrailer p x w b u v)) ∧
    (∀ c : Cell, Leaves [.clock, .eq, .freeCtr, .inbox, .links, .out, .outs, .slath, .tm] trafficKey (.tunnelledFrame p c)) :) ∧
  (∀ (p : PortR) (a b d : Bool), Leaves [.eq, .links, .out, .outs, .slath, .tm] trafficKey (.moduleSignal p a b d) :) ∧
  (∀ (p : PortR) (r : PoolRead), Leaves [.links, .out, .outs, .slath, .tm]
    trafficKey (.cellBoundary p r) :) ∧
  Leaves [.clock, .freeCtr, .links, .mem, .out, .outs, .slath, .tm] trafficKey .enumPeriod ∧
  (∀ (p : PortR) (c : Cell), Leaves [.inbox, .mem, .store] (inClass 1) (.postable p c) ∧
    Leaves [.clock, .eq, .freeCtr, .inbox, .links, .mem, .out, .outs, .slath, .tm] trafficKey (.enumerate p c) :) ∧
  (∀ c : Cell, Leaves [.clock, .eq, .freeCtr, .inbox, .links, .mem, .out, .outs, .slath, .tm] trafficKey (.report c) ∧
    Leaves [.clock, .eq, .freeCtr, .inbox, .links, .mem, .out, .outs, .slath, .tm] trafficKey (.assigned c) :) ∧
  Leaves [.clock, .eq, .freeCtr, .links, .mem, .out, .outs, .slath, .tm] trafficKey .postableTimer ∧
  (∀ (p : Fin 27) (x : BitVec 64) (d : List Byte) (b : Bool), Leaves [.clock, .eq, .freeCtr, .links, .out, .outs, .slath, .tm] trafficKey (.slathBeat p x d b) :) ∧
  (∀ (e : Fin 16) (d : List Byte) (a b c : Bool), Leaves [.clock, .eq, .freeCtr, .links, .out, .outs, .slath, .tm] trafficKey (.edgeFrameEnd e d a b c) :) ∧
  (∀ e : Fin 16, Leaves [.out] (among []) (.pauseRepeat e) :) ∧
  (∀ (n : Fin 19) (q : Fin 8) (b : Bool), Leaves [.clock, .eq, .links, .out, .outs, .slath, .tm] trafficKey (.overflowReadback n q b) :) ∧
  (∀ h : Fin 3, Leaves [.eq, .freeCtr, .slath] (fun k => inClass 3 k || among eventKeys k) (.hashSwitchComplete h) :) ∧
  (∀ n : Fin 17, Leaves [.eq, .links, .out, .outs, .slath, .tm] trafficKey (.edgeLinkDown n) ∧
    Leaves [.eq, .links, .out, .outs, .slath, .tm] trafficKey (.portHoldTimeout n) ∧
    (∀ q : Fin 8, Leaves [.clock, .eq, .links, .out, .outs, .slath, .tm] trafficKey (.unsendableTimeout n q)) :) ∧
  (∀ (n : Fin 25) (b : Bool), Leaves [.clock, .eq, .links, .out, .outs, .slath, .tm] trafficKey (.egressFrameBoundary n b) ∧
    Leaves [.clock, .eq, .links, .out, .outs, .slath, .tm] trafficKey (.frameSent n b) :) ∧
  (∀ (n : Fin 16) (l : BitVec 12), Leaves [.clock, .eq, .links, .out, .outs, .slath, .tm] (fun k => trafficKey k || among eventKeys k)
    (.launchDeadline n l) :) ∧
  Leaves [.clock, .outs] (inClass 3) .gateListBootStart ∧
  Leaves [.clock, .freeCtr, .out, .outs, .slath, .tm] trafficKey .syncSend ∧
  (∀ c : Cell, Leaves [.clock, .eq, .inbox, .wv]
      (fun k => inClass 2 k || among eventKeys k || (List.range 128).any fun n => ofWeaver n k) (.act c) ∧
    Leaves [.eq, .inbox, .wv] (fun k => inClass 2 k || among eventKeys k) (.cancel c) :) ∧
  (∀ (c : Fin 8) (h : CanEnd) (x : Option Byte), Leaves [.can, .eq] (fun k => ofCan c.val k || among (eventKeys ++ fieldKeys [F.EQ_MERGED_COUNT]) k)
    (.canAttemptEnd c h x) :) ∧
  (∀ x : Cell,
    let answer (c : Instr) : Prop := LeavesQuiet [.bridge, .clock, .eq, .freeCtr, .inbox, .links, .out, .outs, .pair, .slath, .tm, .usb] (fun k => trafficKey k || inClass 7 k) c
    answer (.rdata x) ∧ answer (.wdone x) ∧ answer (.ack x) ∧ answer (.atomic x) ∧ answer (.skipped x) ∧ answer (.synced x) ∧ answer (.nosync x) :) ∧
  (∀ i : Fin 256, LeavesQuiet [.bridge, .clock, .eq, .freeCtr, .inbox, .links, .out, .outs, .pair, .slath, .tm, .usb] (fun k => trafficKey k || inClass 7 k)
    (.responseTimeout i) :)

/-- What resets, the supply sequence, steps of time and management commands leave as it was: no reset of the core reaches the fuses, the
store, the inlet, the branches or a register of the AON domain but the reset cause, the sequencer's and the role; a unit's reset reaches its
unit alone; a command reaches what it is for, the tally, the slots and the replay ring. -/
def Obligations.ResetAndCommandFrames : Prop :=
  Leaves coreParts coreKey .resetN ∧ (∀ b : Bool, Leaves coreParts coreKey (.testN b) :) ∧ Leaves coreParts coreKey .refclkLoss ∧
  Leaves coreParts coreKey .coreStop ∧ (∀ g : Fin 4, Leaves coreParts coreKey (.railPg g) :) ∧
  Leaves (.store :: coreParts) coreKey .watchdogExpiry ∧ (∀ b : Bool, Leaves (.store :: coreParts) coreKey (.sramParity b) :) ∧
  (∀ (src : Src) (k : Word), Leaves coreParts coreKey (.ringReset src k) :) ∧
  (∀ ok : Bool, Leaves (.store :: .freeCtr :: coreParts) (fun k => coreKey k || among (fieldKeys [F.MT_CKFAIL_COUNT]) k) (.checkpointWritten ok) :) ∧
  Leaves [.sup] (among (fieldKeys [F.PW_SEQ_STEP])) .coreStart ∧ Leaves [.sup] (among (fieldKeys [F.PW_SEQ_STEP])) .seqRetry ∧
  Leaves [.mt, .sup] (among (fieldKeys [F.PW_SEQ_STEP, F.PW_RSTCAUSE_SEQFAIL, F.MT_STAT_ROLE])) .seqTimeout ∧
  Leaves [.clock, .eq, .links, .out, .outs, .slath, .sup, .tm]
    (fun k => trafficKey k || among (fieldKeys [F.PW_SEQ_STEP, F.NC_DEBUG_FUSED, F.RG_IDH_IDENT, F.RG_IDL_IDENT, F.RG_PIDH_PIDENT, F.RG_PIDL_PIDENT, F.TL_STORE_PRESENT,
      F.WE_KEYSLOT_PROV]) k) .pllsLocked ∧
  (∀ p : Fin 6, Leaves [.eq, .links, .mg, .out, .outs, .slath, .sup, .tm, .usb]
    (fun k => trafficKey k || among (alarmKeys ++ fieldKeys [F.NC_PLLSTAT_LOST]) k) (.pllLoss p) :) ∧
  (∀ (src : Src) (m : Byte), Leaves [.out, .can] (fun k => byRow [F.NC_URST_CAN] k || inClass 5 k) (.canReset src m) :) ∧
  (∀ src : Src, Leaves [.out, .usb] (fun k => byRow [F.NC_URST_CAN] k || inClass 6 k) (.fieldhubReset src) ∧
    Leaves [.out, .usb] (fun k => byRow [F.NC_URST_CAN] k || inClass 6 k) (.svcReset src) ∧
    Leaves [.out, .bridge, .pair] (fun k => byRow [F.NC_URST_CAN] k || inClass 7 k) (.bridgeReset src) ∧
    Leaves [.out, .tm] (fun k => byRow [F.NC_URST_CAN] k || inClass 2 k) (.timeReset src) ∧
    Leaves [.out, .eq, .links, .outs, .slath, .tm] (fun k => byRow [F.NC_URST_CAN] k || trafficKey k) (.uplinkReset src) :) ∧
  (∀ (src : Src) (m : BitVec 16),
    Leaves [.out, .eq, .wv] (fun k => byRow [F.NC_WRST_BASKET] k || inClass 4 k || inClass 2 k || among eventKeys k) (.basketReset src m) ∧
    Leaves [.out, .eq, .outs, .slath, .tm] (fun k => byRow [F.NC_ERST_EDGE] k || trafficKey k) (.edgeReset src m) :) ∧
  (∀ src : Src, Leaves [.out, .can, .clock, .eq, .outs, .slath, .tm, .wv] (fun k => byRow [F.EQ_MERGED_COUNT] k || inClass 2 k || inClass 3 k ||
    inClass 4 k || inClass 5 k || among eventKeys k) (.timeStep src) :) ∧
  (∀ (p : PortR) (c : Cell) (a b : BitVec 64), Leaves [.can, .clock, .eq, .freeCtr, .inbox, .links, .mg, .out, .outs, .slath, .tm, .wv]
    (fun k => inClass 2 k || inClass 3 k || inClass 4 k || inClass 5 k || trafficKey k || among (alarmKeys ++ fieldKeys [F.EQ_MERGED_COUNT]) k)
    (.timeSync p c a b) :) ∧
  (∀ (d : Byte) (o : BitVec 72), Leaves [.can, .clock, .eq, .freeCtr, .out, .outs, .slath, .tm, .wv]
    (fun k => inClass 2 k || inClass 3 k || inClass 4 k || inClass 5 k || among (eventKeys ++ fieldKeys [F.EQ_MERGED_COUNT]) k) (.gmOffset d o) :) ∧
  (∀ (src : Src) (p : PortU),
    (∀ b : Bool, Leaves [.out, .eq, .links, .outs, .slath, .tm] (fun k => byRow [] k || trafficKey k) (.portEnable src p b)) ∧
    Leaves [.out, .eq, .links, .outs, .slath, .tm] (fun k => byRow [] k || trafficKey k) (.retrain src p) :) ∧
  (∀ ok : Bool, Leaves [.eq, .freeCtr, .mg, .mt, .out, .pow, .store, .usb] (fun k => inClass 10 k || among alarmKeys k) (.finalCheckpointDone ok) :) ∧
  Leaves [.eq, .freeCtr, .fw, .mg, .store, .sup, .usb] (fun k => inClass 12 k || among (alarmKeys ++ fieldKeys [F.PW_SEQ_STEP]) k) .mfwBoot ∧
  Leaves [.eq, .mg, .store, .usb] (fun k => inClass 6 k || among alarmKeys k) .mc1Watchdog ∧
  Leaves [.fw, .mg] (among (fieldKeys [F.FW_STAT_STATE, F.US_SSTAT_STATE])) .udsReconnect ∧
  Leaves [.eq, .fw, .links, .mg, .out, .outs, .slath, .tm] (fun k => trafficKey k || among (fieldKeys [F.FW_STAT_STATE]) k) .sdmNextLink ∧
  Leaves [.eq, .mg, .store, .usb] (fun k => inClass 6 k || among eventKeys k) .usbVbusLoss ∧
  (∀ (h : Bool) (f : Option Byte), Leaves [.eq, .mg, .store, .usb] (fun k => inClass 6 k || among eventKeys k) (.usbBusReset h f) :) ∧
  (∀ (src : Src) (tag : BitVec 16) (x : Args),
    let reach (ps : List Part) (fs : List Fld) (c : Instr) : Prop := LeavesQuiet ([.out, .eq, .fw, .mg, .store, .usb] ++ ps) (fun k => commandKey k || among (fieldKeys fs) k) c
    let code (c : Instr) : Prop := LeavesQuiet [.out, .eq, .fw, .mg, .store, .usb] (fun k => commandKey k || inClass 12 k) c
    reach [] [] (.nop src tag x) ∧ reach [] [] (.mark src tag x) ∧ reach [] [] (.inletclr src tag x) ∧
    reach [.otp] [F.WE_KEYSLOT_REVOKED] (.revokekey src tag x) ∧ reach [] [F.NC_DEBUG_UNLOCKED] (.debugunlock src tag x) ∧
    reach [] [F.NC_DEBUG_UNLOCKED] (.debuglock src tag x) ∧ reach [] [F.TL_FETCH_BUSY, F.TL_FETCHL_SEQ, F.TL_FETCHH_SEQ] (.tlfetch src tag x) ∧
    reach [.mt] [] (.checkpoint src tag x) ∧ reach [.mt] [] (.yield src tag x) ∧ code (.fwbegin src tag x) ∧
    (∀ ok : Bool, code (.fwblock src tag x ok)) ∧ code (.fwverify src tag x) ∧ code (.fwabort src tag x) :)
end

