-- ==== Sys2Proof/Laws/Tbl.lean ====
section
/-! SUPPORT. What the two operations of a sparse table do: a read after a write of the same index, of another one, and the canonical form
that every write keeps. -/

namespace Sys2Proof.Machine

theorem Tbl.get_erase_other {α : Type} (d : α) {j k : Nat} (h : j ≠ k) (t : Tbl α) : Tbl.get d j (Tbl.erase k t) = Tbl.get d j t := by
  induction t with
  | nil => rfl
  | cons x t ih =>
    by_cases hk : x.1 = k
    · simp only [Tbl.erase, hk, if_true, Tbl.get, ih, if_neg (Ne.symm h)]
    · simp only [Tbl.erase, hk, if_false, Tbl.get, ih]

theorem Tbl.get_erase_same {α : Type} (d : α) (k : Nat) (t : Tbl α) : Tbl.get d k (Tbl.erase k t) = d := by
  induction t with
  | nil => rfl
  | cons x t ih =>
    by_cases hk : x.1 = k
    · simp only [Tbl.erase, hk, if_true, ih]
    · simp only [Tbl.erase, hk, if_false, Tbl.get, ih]

theorem Tbl.get_place_other {α : Type} (d : α) {j k : Nat} (h : j ≠ k) (v : α) (t : Tbl α) :
    Tbl.get d j (Tbl.place k v t) = Tbl.get d j t := by
  induction t with
  | nil => simp only [Tbl.place, Tbl.get, if_neg (Ne.symm h)]
  | cons x t ih =>
    by_cases hk : k < x.1
    · simp only [Tbl.place, hk, if_true, Tbl.get, if_neg (Ne.symm h)]
    · simp only [Tbl.place, hk, if_false, Tbl.get, ih]

theorem Tbl.get_place_erase_same {α : Type} (d : α) (k : Nat) (v : α) (t : Tbl α) :
    Tbl.get d k (Tbl.place k v (Tbl.erase k t)) = v := by
  induction t with
  | nil => simp only [Tbl.erase, Tbl.place, Tbl.get, if_true]
  | cons x t ih =>
    by_cases hk : x.1 = k
    · simp only [Tbl.erase, hk, if_true, ih]
    · by_cases hl : k < x.1
      · simp only [Tbl.erase, hk, if_false, Tbl.place, hl, if_true, Tbl.get]
      · simp only [Tbl.erase, hk, if_false, Tbl.place, hl, Tbl.get, ih]

/-- A read after a write of the same index gives the value written. -/
theorem Tbl.get_put_same {α : Type} [DecidableEq α] (d : α) (k : Nat) (v : α) (t : Tbl α) : Tbl.get d k (Tbl.put d k v t) = v := by
  unfold Tbl.put
  split
  · next h => rw [Tbl.get_erase_same, h]
  · exact Tbl.get_place_erase_same d k v t

/-- A write leaves every other index alone, whatever the default it is read with. -/
theorem Tbl.get_put_other {α : Type} [DecidableEq α] (d e : α) {j k : Nat} (h : j ≠ k) (v : α) (t : Tbl α) :
    Tbl.get d j (Tbl.put e k v t) = Tbl.get d j t := by
  unfold Tbl.put
  split
  · exact Tbl.get_erase_other d h t
  · rw [Tbl.get_place_other d h, Tbl.get_erase_other d h]

theorem Tbl.wfFrom_mono {α : Type} [DecidableEq α] (d : Nat → α) {lo hi : Nat} (h : lo ≤ hi) (t : Tbl α) (w : Tbl.wfFrom d hi t = true) :
    Tbl.wfFrom d lo t = true := by
  cases t with
  | nil => rfl
  | cons x t =>
    simp only [Tbl.wfFrom, Bool.and_eq_true, decide_eq_true_eq] at w ⊢
    exact ⟨⟨Nat.le_trans h w.1.1, w.1.2⟩, w.2⟩

theorem Tbl.wfFrom_erase {α : Type} [DecidableEq α] (d : Nat → α) (k : Nat) (t : Tbl α) (lo : Nat) (w : Tbl.wfFrom d lo t = true) :
    Tbl.wfFrom d lo (Tbl.erase k t) = true := by
  induction t generalizing lo with
  | nil => rfl
  | cons x t ih =>
    simp only [Tbl.wfFrom, Bool.and_eq_true, decide_eq_true_eq] at w
    have r := ih (x.1 + 1) w.2
    by_cases hk : x.1 = k
    · simp only [Tbl.erase, hk, if_true]
      exact Tbl.wfFrom_mono d (by omega) _ r
    · simp only [Tbl.erase, hk, if_false, Tbl.wfFrom, Bool.and_eq_true, decide_eq_true_eq]
      exact ⟨w.1, r⟩

theorem Tbl.wfFrom_place {α : Type} [DecidableEq α] (d : Nat → α) (k : Nat) (v : α) (hv : v ≠ d k) (t : Tbl α) (lo : Nat) (hlo : lo ≤ k)
    (w : Tbl.wfFrom d lo t = true) : Tbl.wfFrom d lo (Tbl.place k v (Tbl.erase k t)) = true := by
  induction t generalizing lo with
  | nil => simp [Tbl.erase, Tbl.place, Tbl.wfFrom, hlo, hv]
  | cons x t ih =>
    simp only [Tbl.wfFrom, Bool.and_eq_true, decide_eq_true_eq] at w
    by_cases hk : x.1 = k
    · simp only [Tbl.erase, hk, if_true]
      exact ih lo hlo (Tbl.wfFrom_mono d (by omega) _ w.2)
    · by_cases hl : k < x.1
      · simp only [Tbl.erase, hk, if_false, Tbl.place, hl, if_true, Tbl.wfFrom, Bool.and_eq_true, decide_eq_true_eq]
        refine ⟨⟨hlo, by simpa using hv⟩, ⟨by omega, w.1.2⟩, Tbl.wfFrom_erase d k t _ w.2⟩
      · simp only [Tbl.erase, hk, if_false, Tbl.place, hl, Tbl.wfFrom, Bool.and_eq_true, decide_eq_true_eq]
        exact ⟨w.1, ih (x.1 + 1) (by omega) w.2⟩

/-- Every write keeps the canonical form. -/
theorem Tbl.wf_put {α : Type} [DecidableEq α] (d : Nat → α) (k : Nat) (v : α) (t : Tbl α) (w : Tbl.wf d t = true) :
    Tbl.wf d (Tbl.put (d k) k v t) = true := by
  unfold Tbl.put
  split
  · exact Tbl.wfFrom_erase d k t 0 w
  · next h => exact Tbl.wfFrom_place d k v h t 0 (Nat.zero_le k) w

end Sys2Proof.Machine
end

