-- ==== Sys2Proof/Laws/State.lean ====
section
/-! SUPPORT. What the plain updates of State leave and what a read after them gives, one lemma for each field. -/

namespace Sys2Proof.Machine

/-! ### A register write changes the register table alone -/

@[simp] theorem State.setReg_pending (s : State) (k : Nat) (v : Word) : (s.setReg k v).pending = s.pending := rfl
@[simp] theorem State.setReg_out (s : State) (k : Nat) (v : Word) : (s.setReg k v).out = s.out := rfl
@[simp] theorem State.setReg_inbox (s : State) (k : Nat) (v : Word) : (s.setReg k v).inbox = s.inbox := rfl
@[simp] theorem State.setReg_freeCtr (s : State) (k : Nat) (v : Word) : (s.setReg k v).freeCtr = s.freeCtr := rfl
@[simp] theorem State.setReg_clock (s : State) (k : Nat) (v : Word) : (s.setReg k v).clock = s.clock := rfl
@[simp] theorem State.setReg_otp (s : State) (k : Nat) (v : Word) : (s.setReg k v).otp = s.otp := rfl
@[simp] theorem State.setReg_weave (s : State) (k : Nat) (v : Word) : (s.setReg k v).weave = s.weave := rfl
@[simp] theorem State.setReg_eq (s : State) (k : Nat) (v : Word) : (s.setReg k v).eq = s.eq := rfl
@[simp] theorem State.setReg_mg (s : State) (k : Nat) (v : Word) : (s.setReg k v).mg = s.mg := rfl
@[simp] theorem State.setReg_links (s : State) (k : Nat) (v : Word) : (s.setReg k v).links = s.links := rfl
@[simp] theorem State.setReg_mem (s : State) (k : Nat) (v : Word) : (s.setReg k v).mem = s.mem := rfl
@[simp] theorem State.setReg_pair (s : State) (k : Nat) (v : Word) : (s.setReg k v).pair = s.pair := rfl
@[simp] theorem State.setReg_bridge (s : State) (k : Nat) (v : Word) : (s.setReg k v).bridge = s.bridge := rfl
@[simp] theorem State.setReg_slath (s : State) (k : Nat) (v : Word) : (s.setReg k v).slath = s.slath := rfl
@[simp] theorem State.setReg_outs (s : State) (k : Nat) (v : Word) : (s.setReg k v).outs = s.outs := rfl
@[simp] theorem State.setReg_tm (s : State) (k : Nat) (v : Word) : (s.setReg k v).tm = s.tm := rfl
@[simp] theorem State.setReg_usb (s : State) (k : Nat) (v : Word) : (s.setReg k v).usb = s.usb := rfl
@[simp] theorem State.setReg_wv (s : State) (k : Nat) (v : Word) : (s.setReg k v).wv = s.wv := rfl
@[simp] theorem State.setReg_can (s : State) (k : Nat) (v : Word) : (s.setReg k v).can = s.can := rfl
@[simp] theorem State.setReg_pow (s : State) (k : Nat) (v : Word) : (s.setReg k v).pow = s.pow := rfl
@[simp] theorem State.setReg_sup (s : State) (k : Nat) (v : Word) : (s.setReg k v).sup = s.sup := rfl
@[simp] theorem State.setReg_store (s : State) (k : Nat) (v : Word) : (s.setReg k v).store = s.store := rfl
@[simp] theorem State.setReg_mt (s : State) (k : Nat) (v : Word) : (s.setReg k v).mt = s.mt := rfl
@[simp] theorem State.setReg_fw (s : State) (k : Nat) (v : Word) : (s.setReg k v).fw = s.fw := rfl
@[simp] theorem State.setReg_we (s : State) (k : Nat) (v : Word) : (s.setReg k v).we = s.we := rfl
@[simp] theorem State.setReg_jtag (s : State) (k : Nat) (v : Word) : (s.setReg k v).jtag = s.jtag := rfl

@[simp] theorem State.wr_pending (s : State) (f : Fld) (v : Nat) : (s.wr f v).pending = s.pending := rfl
@[simp] theorem State.wr_out (s : State) (f : Fld) (v : Nat) : (s.wr f v).out = s.out := rfl
@[simp] theorem State.wr_inbox (s : State) (f : Fld) (v : Nat) : (s.wr f v).inbox = s.inbox := rfl
@[simp] theorem State.wr_freeCtr (s : State) (f : Fld) (v : Nat) : (s.wr f v).freeCtr = s.freeCtr := rfl
@[simp] theorem State.wr_clock (s : State) (f : Fld) (v : Nat) : (s.wr f v).clock = s.clock := rfl
@[simp] theorem State.wr_otp (s : State) (f : Fld) (v : Nat) : (s.wr f v).otp = s.otp := rfl
@[simp] theorem State.wr_weave (s : State) (f : Fld) (v : Nat) : (s.wr f v).weave = s.weave := rfl
@[simp] theorem State.wr_eq (s : State) (f : Fld) (v : Nat) : (s.wr f v).eq = s.eq := rfl
@[simp] theorem State.wr_mg (s : State) (f : Fld) (v : Nat) : (s.wr f v).mg = s.mg := rfl
@[simp] theorem State.wr_links (s : State) (f : Fld) (v : Nat) : (s.wr f v).links = s.links := rfl
@[simp] theorem State.wr_mem (s : State) (f : Fld) (v : Nat) : (s.wr f v).mem = s.mem := rfl
@[simp] theorem State.wr_pair (s : State) (f : Fld) (v : Nat) : (s.wr f v).pair = s.pair := rfl
@[simp] theorem State.wr_bridge (s : State) (f : Fld) (v : Nat) : (s.wr f v).bridge = s.bridge := rfl
@[simp] theorem State.wr_slath (s : State) (f : Fld) (v : Nat) : (s.wr f v).slath = s.slath := rfl
@[simp] theorem State.wr_outs (s : State) (f : Fld) (v : Nat) : (s.wr f v).outs = s.outs := rfl
@[simp] theorem State.wr_tm (s : State) (f : Fld) (v : Nat) : (s.wr f v).tm = s.tm := rfl
@[simp] theorem State.wr_usb (s : State) (f : Fld) (v : Nat) : (s.wr f v).usb = s.usb := rfl
@[simp] theorem State.wr_wv (s : State) (f : Fld) (v : Nat) : (s.wr f v).wv = s.wv := rfl
@[simp] theorem State.wr_can (s : State) (f : Fld) (v : Nat) : (s.wr f v).can = s.can := rfl
@[simp] theorem State.wr_pow (s : State) (f : Fld) (v : Nat) : (s.wr f v).pow = s.pow := rfl
@[simp] theorem State.wr_sup (s : State) (f : Fld) (v : Nat) : (s.wr f v).sup = s.sup := rfl
@[simp] theorem State.wr_store (s : State) (f : Fld) (v : Nat) : (s.wr f v).store = s.store := rfl
@[simp] theorem State.wr_mt (s : State) (f : Fld) (v : Nat) : (s.wr f v).mt = s.mt := rfl
@[simp] theorem State.wr_fw (s : State) (f : Fld) (v : Nat) : (s.wr f v).fw = s.fw := rfl
@[simp] theorem State.wr_we (s : State) (f : Fld) (v : Nat) : (s.wr f v).we = s.we := rfl
@[simp] theorem State.wr_jtag (s : State) (f : Fld) (v : Nat) : (s.wr f v).jtag = s.jtag := rfl

@[simp] theorem State.bumpBy_pending (s : State) (f : Fld) (n : Nat) : (s.bumpBy f n).pending = s.pending := rfl
@[simp] theorem State.bumpBy_out (s : State) (f : Fld) (n : Nat) : (s.bumpBy f n).out = s.out := rfl
@[simp] theorem State.bumpBy_inbox (s : State) (f : Fld) (n : Nat) : (s.bumpBy f n).inbox = s.inbox := rfl
@[simp] theorem State.bumpBy_freeCtr (s : State) (f : Fld) (n : Nat) : (s.bumpBy f n).freeCtr = s.freeCtr := rfl
@[simp] theorem State.bumpBy_clock (s : State) (f : Fld) (n : Nat) : (s.bumpBy f n).clock = s.clock := rfl
@[simp] theorem State.bumpBy_otp (s : State) (f : Fld) (n : Nat) : (s.bumpBy f n).otp = s.otp := rfl
@[simp] theorem State.bumpBy_weave (s : State) (f : Fld) (n : Nat) : (s.bumpBy f n).weave = s.weave := rfl
@[simp] theorem State.bumpBy_eq (s : State) (f : Fld) (n : Nat) : (s.bumpBy f n).eq = s.eq := rfl
@[simp] theorem State.bumpBy_mg (s : State) (f : Fld) (n : Nat) : (s.bumpBy f n).mg = s.mg := rfl
@[simp] theorem State.bumpBy_links (s : State) (f : Fld) (n : Nat) : (s.bumpBy f n).links = s.links := rfl
@[simp] theorem State.bumpBy_mem (s : State) (f : Fld) (n : Nat) : (s.bumpBy f n).mem = s.mem := rfl
@[simp] theorem State.bumpBy_pair (s : State) (f : Fld) (n : Nat) : (s.bumpBy f n).pair = s.pair := rfl
@[simp] theorem State.bumpBy_bridge (s : State) (f : Fld) (n : Nat) : (s.bumpBy f n).bridge = s.bridge := rfl
@[simp] theorem State.bumpBy_slath (s : State) (f : Fld) (n : Nat) : (s.bumpBy f n).slath = s.slath := rfl
@[simp] theorem State.bumpBy_outs (s : State) (f : Fld) (n : Nat) : (s.bumpBy f n).outs = s.outs := rfl
@[simp] theorem State.bumpBy_tm (s : State) (f : Fld) (n : Nat) : (s.bumpBy f n).tm = s.tm := rfl
@[simp] theorem State.bumpBy_usb (s : State) (f : Fld) (n : Nat) : (s.bumpBy f n).usb = s.usb := rfl
@[simp] theorem State.bumpBy_wv (s : State) (f : Fld) (n : Nat) : (s.bumpBy f n).wv = s.wv := rfl
@[simp] theorem State.bumpBy_can (s : State) (f : Fld) (n : Nat) : (s.bumpBy f n).can = s.can := rfl
@[simp] theorem State.bumpBy_pow (s : State) (f : Fld) (n : Nat) : (s.bumpBy f n).pow = s.pow := rfl
@[simp] theorem State.bumpBy_sup (s : State) (f : Fld) (n : Nat) : (s.bumpBy f n).sup = s.sup := rfl
@[simp] theorem State.bumpBy_store (s : State) (f : Fld) (n : Nat) : (s.bumpBy f n).store = s.store := rfl
@[simp] theorem State.bumpBy_mt (s : State) (f : Fld) (n : Nat) : (s.bumpBy f n).mt = s.mt := rfl
@[simp] theorem State.bumpBy_fw (s : State) (f : Fld) (n : Nat) : (s.bumpBy f n).fw = s.fw := rfl
@[simp] theorem State.bumpBy_we (s : State) (f : Fld) (n : Nat) : (s.bumpBy f n).we = s.we := rfl
@[simp] theorem State.bumpBy_jtag (s : State) (f : Fld) (n : Nat) : (s.bumpBy f n).jtag = s.jtag := rfl

@[simp] theorem State.bump_pending (s : State) (f : Fld) : (s.bump f).pending = s.pending := rfl
@[simp] theorem State.bump_out (s : State) (f : Fld) : (s.bump f).out = s.out := rfl
@[simp] theorem State.bump_inbox (s : State) (f : Fld) : (s.bump f).inbox = s.inbox := rfl
@[simp] theorem State.bump_freeCtr (s : State) (f : Fld) : (s.bump f).freeCtr = s.freeCtr := rfl
@[simp] theorem State.bump_clock (s : State) (f : Fld) : (s.bump f).clock = s.clock := rfl
@[simp] theorem State.bump_otp (s : State) (f : Fld) : (s.bump f).otp = s.otp := rfl
@[simp] theorem State.bump_weave (s : State) (f : Fld) : (s.bump f).weave = s.weave := rfl
@[simp] theorem State.bump_eq (s : State) (f : Fld) : (s.bump f).eq = s.eq := rfl
@[simp] theorem State.bump_mg (s : State) (f : Fld) : (s.bump f).mg = s.mg := rfl
@[simp] theorem State.bump_links (s : State) (f : Fld) : (s.bump f).links = s.links := rfl
@[simp] theorem State.bump_mem (s : State) (f : Fld) : (s.bump f).mem = s.mem := rfl
@[simp] theorem State.bump_pair (s : State) (f : Fld) : (s.bump f).pair = s.pair := rfl
@[simp] theorem State.bump_bridge (s : State) (f : Fld) : (s.bump f).bridge = s.bridge := rfl
@[simp] theorem State.bump_slath (s : State) (f : Fld) : (s.bump f).slath = s.slath := rfl
@[simp] theorem State.bump_outs (s : State) (f : Fld) : (s.bump f).outs = s.outs := rfl
@[simp] theorem State.bump_tm (s : State) (f : Fld) : (s.bump f).tm = s.tm := rfl
@[simp] theorem State.bump_usb (s : State) (f : Fld) : (s.bump f).usb = s.usb := rfl
@[simp] theorem State.bump_wv (s : State) (f : Fld) : (s.bump f).wv = s.wv := rfl
@[simp] theorem State.bump_can (s : State) (f : Fld) : (s.bump f).can = s.can := rfl
@[simp] theorem State.bump_pow (s : State) (f : Fld) : (s.bump f).pow = s.pow := rfl
@[simp] theorem State.bump_sup (s : State) (f : Fld) : (s.bump f).sup = s.sup := rfl
@[simp] theorem State.bump_store (s : State) (f : Fld) : (s.bump f).store = s.store := rfl
@[simp] theorem State.bump_mt (s : State) (f : Fld) : (s.bump f).mt = s.mt := rfl
@[simp] theorem State.bump_fw (s : State) (f : Fld) : (s.bump f).fw = s.fw := rfl
@[simp] theorem State.bump_we (s : State) (f : Fld) : (s.bump f).we = s.we := rfl
@[simp] theorem State.bump_jtag (s : State) (f : Fld) : (s.bump f).jtag = s.jtag := rfl

/-! ### Outputs, free values, ticks -/

@[simp] theorem State.emit_pending (s : State) (x : Out) : (s.emit x).pending = s.pending := rfl
@[simp] theorem State.emit_regs (s : State) (x : Out) : (s.emit x).regs = s.regs := rfl
@[simp] theorem State.emit_inbox (s : State) (x : Out) : (s.emit x).inbox = s.inbox := rfl
@[simp] theorem State.emit_freeCtr (s : State) (x : Out) : (s.emit x).freeCtr = s.freeCtr := rfl
@[simp] theorem State.emit_clock (s : State) (x : Out) : (s.emit x).clock = s.clock := rfl
@[simp] theorem State.emit_otp (s : State) (x : Out) : (s.emit x).otp = s.otp := rfl
@[simp] theorem State.emit_weave (s : State) (x : Out) : (s.emit x).weave = s.weave := rfl
@[simp] theorem State.emit_eq (s : State) (x : Out) : (s.emit x).eq = s.eq := rfl
@[simp] theorem State.emit_mg (s : State) (x : Out) : (s.emit x).mg = s.mg := rfl
@[simp] theorem State.emit_links (s : State) (x : Out) : (s.emit x).links = s.links := rfl
@[simp] theorem State.emit_mem (s : State) (x : Out) : (s.emit x).mem = s.mem := rfl
@[simp] theorem State.emit_pair (s : State) (x : Out) : (s.emit x).pair = s.pair := rfl
@[simp] theorem State.emit_bridge (s : State) (x : Out) : (s.emit x).bridge = s.bridge := rfl
@[simp] theorem State.emit_slath (s : State) (x : Out) : (s.emit x).slath = s.slath := rfl
@[simp] theorem State.emit_outs (s : State) (x : Out) : (s.emit x).outs = s.outs := rfl
@[simp] theorem State.emit_tm (s : State) (x : Out) : (s.emit x).tm = s.tm := rfl
@[simp] theorem State.emit_usb (s : State) (x : Out) : (s.emit x).usb = s.usb := rfl
@[simp] theorem State.emit_wv (s : State) (x : Out) : (s.emit x).wv = s.wv := rfl
@[simp] theorem State.emit_can (s : State) (x : Out) : (s.emit x).can = s.can := rfl
@[simp] theorem State.emit_pow (s : State) (x : Out) : (s.emit x).pow = s.pow := rfl
@[simp] theorem State.emit_sup (s : State) (x : Out) : (s.emit x).sup = s.sup := rfl
@[simp] theorem State.emit_store (s : State) (x : Out) : (s.emit x).store = s.store := rfl
@[simp] theorem State.emit_mt (s : State) (x : Out) : (s.emit x).mt = s.mt := rfl
@[simp] theorem State.emit_fw (s : State) (x : Out) : (s.emit x).fw = s.fw := rfl
@[simp] theorem State.emit_we (s : State) (x : Out) : (s.emit x).we = s.we := rfl
@[simp] theorem State.emit_jtag (s : State) (x : Out) : (s.emit x).jtag = s.jtag := rfl

theorem State.emit_out (s : State) (x : Out) : (s.emit x).out = s.out ++ if s.sends x then [x] else [] := rfl

/-- An output that no PLL feeds and ROLE does not hold always leaves. -/
theorem State.sends_of_free (s : State) (x : Out) (hp : x.pll = none) (hh : x.held = false) : s.sends x = true := by
  simp [State.sends, hp, hh]

/-- What is sent is appended to what has left. -/
theorem State.emit_out_sent (s : State) (x : Out) (h : s.sends x = true) : (s.emit x).out = s.out ++ [x] := by
  rw [State.emit_out, if_pos h]

/-- What is held back is lost (R384, R403). -/
theorem State.emit_out_held (s : State) (x : Out) (h : s.sends x = false) : (s.emit x).out = s.out := by
  simp [State.emit_out, h]

@[simp] theorem State.emit_out_answer (s : State) (src : Src) (st : Status) (d : List Byte) :
    (s.emit (.answer src st d)).out = s.out ++ [.answer src st d] := s.emit_out_sent _ (s.sends_of_free _ rfl rfl)

@[simp] theorem State.used_pending (s : State) : (s.used).pending = s.pending := rfl
@[simp] theorem State.used_regs (s : State) : (s.used).regs = s.regs := rfl
@[simp] theorem State.used_out (s : State) : (s.used).out = s.out := rfl
@[simp] theorem State.used_inbox (s : State) : (s.used).inbox = s.inbox := rfl
@[simp] theorem State.used_clock (s : State) : (s.used).clock = s.clock := rfl
@[simp] theorem State.used_otp (s : State) : (s.used).otp = s.otp := rfl
@[simp] theorem State.used_weave (s : State) : (s.used).weave = s.weave := rfl
@[simp] theorem State.used_eq (s : State) : (s.used).eq = s.eq := rfl
@[simp] theorem State.used_mg (s : State) : (s.used).mg = s.mg := rfl
@[simp] theorem State.used_links (s : State) : (s.used).links = s.links := rfl
@[simp] theorem State.used_mem (s : State) : (s.used).mem = s.mem := rfl
@[simp] theorem State.used_pair (s : State) : (s.used).pair = s.pair := rfl
@[simp] theorem State.used_bridge (s : State) : (s.used).bridge = s.bridge := rfl
@[simp] theorem State.used_slath (s : State) : (s.used).slath = s.slath := rfl
@[simp] theorem State.used_outs (s : State) : (s.used).outs = s.outs := rfl
@[simp] theorem State.used_tm (s : State) : (s.used).tm = s.tm := rfl
@[simp] theorem State.used_usb (s : State) : (s.used).usb = s.usb := rfl
@[simp] theorem State.used_wv (s : State) : (s.used).wv = s.wv := rfl
@[simp] theorem State.used_can (s : State) : (s.used).can = s.can := rfl
@[simp] theorem State.used_pow (s : State) : (s.used).pow = s.pow := rfl
@[simp] theorem State.used_sup (s : State) : (s.used).sup = s.sup := rfl
@[simp] theorem State.used_store (s : State) : (s.used).store = s.store := rfl
@[simp] theorem State.used_mt (s : State) : (s.used).mt = s.mt := rfl
@[simp] theorem State.used_fw (s : State) : (s.used).fw = s.fw := rfl
@[simp] theorem State.used_we (s : State) : (s.used).we = s.we := rfl
@[simp] theorem State.used_jtag (s : State) : (s.used).jtag = s.jtag := rfl

@[simp] theorem State.ticks_pending (s : State) (n : Nat) : (s.ticks n).pending = s.pending := rfl
@[simp] theorem State.ticks_regs (s : State) (n : Nat) : (s.ticks n).regs = s.regs := rfl
@[simp] theorem State.ticks_out (s : State) (n : Nat) : (s.ticks n).out = s.out := rfl
@[simp] theorem State.ticks_inbox (s : State) (n : Nat) : (s.ticks n).inbox = s.inbox := rfl
@[simp] theorem State.ticks_freeCtr (s : State) (n : Nat) : (s.ticks n).freeCtr = s.freeCtr := rfl
@[simp] theorem State.ticks_otp (s : State) (n : Nat) : (s.ticks n).otp = s.otp := rfl
@[simp] theorem State.ticks_weave (s : State) (n : Nat) : (s.ticks n).weave = s.weave := rfl
@[simp] theorem State.ticks_eq (s : State) (n : Nat) : (s.ticks n).eq = s.eq := rfl
@[simp] theorem State.ticks_mg (s : State) (n : Nat) : (s.ticks n).mg = s.mg := rfl
@[simp] theorem State.ticks_links (s : State) (n : Nat) : (s.ticks n).links = s.links := rfl
@[simp] theorem State.ticks_mem (s : State) (n : Nat) : (s.ticks n).mem = s.mem := rfl
@[simp] theorem State.ticks_pair (s : State) (n : Nat) : (s.ticks n).pair = s.pair := rfl
@[simp] theorem State.ticks_bridge (s : State) (n : Nat) : (s.ticks n).bridge = s.bridge := rfl
@[simp] theorem State.ticks_slath (s : State) (n : Nat) : (s.ticks n).slath = s.slath := rfl
@[simp] theorem State.ticks_outs (s : State) (n : Nat) : (s.ticks n).outs = s.outs := rfl
@[simp] theorem State.ticks_tm (s : State) (n : Nat) : (s.ticks n).tm = s.tm := rfl
@[simp] theorem State.ticks_usb (s : State) (n : Nat) : (s.ticks n).usb = s.usb := rfl
@[simp] theorem State.ticks_wv (s : State) (n : Nat) : (s.ticks n).wv = s.wv := rfl
@[simp] theorem State.ticks_can (s : State) (n : Nat) : (s.ticks n).can = s.can := rfl
@[simp] theorem State.ticks_pow (s : State) (n : Nat) : (s.ticks n).pow = s.pow := rfl
@[simp] theorem State.ticks_sup (s : State) (n : Nat) : (s.ticks n).sup = s.sup := rfl
@[simp] theorem State.ticks_store (s : State) (n : Nat) : (s.ticks n).store = s.store := rfl
@[simp] theorem State.ticks_mt (s : State) (n : Nat) : (s.ticks n).mt = s.mt := rfl
@[simp] theorem State.ticks_fw (s : State) (n : Nat) : (s.ticks n).fw = s.fw := rfl
@[simp] theorem State.ticks_we (s : State) (n : Nat) : (s.ticks n).we = s.we := rfl
@[simp] theorem State.ticks_jtag (s : State) (n : Nat) : (s.ticks n).jtag = s.jtag := rfl

/-! ### Units held by index -/

@[simp] theorem State.setLink_pending (s : State) (p : Nat) (l : LinkSt) : (s.setLink p l).pending = s.pending := rfl
@[simp] theorem State.setLink_regs (s : State) (p : Nat) (l : LinkSt) : (s.setLink p l).regs = s.regs := rfl
@[simp] theorem State.setLink_out (s : State) (p : Nat) (l : LinkSt) : (s.setLink p l).out = s.out := rfl
@[simp] theorem State.setLink_inbox (s : State) (p : Nat) (l : LinkSt) : (s.setLink p l).inbox = s.inbox := rfl
@[simp] theorem State.setLink_freeCtr (s : State) (p : Nat) (l : LinkSt) : (s.setLink p l).freeCtr = s.freeCtr := rfl
@[simp] theorem State.setLink_clock (s : State) (p : Nat) (l : LinkSt) : (s.setLink p l).clock = s.clock := rfl
@[simp] theorem State.setLink_otp (s : State) (p : Nat) (l : LinkSt) : (s.setLink p l).otp = s.otp := rfl
@[simp] theorem State.setLink_weave (s : State) (p : Nat) (l : LinkSt) : (s.setLink p l).weave = s.weave := rfl
@[simp] theorem State.setLink_eq (s : State) (p : Nat) (l : LinkSt) : (s.setLink p l).eq = s.eq := rfl
@[simp] theorem State.setLink_mg (s : State) (p : Nat) (l : LinkSt) : (s.setLink p l).mg = s.mg := rfl
@[simp] theorem State.setLink_mem (s : State) (p : Nat) (l : LinkSt) : (s.setLink p l).mem = s.mem := rfl
@[simp] theorem State.setLink_pair (s : State) (p : Nat) (l : LinkSt) : (s.setLink p l).pair = s.pair := rfl
@[simp] theorem State.setLink_bridge (s : State) (p : Nat) (l : LinkSt) : (s.setLink p l).bridge = s.bridge := rfl
@[simp] theorem State.setLink_slath (s : State) (p : Nat) (l : LinkSt) : (s.setLink p l).slath = s.slath := rfl
@[simp] theorem State.setLink_outs (s : State) (p : Nat) (l : LinkSt) : (s.setLink p l).outs = s.outs := rfl
@[simp] theorem State.setLink_tm (s : State) (p : Nat) (l : LinkSt) : (s.setLink p l).tm = s.tm := rfl
@[simp] theorem State.setLink_usb (s : State) (p : Nat) (l : LinkSt) : (s.setLink p l).usb = s.usb := rfl
@[simp] theorem State.setLink_wv (s : State) (p : Nat) (l : LinkSt) : (s.setLink p l).wv = s.wv := rfl
@[simp] theorem State.setLink_can (s : State) (p : Nat) (l : LinkSt) : (s.setLink p l).can = s.can := rfl
@[simp] theorem State.setLink_pow (s : State) (p : Nat) (l : LinkSt) : (s.setLink p l).pow = s.pow := rfl
@[simp] theorem State.setLink_sup (s : State) (p : Nat) (l : LinkSt) : (s.setLink p l).sup = s.sup := rfl
@[simp] theorem State.setLink_store (s : State) (p : Nat) (l : LinkSt) : (s.setLink p l).store = s.store := rfl
@[simp] theorem State.setLink_mt (s : State) (p : Nat) (l : LinkSt) : (s.setLink p l).mt = s.mt := rfl
@[simp] theorem State.setLink_fw (s : State) (p : Nat) (l : LinkSt) : (s.setLink p l).fw = s.fw := rfl
@[simp] theorem State.setLink_we (s : State) (p : Nat) (l : LinkSt) : (s.setLink p l).we = s.we := rfl
@[simp] theorem State.setLink_jtag (s : State) (p : Nat) (l : LinkSt) : (s.setLink p l).jtag = s.jtag := rfl

@[simp] theorem State.setOut_pending (s : State) (n : Nat) (x : OutSt) : (s.setOut n x).pending = s.pending := rfl
@[simp] theorem State.setOut_regs (s : State) (n : Nat) (x : OutSt) : (s.setOut n x).regs = s.regs := rfl
@[simp] theorem State.setOut_out (s : State) (n : Nat) (x : OutSt) : (s.setOut n x).out = s.out := rfl
@[simp] theorem State.setOut_inbox (s : State) (n : Nat) (x : OutSt) : (s.setOut n x).inbox = s.inbox := rfl
@[simp] theorem State.setOut_freeCtr (s : State) (n : Nat) (x : OutSt) : (s.setOut n x).freeCtr = s.freeCtr := rfl
@[simp] theorem State.setOut_clock (s : State) (n : Nat) (x : OutSt) : (s.setOut n x).clock = s.clock := rfl
@[simp] theorem State.setOut_otp (s : State) (n : Nat) (x : OutSt) : (s.setOut n x).otp = s.otp := rfl
@[simp] theorem State.setOut_weave (s : State) (n : Nat) (x : OutSt) : (s.setOut n x).weave = s.weave := rfl
@[simp] theorem State.setOut_eq (s : State) (n : Nat) (x : OutSt) : (s.setOut n x).eq = s.eq := rfl
@[simp] theorem State.setOut_mg (s : State) (n : Nat) (x : OutSt) : (s.setOut n x).mg = s.mg := rfl
@[simp] theorem State.setOut_links (s : State) (n : Nat) (x : OutSt) : (s.setOut n x).links = s.links := rfl
@[simp] theorem State.setOut_mem (s : State) (n : Nat) (x : OutSt) : (s.setOut n x).mem = s.mem := rfl
@[simp] theorem State.setOut_pair (s : State) (n : Nat) (x : OutSt) : (s.setOut n x).pair = s.pair := rfl
@[simp] theorem State.setOut_bridge (s : State) (n : Nat) (x : OutSt) : (s.setOut n x).bridge = s.bridge := rfl
@[simp] theorem State.setOut_slath (s : State) (n : Nat) (x : OutSt) : (s.setOut n x).slath = s.slath := rfl
@[simp] theorem State.setOut_tm (s : State) (n : Nat) (x : OutSt) : (s.setOut n x).tm = s.tm := rfl
@[simp] theorem State.setOut_usb (s : State) (n : Nat) (x : OutSt) : (s.setOut n x).usb = s.usb := rfl
@[simp] theorem State.setOut_wv (s : State) (n : Nat) (x : OutSt) : (s.setOut n x).wv = s.wv := rfl
@[simp] theorem State.setOut_can (s : State) (n : Nat) (x : OutSt) : (s.setOut n x).can = s.can := rfl
@[simp] theorem State.setOut_pow (s : State) (n : Nat) (x : OutSt) : (s.setOut n x).pow = s.pow := rfl
@[simp] theorem State.setOut_sup (s : State) (n : Nat) (x : OutSt) : (s.setOut n x).sup = s.sup := rfl
@[simp] theorem State.setOut_store (s : State) (n : Nat) (x : OutSt) : (s.setOut n x).store = s.store := rfl
@[simp] theorem State.setOut_mt (s : State) (n : Nat) (x : OutSt) : (s.setOut n x).mt = s.mt := rfl
@[simp] theorem State.setOut_fw (s : State) (n : Nat) (x : OutSt) : (s.setOut n x).fw = s.fw := rfl
@[simp] theorem State.setOut_we (s : State) (n : Nat) (x : OutSt) : (s.setOut n x).we = s.we := rfl
@[simp] theorem State.setOut_jtag (s : State) (n : Nat) (x : OutSt) : (s.setOut n x).jtag = s.jtag := rfl

/-! ### Reads of registers after writes -/

@[simp] theorem State.reg_setReg_same (s : State) (k : Nat) (v : Word) : (s.setReg k v).reg k = v := Tbl.get_put_same _ _ _ _

theorem State.reg_setReg_other (s : State) {j k : Nat} (h : j ≠ k) (v : Word) : (s.setReg k v).reg j = s.reg j :=
  Tbl.get_put_other _ _ h _ _

theorem State.reg_wr_other (s : State) (f : Fld) (v : Nat) {k : Nat} (h : k ≠ f.key) : (s.wr f v).reg k = s.reg k :=
  s.reg_setReg_other h _

theorem State.rd_wr_other (s : State) (f g : Fld) (v : Nat) (h : g.key ≠ f.key) : (s.wr f v).rd g = s.rd g := by
  simp only [State.rd, s.reg_wr_other f v h]

theorem State.reg_bumpBy_other (s : State) (f : Fld) (n : Nat) {k : Nat} (h : k ≠ f.key) : (s.bumpBy f n).reg k = s.reg k :=
  s.reg_wr_other f _ h

theorem State.reg_bump_other (s : State) (f : Fld) {k : Nat} (h : k ≠ f.key) : (s.bump f).reg k = s.reg k := s.reg_wr_other f _ h

@[simp] theorem State.reg_emit (s : State) (x : Out) (k : Nat) : (s.emit x).reg k = s.reg k := rfl
@[simp] theorem State.rd_emit (s : State) (x : Out) (f : Fld) : (s.emit x).rd f = s.rd f := rfl
@[simp] theorem State.on_emit (s : State) (x : Out) (f : Fld) : (s.emit x).on f = s.on f := rfl
@[simp] theorem State.reg_used (s : State) (k : Nat) : s.used.reg k = s.reg k := rfl
@[simp] theorem State.reg_ticks (s : State) (n k : Nat) : (s.ticks n).reg k = s.reg k := rfl
@[simp] theorem State.rd_ticks (s : State) (n : Nat) (f : Fld) : (s.ticks n).rd f = s.rd f := rfl
@[simp] theorem State.reg_setLink (s : State) (p : Nat) (l : LinkSt) (k : Nat) : (s.setLink p l).reg k = s.reg k := rfl
@[simp] theorem State.reg_setOut (s : State) (n : Nat) (x : OutSt) (k : Nat) : (s.setOut n x).reg k = s.reg k := rfl

@[simp] theorem State.link_setLink_same (s : State) (p : Nat) (l : LinkSt) : (s.setLink p l).link p = l := Tbl.get_put_same _ _ _ _

theorem State.link_setLink_other (s : State) {p q : Nat} (h : q ≠ p) (l : LinkSt) : (s.setLink p l).link q = s.link q :=
  Tbl.get_put_other _ _ h _ _

@[simp] theorem State.outOf_setOut_same (s : State) (n : Nat) (x : OutSt) : (s.setOut n x).outOf n = x := Tbl.get_put_same _ _ _ _

theorem State.outOf_setOut_other (s : State) {m n : Nat} (h : m ≠ n) (x : OutSt) : (s.setOut n x).outOf m = s.outOf m :=
  Tbl.get_put_other _ _ h _ _

/-! ### Bit fields -/

/-- What a field reads as after it was written: the low bits of the value. -/
theorem bitsOf_setBits_same (n lo w v : Nat) : bitsOf (setBits n lo w v) lo w = v % 2 ^ w := by
  unfold setBits bitsOf
  have hp : 0 < 2 ^ lo := Nat.pos_of_ne_zero (by simp)
  have hw : 0 < 2 ^ w := Nat.pos_of_ne_zero (by simp)
  have e : n = 2 ^ lo * (n / 2 ^ lo) + n % 2 ^ lo := (Nat.div_add_mod n _).symm
  have f : n / 2 ^ lo = 2 ^ w * (n / 2 ^ lo / 2 ^ w) + n / 2 ^ lo % 2 ^ w := (Nat.div_add_mod _ _).symm
  have key : n - n / 2 ^ lo % 2 ^ w * 2 ^ lo + v % 2 ^ w * 2 ^ lo
      = n % 2 ^ lo + 2 ^ lo * (v % 2 ^ w + 2 ^ w * (n / 2 ^ lo / 2 ^ w)) := by
    generalize n / 2 ^ lo = q at *
    generalize n % 2 ^ lo = r at *
    generalize q / 2 ^ w = a at *
    generalize q % 2 ^ w = b at *
    generalize v % 2 ^ w = c at *
    subst e
    subst f
    have : 2 ^ lo * (2 ^ w * a + b) + r - b * 2 ^ lo = 2 ^ lo * (2 ^ w * a) + r := by
      rw [Nat.mul_add, Nat.mul_comm b]
      omega
    rw [this, Nat.mul_add, Nat.mul_comm c]
    omega
  rw [key, Nat.add_mul_div_left _ _ hp, Nat.div_eq_of_lt (Nat.mod_lt _ hp), Nat.zero_add, Nat.add_mul_mod_self_left,
    Nat.mod_mod]

/-- A field that lies within 32 bits reads as the low bits of what was written to it. -/
theorem State.rd_wr_same (s : State) (f : Fld) (v : Nat) (h : f.lo + f.width ≤ 32) : (s.wr f v).rd f = v % 2 ^ f.width := by
  have red : ∀ n : Nat, bitsOf (n % 2 ^ 32) f.lo f.width = bitsOf n f.lo f.width := by
    intro n
    unfold bitsOf
    have e : (2 : Nat) ^ 32 = 2 ^ f.lo * 2 ^ (32 - f.lo) := by rw [← Nat.pow_add]; congr 1; omega
    rw [e, Nat.mod_mul_right_div_self]
    exact Nat.mod_mod_of_dvd _ (Nat.pow_dvd_pow 2 (by omega))
  simp only [State.rd, State.wr, State.reg_setReg_same, BitVec.toNat_ofNat, red]
  exact bitsOf_setBits_same _ _ _ _

/-- A field in other bits of the same number stays. -/
theorem bitsOf_setBits_other (n lo w v lo' w' : Nat) (h : lo + w ≤ lo' ∨ lo' + w' ≤ lo) :
    bitsOf (setBits n lo w v) lo' w' = bitsOf n lo' w' := by
  have hp : 0 < 2 ^ lo := Nat.pos_of_ne_zero (by simp)
  have key : setBits n lo w v = n % 2 ^ lo + 2 ^ lo * (v % 2 ^ w + 2 ^ w * (n / 2 ^ lo / 2 ^ w)) := by
    unfold setBits bitsOf
    have e : n = 2 ^ lo * (n / 2 ^ lo) + n % 2 ^ lo := (Nat.div_add_mod n _).symm
    have f : n / 2 ^ lo = 2 ^ w * (n / 2 ^ lo / 2 ^ w) + n / 2 ^ lo % 2 ^ w := (Nat.div_add_mod _ _).symm
    generalize n / 2 ^ lo = q at *
    generalize n % 2 ^ lo = r at *
    generalize q / 2 ^ w = a at *
    generalize q % 2 ^ w = b at *
    generalize v % 2 ^ w = c at *
    subst e
    subst f
    have : 2 ^ lo * (2 ^ w * a + b) + r - b * 2 ^ lo = 2 ^ lo * (2 ^ w * a) + r := by
      rw [Nat.mul_add, Nat.mul_comm b]
      omega
    rw [this, Nat.mul_add, Nat.mul_comm c]
    omega
  rcases h with h | h
  · have up : ∀ m, m / 2 ^ lo' = m / 2 ^ lo / 2 ^ w / 2 ^ (lo' - lo - w) := by
      intro m
      rw [Nat.div_div_eq_div_mul, Nat.div_div_eq_div_mul, ← Nat.pow_add, ← Nat.pow_add]
      congr 2
      omega
    unfold bitsOf
    rw [up n, up (setBits n lo w v), key, Nat.add_mul_div_left _ _ hp, Nat.div_eq_of_lt (Nat.mod_lt _ hp), Nat.zero_add,
      Nat.add_mul_div_left _ _ (Nat.pos_of_ne_zero (by simp)), Nat.div_eq_of_lt (Nat.mod_lt _ (Nat.pos_of_ne_zero (by simp))), Nat.zero_add]
  · have low : ∀ m, m / 2 ^ lo' % 2 ^ w' = m % 2 ^ lo / 2 ^ lo' % 2 ^ w' := by
      intro m
      have e : (2 : Nat) ^ lo = 2 ^ lo' * 2 ^ (lo - lo') := by rw [← Nat.pow_add]; congr 1; omega
      rw [e, Nat.mod_mul_right_div_self]
      exact (Nat.mod_mod_of_dvd _ (Nat.pow_dvd_pow 2 (by omega))).symm
    unfold bitsOf
    rw [low n, low (setBits n lo w v), key, Nat.add_mul_mod_self_left, Nat.mod_mod]

/-- A field in other bits of the register that was written reads as before. -/
theorem State.rd_wr_bits (s : State) (f g : Fld) (v : Nat) (hg : g.lo + g.width ≤ 32)
    (h : f.lo + f.width ≤ g.lo ∨ g.lo + g.width ≤ f.lo) : (s.wr f v).rd g = s.rd g := by
  by_cases k : g.key = f.key
  · have red : ∀ n : Nat, bitsOf (n % 2 ^ 32) g.lo g.width = bitsOf n g.lo g.width := by
      intro n
      unfold bitsOf
      have e : (2 : Nat) ^ 32 = 2 ^ g.lo * 2 ^ (32 - g.lo) := by rw [← Nat.pow_add]; congr 1; omega
      rw [e, Nat.mod_mul_right_div_self]
      exact Nat.mod_mod_of_dvd _ (Nat.pow_dvd_pow 2 (by omega))
    have e : (s.wr f v).reg g.key = BitVec.ofNat 32 (setBits (s.reg f.key).toNat f.lo f.width v) := by
      rw [k]
      exact s.reg_setReg_same _ _
    simp only [State.rd, e, BitVec.toNat_ofNat, red]
    rw [bitsOf_setBits_other _ _ _ _ _ _ h, k]
  · exact s.rd_wr_other f g v k

/-! ### The canonical form of the register table -/

theorem State.setReg_wf (s : State) (k : Nat) (v : Word) (w : Tbl.wf regReset s.regs = true) : Tbl.wf regReset (s.setReg k v).regs = true :=
  Tbl.wf_put regReset k v s.regs w

theorem State.wr_wf (s : State) (f : Fld) (v : Nat) (w : Tbl.wf regReset s.regs = true) : Tbl.wf regReset (s.wr f v).regs = true :=
  s.setReg_wf _ _ w

theorem State.bumpBy_wf (s : State) (f : Fld) (n : Nat) (w : Tbl.wf regReset s.regs = true) : Tbl.wf regReset (s.bumpBy f n).regs = true :=
  s.setReg_wf _ _ w

theorem State.reset_regs_wf : Tbl.wf regReset State.reset.regs = true := rfl

end Sys2Proof.Machine
end

