-- ==== Sys2Proof/Laws/Ops.lean ====
section
/-! SUPPORT. What the shared operations over events, notices and alarms do to State, said once for each: `_only` names the fields it may
change, `reg_..._other` the registers. The chains are stated over any fields: a field of the register map in a definitional check makes Lean
compute its reset value, which is slow. -/

namespace Sys2Proof.Machine

theorem State.wr_only (s : State) (f : Fld) (v : Nat) : ∃ r, s.wr f v = { s with regs := r } := ⟨_, rfl⟩

theorem State.bump_only (s : State) (f : Fld) : ∃ r, s.bump f = { s with regs := r } := ⟨_, rfl⟩

theorem State.peak_only (s : State) (f : Fld) (v : Nat) : ∃ r, s.peak f v = { s with regs := r } := by
  unfold State.peak
  split
  · exact ⟨_, rfl⟩
  · exact ⟨_, rfl⟩

theorem State.chain_only (s : State) (f g h i j : Fld) (a b c d e : Nat) :
    ∃ r, ((((s.wr f a).wr g b).wr h c).wr i d).peak j e = { s with regs := r } := by
  obtain ⟨r1, h1⟩ := s.wr_only f a
  rw [h1]
  obtain ⟨r2, h2⟩ := State.wr_only { s with regs := r1 } g b
  rw [h2]
  obtain ⟨r3, h3⟩ := State.wr_only { s with regs := r2 } h c
  rw [h3]
  obtain ⟨r4, h4⟩ := State.wr_only { s with regs := r3 } i d
  rw [h4]
  exact State.peak_only { s with regs := r4 } j e

/-- Showing the queue in its registers changes registers alone. -/
theorem State.eqSync_only (s : State) : ∃ r, s.eqSync = { s with regs := r } := State.chain_only s _ _ _ _ _ _ _ _ _ _

theorem State.bumpIf_only (s : State) (b : Bool) (f : Fld) : ∃ r, (if b then s.bump f else s) = { s with regs := r } := by
  split
  · exact s.bump_only f
  · exact ⟨s.regs, rfl⟩

/-- An entry's admission changes the queue and registers. -/
theorem State.eqPut_only (s : State) (src : Nat) (w0 w2 w3 : Word) : ∃ r e, s.eqPut src w0 w2 w3 = { s with regs := r, eq := e } := by
  unfold State.eqPut
  dsimp only
  obtain ⟨r, h⟩ := s.bumpIf_only (((s.rd (F.EQ_RTs_MODE src) == 1 || s.rd (F.EQ_RTs_MODE src) == 2) && s.noRing (s.rd (F.EQ_RTs_DRING src))))
    F.EQ_NORING_COUNT
  rw [h]
  obtain ⟨r', h'⟩ := State.eqSync_only { s with regs := r, eq := _ }
  exact ⟨_, _, h'⟩

theorem State.lost_only (s : State) (f g : Fld) (v : Nat) : ∃ r, (s.bump f).wr g v = { s with regs := r } := ⟨_, rfl⟩

/-- An entry of an internal producer, admitted or lost, changes the queue and registers. -/
theorem State.admitEntry_only (s : State) (pri src code detail w2 w3 : Nat) :
    ∃ r e, s.admitEntry pri src code detail w2 w3 = { s with regs := r, eq := e } := by
  unfold State.admitEntry
  split
  · exact s.eqPut_only _ _ _ _
  · obtain ⟨r, h⟩ := s.lost_only F.EQ_LOST_COUNT F.EQ_LOSTSRC_SRC (s.rd F.EQ_LOSTSRC_SRC ||| 2 ^ src)
    refine ⟨r, s.eq, ?_⟩
    rw [← h]

/-- An event changes the queue and registers. -/
theorem State.event_only (s : State) (src code detail w2 w3 : Nat) : ∃ r e, s.event src code detail w2 w3 = { s with regs := r, eq := e } :=
  s.admitEntry_only _ _ _ _ _ _

theorem State.wrIf_only (s : State) (b : Bool) (f : Fld) (v : Nat) : ∃ r, (if b then s.wr f v else s) = { s with regs := r } := by
  split
  · exact s.wr_only f v
  · exact ⟨s.regs, rfl⟩

/-- A notice changes registers and the notices that wait at S. -/
theorem State.notice_only (s : State) (kind num : Nat) :
    ∃ r n, s.notice kind num = { s with regs := r, usb := { s.usb with notices := n } } := by
  unfold State.notice
  dsimp only
  obtain ⟨r, h⟩ := s.wrIf_only (s.rd F.US_SSTAT_STATE = 5 && (kind == 1 || kind == 2)) F.US_WAKE_PEND 1
  rw [h]
  split
  · split
    · exact ⟨_, _, rfl⟩
    · obtain ⟨r', h'⟩ := State.bump_only { s with regs := r } F.US_NOTELOST_COUNT
      exact ⟨r', s.usb.notices, h'⟩
  · exact ⟨r, s.usb.notices, rfl⟩

theorem State.wrTwo_only (s : State) (f g : Fld) (a b : Nat) : ∃ r, (s.wr f a).wr g b = { s with regs := r } := ⟨_, rfl⟩

/-- An alarm that starts changes registers, the event queue and the notices that wait at S. -/
theorem State.alarm_only (s : State) (bit : Nat) :
    ∃ r e n, s.alarm bit = { s with regs := r, eq := e, usb := { s.usb with notices := n } } := by
  unfold State.alarm
  split
  · exact ⟨s.regs, s.eq, s.usb.notices, rfl⟩
  · dsimp only
    generalize hx : State.wr (State.wr s _ _) F.NC_ALARM_ALARM _ = x
    have hx' : ∃ r, x = { s with regs := r } := by
      rw [← hx]
      exact s.wrTwo_only _ _ _ _
    obtain ⟨r, rfl⟩ := hx'
    obtain ⟨r1, e1, h1⟩ := State.event_only { s with regs := r } 10 1 bit (State.rd { s with regs := r } F.NC_ALMCOND_COND) 0
    unfold State.mgmtEvent
    rw [h1]
    obtain ⟨r2, n2, h2⟩ := State.notice_only { s with regs := r1, eq := e1 } 1 bit
    exact ⟨r2, e1, n2, h2⟩

/-- An alarm that ends changes registers. -/
theorem State.alarmEnd_only (s : State) (bit : Nat) : ∃ r, s.alarmEnd bit = { s with regs := r } := s.wr_only _ _

/-- A passing alarm changes registers, the event queue and the notices that wait at S. -/
theorem State.alarmOnce_only (s : State) (bit : Nat) :
    ∃ r e n, s.alarmOnce bit = { s with regs := r, eq := e, usb := { s.usb with notices := n } } := by
  obtain ⟨r, e, n, h⟩ := s.alarm_only bit
  obtain ⟨r', h'⟩ := (s.alarm bit).alarmEnd_only bit
  refine ⟨r', e, n, ?_⟩
  unfold State.alarmOnce
  rw [h', h]

/-! ### Their fields, one by one -/

@[simp] theorem State.event_pending (s : State) (src code detail w2 w3 : Nat) : (s.event src code detail w2 w3).pending = s.pending := by
  obtain ⟨r, e, h⟩ := s.event_only src code detail w2 w3
  rw [h]
@[simp] theorem State.event_out (s : State) (src code detail w2 w3 : Nat) : (s.event src code detail w2 w3).out = s.out := by
  obtain ⟨r, e, h⟩ := s.event_only src code detail w2 w3
  rw [h]
@[simp] theorem State.event_inbox (s : State) (src code detail w2 w3 : Nat) : (s.event src code detail w2 w3).inbox = s.inbox := by
  obtain ⟨r, e, h⟩ := s.event_only src code detail w2 w3
  rw [h]
@[simp] theorem State.event_freeCtr (s : State) (src code detail w2 w3 : Nat) : (s.event src code detail w2 w3).freeCtr = s.freeCtr := by
  obtain ⟨r, e, h⟩ := s.event_only src code detail w2 w3
  rw [h]
@[simp] theorem State.event_clock (s : State) (src code detail w2 w3 : Nat) : (s.event src code detail w2 w3).clock = s.clock := by
  obtain ⟨r, e, h⟩ := s.event_only src code detail w2 w3
  rw [h]
@[simp] theorem State.event_otp (s : State) (src code detail w2 w3 : Nat) : (s.event src code detail w2 w3).otp = s.otp := by
  obtain ⟨r, e, h⟩ := s.event_only src code detail w2 w3
  rw [h]
@[simp] theorem State.event_weave (s : State) (src code detail w2 w3 : Nat) : (s.event src code detail w2 w3).weave = s.weave := by
  obtain ⟨r, e, h⟩ := s.event_only src code detail w2 w3
  rw [h]
@[simp] theorem State.event_mg (s : State) (src code detail w2 w3 : Nat) : (s.event src code detail w2 w3).mg = s.mg := by
  obtain ⟨r, e, h⟩ := s.event_only src code detail w2 w3
  rw [h]
@[simp] theorem State.event_links (s : State) (src code detail w2 w3 : Nat) : (s.event src code detail w2 w3).links = s.links := by
  obtain ⟨r, e, h⟩ := s.event_only src code detail w2 w3
  rw [h]
@[simp] theorem State.event_mem (s : State) (src code detail w2 w3 : Nat) : (s.event src code detail w2 w3).mem = s.mem := by
  obtain ⟨r, e, h⟩ := s.event_only src code detail w2 w3
  rw [h]
@[simp] theorem State.event_pair (s : State) (src code detail w2 w3 : Nat) : (s.event src code detail w2 w3).pair = s.pair := by
  obtain ⟨r, e, h⟩ := s.event_only src code detail w2 w3
  rw [h]
@[simp] theorem State.event_bridge (s : State) (src code detail w2 w3 : Nat) : (s.event src code detail w2 w3).bridge = s.bridge := by
  obtain ⟨r, e, h⟩ := s.event_only src code detail w2 w3
  rw [h]
@[simp] theorem State.event_slath (s : State) (src code detail w2 w3 : Nat) : (s.event src code detail w2 w3).slath = s.slath := by
  obtain ⟨r, e, h⟩ := s.event_only src code detail w2 w3
  rw [h]
@[simp] theorem State.event_outs (s : State) (src code detail w2 w3 : Nat) : (s.event src code detail w2 w3).outs = s.outs := by
  obtain ⟨r, e, h⟩ := s.event_only src code detail w2 w3
  rw [h]
@[simp] theorem State.event_tm (s : State) (src code detail w2 w3 : Nat) : (s.event src code detail w2 w3).tm = s.tm := by
  obtain ⟨r, e, h⟩ := s.event_only src code detail w2 w3
  rw [h]
@[simp] theorem State.event_usb (s : State) (src code detail w2 w3 : Nat) : (s.event src code detail w2 w3).usb = s.usb := by
  obtain ⟨r, e, h⟩ := s.event_only src code detail w2 w3
  rw [h]
@[simp] theorem State.event_wv (s : State) (src code detail w2 w3 : Nat) : (s.event src code detail w2 w3).wv = s.wv := by
  obtain ⟨r, e, h⟩ := s.event_only src code detail w2 w3
  rw [h]
@[simp] theorem State.event_can (s : State) (src code detail w2 w3 : Nat) : (s.event src code detail w2 w3).can = s.can := by
  obtain ⟨r, e, h⟩ := s.event_only src code detail w2 w3
  rw [h]
@[simp] theorem State.event_pow (s : State) (src code detail w2 w3 : Nat) : (s.event src code detail w2 w3).pow = s.pow := by
  obtain ⟨r, e, h⟩ := s.event_only src code detail w2 w3
  rw [h]
@[simp] theorem State.event_sup (s : State) (src code detail w2 w3 : Nat) : (s.event src code detail w2 w3).sup = s.sup := by
  obtain ⟨r, e, h⟩ := s.event_only src code detail w2 w3
  rw [h]
@[simp] theorem State.event_store (s : State) (src code detail w2 w3 : Nat) : (s.event src code detail w2 w3).store = s.store := by
  obtain ⟨r, e, h⟩ := s.event_only src code detail w2 w3
  rw [h]
@[simp] theorem State.event_mt (s : State) (src code detail w2 w3 : Nat) : (s.event src code detail w2 w3).mt = s.mt := by
  obtain ⟨r, e, h⟩ := s.event_only src code detail w2 w3
  rw [h]
@[simp] theorem State.event_fw (s : State) (src code detail w2 w3 : Nat) : (s.event src code detail w2 w3).fw = s.fw := by
  obtain ⟨r, e, h⟩ := s.event_only src code detail w2 w3
  rw [h]
@[simp] theorem State.event_we (s : State) (src code detail w2 w3 : Nat) : (s.event src code detail w2 w3).we = s.we := by
  obtain ⟨r, e, h⟩ := s.event_only src code detail w2 w3
  rw [h]
@[simp] theorem State.event_jtag (s : State) (src code detail w2 w3 : Nat) : (s.event src code detail w2 w3).jtag = s.jtag := by
  obtain ⟨r, e, h⟩ := s.event_only src code detail w2 w3
  rw [h]

@[simp] theorem State.notice_pending (s : State) (kind num : Nat) : (s.notice kind num).pending = s.pending := by
  obtain ⟨r, n, h⟩ := s.notice_only kind num
  rw [h]
@[simp] theorem State.notice_out (s : State) (kind num : Nat) : (s.notice kind num).out = s.out := by
  obtain ⟨r, n, h⟩ := s.notice_only kind num
  rw [h]
@[simp] theorem State.notice_inbox (s : State) (kind num : Nat) : (s.notice kind num).inbox = s.inbox := by
  obtain ⟨r, n, h⟩ := s.notice_only kind num
  rw [h]
@[simp] theorem State.notice_freeCtr (s : State) (kind num : Nat) : (s.notice kind num).freeCtr = s.freeCtr := by
  obtain ⟨r, n, h⟩ := s.notice_only kind num
  rw [h]
@[simp] theorem State.notice_clock (s : State) (kind num : Nat) : (s.notice kind num).clock = s.clock := by
  obtain ⟨r, n, h⟩ := s.notice_only kind num
  rw [h]
@[simp] theorem State.notice_otp (s : State) (kind num : Nat) : (s.notice kind num).otp = s.otp := by
  obtain ⟨r, n, h⟩ := s.notice_only kind num
  rw [h]
@[simp] theorem State.notice_weave (s : State) (kind num : Nat) : (s.notice kind num).weave = s.weave := by
  obtain ⟨r, n, h⟩ := s.notice_only kind num
  rw [h]
@[simp] theorem State.notice_eq (s : State) (kind num : Nat) : (s.notice kind num).eq = s.eq := by
  obtain ⟨r, n, h⟩ := s.notice_only kind num
  rw [h]
@[simp] theorem State.notice_mg (s : State) (kind num : Nat) : (s.notice kind num).mg = s.mg := by
  obtain ⟨r, n, h⟩ := s.notice_only kind num
  rw [h]
@[simp] theorem State.notice_links (s : State) (kind num : Nat) : (s.notice kind num).links = s.links := by
  obtain ⟨r, n, h⟩ := s.notice_only kind num
  rw [h]
@[simp] theorem State.notice_mem (s : State) (kind num : Nat) : (s.notice kind num).mem = s.mem := by
  obtain ⟨r, n, h⟩ := s.notice_only kind num
  rw [h]
@[simp] theorem State.notice_pair (s : State) (kind num : Nat) : (s.notice kind num).pair = s.pair := by
  obtain ⟨r, n, h⟩ := s.notice_only kind num
  rw [h]
@[simp] theorem State.notice_bridge (s : State) (kind num : Nat) : (s.notice kind num).bridge = s.bridge := by
  obtain ⟨r, n, h⟩ := s.notice_only kind num
  rw [h]
@[simp] theorem State.notice_slath (s : State) (kind num : Nat) : (s.notice kind num).slath = s.slath := by
  obtain ⟨r, n, h⟩ := s.notice_only kind num
  rw [h]
@[simp] theorem State.notice_outs (s : State) (kind num : Nat) : (s.notice kind num).outs = s.outs := by
  obtain ⟨r, n, h⟩ := s.notice_only kind num
  rw [h]
@[simp] theorem State.notice_tm (s : State) (kind num : Nat) : (s.notice kind num).tm = s.tm := by
  obtain ⟨r, n, h⟩ := s.notice_only kind num
  rw [h]
@[simp] theorem State.notice_wv (s : State) (kind num : Nat) : (s.notice kind num).wv = s.wv := by
  obtain ⟨r, n, h⟩ := s.notice_only kind num
  rw [h]
@[simp] theorem State.notice_can (s : State) (kind num : Nat) : (s.notice kind num).can = s.can := by
  obtain ⟨r, n, h⟩ := s.notice_only kind num
  rw [h]
@[simp] theorem State.notice_pow (s : State) (kind num : Nat) : (s.notice kind num).pow = s.pow := by
  obtain ⟨r, n, h⟩ := s.notice_only kind num
  rw [h]
@[simp] theorem State.notice_sup (s : State) (kind num : Nat) : (s.notice kind num).sup = s.sup := by
  obtain ⟨r, n, h⟩ := s.notice_only kind num
  rw [h]
@[simp] theorem State.notice_store (s : State) (kind num : Nat) : (s.notice kind num).store = s.store := by
  obtain ⟨r, n, h⟩ := s.notice_only kind num
  rw [h]
@[simp] theorem State.notice_mt (s : State) (kind num : Nat) : (s.notice kind num).mt = s.mt := by
  obtain ⟨r, n, h⟩ := s.notice_only kind num
  rw [h]
@[simp] theorem State.notice_fw (s : State) (kind num : Nat) : (s.notice kind num).fw = s.fw := by
  obtain ⟨r, n, h⟩ := s.notice_only kind num
  rw [h]
@[simp] theorem State.notice_we (s : State) (kind num : Nat) : (s.notice kind num).we = s.we := by
  obtain ⟨r, n, h⟩ := s.notice_only kind num
  rw [h]
@[simp] theorem State.notice_jtag (s : State) (kind num : Nat) : (s.notice kind num).jtag = s.jtag := by
  obtain ⟨r, n, h⟩ := s.notice_only kind num
  rw [h]

@[simp] theorem State.alarm_pending (s : State) (bit : Nat) : (s.alarm bit).pending = s.pending := by
  obtain ⟨r, e, n, h⟩ := s.alarm_only bit
  rw [h]
@[simp] theorem State.alarm_out (s : State) (bit : Nat) : (s.alarm bit).out = s.out := by
  obtain ⟨r, e, n, h⟩ := s.alarm_only bit
  rw [h]
@[simp] theorem State.alarm_inbox (s : State) (bit : Nat) : (s.alarm bit).inbox = s.inbox := by
  obtain ⟨r, e, n, h⟩ := s.alarm_only bit
  rw [h]
@[simp] theorem State.alarm_freeCtr (s : State) (bit : Nat) : (s.alarm bit).freeCtr = s.freeCtr := by
  obtain ⟨r, e, n, h⟩ := s.alarm_only bit
  rw [h]
@[simp] theorem State.alarm_clock (s : State) (bit : Nat) : (s.alarm bit).clock = s.clock := by
  obtain ⟨r, e, n, h⟩ := s.alarm_only bit
  rw [h]
@[simp] theorem State.alarm_otp (s : State) (bit : Nat) : (s.alarm bit).otp = s.otp := by
  obtain ⟨r, e, n, h⟩ := s.alarm_only bit
  rw [h]
@[simp] theorem State.alarm_weave (s : State) (bit : Nat) : (s.alarm bit).weave = s.weave := by
  obtain ⟨r, e, n, h⟩ := s.alarm_only bit
  rw [h]
@[simp] theorem State.alarm_mg (s : State) (bit : Nat) : (s.alarm bit).mg = s.mg := by
  obtain ⟨r, e, n, h⟩ := s.alarm_only bit
  rw [h]
@[simp] theorem State.alarm_links (s : State) (bit : Nat) : (s.alarm bit).links = s.links := by
  obtain ⟨r, e, n, h⟩ := s.alarm_only bit
  rw [h]
@[simp] theorem State.alarm_mem (s : State) (bit : Nat) : (s.alarm bit).mem = s.mem := by
  obtain ⟨r, e, n, h⟩ := s.alarm_only bit
  rw [h]
@[simp] theorem State.alarm_pair (s : State) (bit : Nat) : (s.alarm bit).pair = s.pair := by
  obtain ⟨r, e, n, h⟩ := s.alarm_only bit
  rw [h]
@[simp] theorem State.alarm_bridge (s : State) (bit : Nat) : (s.alarm bit).bridge = s.bridge := by
  obtain ⟨r, e, n, h⟩ := s.alarm_only bit
  rw [h]
@[simp] theorem State.alarm_slath (s : State) (bit : Nat) : (s.alarm bit).slath = s.slath := by
  obtain ⟨r, e, n, h⟩ := s.alarm_only bit
  rw [h]
@[simp] theorem State.alarm_outs (s : State) (bit : Nat) : (s.alarm bit).outs = s.outs := by
  obtain ⟨r, e, n, h⟩ := s.alarm_only bit
  rw [h]
@[simp] theorem State.alarm_tm (s : State) (bit : Nat) : (s.alarm bit).tm = s.tm := by
  obtain ⟨r, e, n, h⟩ := s.alarm_only bit
  rw [h]
@[simp] theorem State.alarm_wv (s : State) (bit : Nat) : (s.alarm bit).wv = s.wv := by
  obtain ⟨r, e, n, h⟩ := s.alarm_only bit
  rw [h]
@[simp] theorem State.alarm_can (s : State) (bit : Nat) : (s.alarm bit).can = s.can := by
  obtain ⟨r, e, n, h⟩ := s.alarm_only bit
  rw [h]
@[simp] theorem State.alarm_pow (s : State) (bit : Nat) : (s.alarm bit).pow = s.pow := by
  obtain ⟨r, e, n, h⟩ := s.alarm_only bit
  rw [h]
@[simp] theorem State.alarm_sup (s : State) (bit : Nat) : (s.alarm bit).sup = s.sup := by
  obtain ⟨r, e, n, h⟩ := s.alarm_only bit
  rw [h]
@[simp] theorem State.alarm_store (s : State) (bit : Nat) : (s.alarm bit).store = s.store := by
  obtain ⟨r, e, n, h⟩ := s.alarm_only bit
  rw [h]
@[simp] theorem State.alarm_mt (s : State) (bit : Nat) : (s.alarm bit).mt = s.mt := by
  obtain ⟨r, e, n, h⟩ := s.alarm_only bit
  rw [h]
@[simp] theorem State.alarm_fw (s : State) (bit : Nat) : (s.alarm bit).fw = s.fw := by
  obtain ⟨r, e, n, h⟩ := s.alarm_only bit
  rw [h]
@[simp] theorem State.alarm_we (s : State) (bit : Nat) : (s.alarm bit).we = s.we := by
  obtain ⟨r, e, n, h⟩ := s.alarm_only bit
  rw [h]
@[simp] theorem State.alarm_jtag (s : State) (bit : Nat) : (s.alarm bit).jtag = s.jtag := by
  obtain ⟨r, e, n, h⟩ := s.alarm_only bit
  rw [h]

@[simp] theorem State.alarmOnce_pending (s : State) (bit : Nat) : (s.alarmOnce bit).pending = s.pending := by
  obtain ⟨r, e, n, h⟩ := s.alarmOnce_only bit
  rw [h]
@[simp] theorem State.alarmOnce_out (s : State) (bit : Nat) : (s.alarmOnce bit).out = s.out := by
  obtain ⟨r, e, n, h⟩ := s.alarmOnce_only bit
  rw [h]
@[simp] theorem State.alarmOnce_inbox (s : State) (bit : Nat) : (s.alarmOnce bit).inbox = s.inbox := by
  obtain ⟨r, e, n, h⟩ := s.alarmOnce_only bit
  rw [h]
@[simp] theorem State.alarmOnce_freeCtr (s : State) (bit : Nat) : (s.alarmOnce bit).freeCtr = s.freeCtr := by
  obtain ⟨r, e, n, h⟩ := s.alarmOnce_only bit
  rw [h]
@[simp] theorem State.alarmOnce_clock (s : State) (bit : Nat) : (s.alarmOnce bit).clock = s.clock := by
  obtain ⟨r, e, n, h⟩ := s.alarmOnce_only bit
  rw [h]
@[simp] theorem State.alarmOnce_otp (s : State) (bit : Nat) : (s.alarmOnce bit).otp = s.otp := by
  obtain ⟨r, e, n, h⟩ := s.alarmOnce_only bit
  rw [h]
@[simp] theorem State.alarmOnce_weave (s : State) (bit : Nat) : (s.alarmOnce bit).weave = s.weave := by
  obtain ⟨r, e, n, h⟩ := s.alarmOnce_only bit
  rw [h]
@[simp] theorem State.alarmOnce_mg (s : State) (bit : Nat) : (s.alarmOnce bit).mg = s.mg := by
  obtain ⟨r, e, n, h⟩ := s.alarmOnce_only bit
  rw [h]
@[simp] theorem State.alarmOnce_links (s : State) (bit : Nat) : (s.alarmOnce bit).links = s.links := by
  obtain ⟨r, e, n, h⟩ := s.alarmOnce_only bit
  rw [h]
@[simp] theorem State.alarmOnce_mem (s : State) (bit : Nat) : (s.alarmOnce bit).mem = s.mem := by
  obtain ⟨r, e, n, h⟩ := s.alarmOnce_only bit
  rw [h]
@[simp] theorem State.alarmOnce_pair (s : State) (bit : Nat) : (s.alarmOnce bit).pair = s.pair := by
  obtain ⟨r, e, n, h⟩ := s.alarmOnce_only bit
  rw [h]
@[simp] theorem State.alarmOnce_bridge (s : State) (bit : Nat) : (s.alarmOnce bit).bridge = s.bridge := by
  obtain ⟨r, e, n, h⟩ := s.alarmOnce_only bit
  rw [h]
@[simp] theorem State.alarmOnce_slath (s : State) (bit : Nat) : (s.alarmOnce bit).slath = s.slath := by
  obtain ⟨r, e, n, h⟩ := s.alarmOnce_only bit
  rw [h]
@[simp] theorem State.alarmOnce_outs (s : State) (bit : Nat) : (s.alarmOnce bit).outs = s.outs := by
  obtain ⟨r, e, n, h⟩ := s.alarmOnce_only bit
  rw [h]
@[simp] theorem State.alarmOnce_tm (s : State) (bit : Nat) : (s.alarmOnce bit).tm = s.tm := by
  obtain ⟨r, e, n, h⟩ := s.alarmOnce_only bit
  rw [h]
@[simp] theorem State.alarmOnce_wv (s : State) (bit : Nat) : (s.alarmOnce bit).wv = s.wv := by
  obtain ⟨r, e, n, h⟩ := s.alarmOnce_only bit
  rw [h]
@[simp] theorem State.alarmOnce_can (s : State) (bit : Nat) : (s.alarmOnce bit).can = s.can := by
  obtain ⟨r, e, n, h⟩ := s.alarmOnce_only bit
  rw [h]
@[simp] theorem State.alarmOnce_pow (s : State) (bit : Nat) : (s.alarmOnce bit).pow = s.pow := by
  obtain ⟨r, e, n, h⟩ := s.alarmOnce_only bit
  rw [h]
@[simp] theorem State.alarmOnce_sup (s : State) (bit : Nat) : (s.alarmOnce bit).sup = s.sup := by
  obtain ⟨r, e, n, h⟩ := s.alarmOnce_only bit
  rw [h]
@[simp] theorem State.alarmOnce_store (s : State) (bit : Nat) : (s.alarmOnce bit).store = s.store := by
  obtain ⟨r, e, n, h⟩ := s.alarmOnce_only bit
  rw [h]
@[simp] theorem State.alarmOnce_mt (s : State) (bit : Nat) : (s.alarmOnce bit).mt = s.mt := by
  obtain ⟨r, e, n, h⟩ := s.alarmOnce_only bit
  rw [h]
@[simp] theorem State.alarmOnce_fw (s : State) (bit : Nat) : (s.alarmOnce bit).fw = s.fw := by
  obtain ⟨r, e, n, h⟩ := s.alarmOnce_only bit
  rw [h]
@[simp] theorem State.alarmOnce_we (s : State) (bit : Nat) : (s.alarmOnce bit).we = s.we := by
  obtain ⟨r, e, n, h⟩ := s.alarmOnce_only bit
  rw [h]
@[simp] theorem State.alarmOnce_jtag (s : State) (bit : Nat) : (s.alarmOnce bit).jtag = s.jtag := by
  obtain ⟨r, e, n, h⟩ := s.alarmOnce_only bit
  rw [h]

/-! ### Registers that an event may write -/

theorem State.reg_peak_other (s : State) (f : Fld) (v : Nat) {k : Nat} (h : k ≠ f.key) : (s.peak f v).reg k = s.reg k := by
  unfold State.peak
  split
  · exact s.reg_wr_other f v h
  · rfl

theorem State.reg_chain_other (s : State) (f g h i j : Fld) (a b c d e : Nat) {k : Nat} (hf : k ≠ f.key) (hg : k ≠ g.key) (hh : k ≠ h.key)
    (hi : k ≠ i.key) (hj : k ≠ j.key) : (((((s.wr f a).wr g b).wr h c).wr i d).peak j e).reg k = s.reg k := by
  rw [State.reg_peak_other _ _ _ hj, State.reg_wr_other _ _ _ hi, State.reg_wr_other _ _ _ hh, State.reg_wr_other _ _ _ hg,
    State.reg_wr_other _ _ _ hf]

/-- The registers that show the queue are EQ_STAT and EQ_PEAK. -/
theorem State.reg_eqSync_other (s : State) {k : Nat} (h : k ≠ F.EQ_STAT_OCC.key) (g : k ≠ F.EQ_PEAK_OCC.key) : s.eqSync.reg k = s.reg k :=
  State.reg_chain_other s F.EQ_STAT_OCC F.EQ_STAT_HWMACT F.EQ_STAT_NE F.EQ_STAT_LOCAL F.EQ_PEAK_OCC _ _ _ _ _ h h h h g

theorem State.reg_bumpIf_other (s : State) (b : Bool) (f : Fld) {k : Nat} (h : k ≠ f.key) : (if b then s.bump f else s).reg k = s.reg k := by
  split
  · exact s.reg_bump_other f h
  · rfl

theorem State.reg_with_eq (s : State) (e : EqSt) (k : Nat) : State.reg { s with eq := e } k = s.reg k := rfl

/-- The admission of an entry, or its loss, writes no register but EQ_STAT, EQ_PEAK, EQ_LOST, EQ_LOSTSRC and EQ_NORING. -/
theorem State.reg_admitEntry_other (s : State) (pri src code detail w2 w3 : Nat) {k : Nat} (h1 : k ≠ F.EQ_STAT_OCC.key)
    (h2 : k ≠ F.EQ_PEAK_OCC.key) (h3 : k ≠ F.EQ_LOST_COUNT.key) (h4 : k ≠ F.EQ_LOSTSRC_SRC.key) (h5 : k ≠ F.EQ_NORING_COUNT.key) :
    (s.admitEntry pri src code detail w2 w3).reg k = s.reg k := by
  unfold State.admitEntry
  split
  · unfold State.eqPut
    dsimp only
    rw [State.reg_eqSync_other _ h1 h2, State.reg_with_eq, State.reg_bumpIf_other _ _ _ h5]
  · rw [State.reg_wr_other _ _ _ h4, State.reg_bump_other _ _ h3]

@[simp] theorem State.eqSync_eq (s : State) : s.eqSync.eq = s.eq := by
  obtain ⟨r, h⟩ := s.eqSync_only
  rw [h]

theorem State.eqPut_length (s : State) (src : Nat) (w0 w2 w3 : Word) :
    (s.eqPut src w0 w2 w3).eq.entries.length = s.eq.entries.length + 1 := by
  unfold State.eqPut
  dsimp only
  obtain ⟨r, h⟩ := s.bumpIf_only (((s.rd (F.EQ_RTs_MODE src) == 1 || s.rd (F.EQ_RTs_MODE src) == 2) && s.noRing (s.rd (F.EQ_RTs_DRING src))))
    F.EQ_NORING_COUNT
  rw [h, State.eqSync_eq]
  simp only [List.length_append, List.length_cons, List.length_nil]

/-- An entry leaves at most 4,096 entries where there were at most 4,096 (R342). -/
theorem State.admitEntry_length (s : State) (pri src code detail w2 w3 : Nat) (h : s.eq.entries.length ≤ 4096) :
    (s.admitEntry pri src code detail w2 w3).eq.entries.length ≤ 4096 := by
  unfold State.admitEntry
  split
  · next hl =>
    rw [State.eqPut_length]
    exact hl
  · obtain ⟨r, hr⟩ := s.lost_only F.EQ_LOST_COUNT F.EQ_LOSTSRC_SRC (s.rd F.EQ_LOSTSRC_SRC ||| 2 ^ src)
    rw [hr]
    exact h

/-! ### The canonical form is kept -/

theorem State.peak_wf (s : State) (f : Fld) (v : Nat) (w : Tbl.wf regReset s.regs = true) : Tbl.wf regReset (s.peak f v).regs = true := by
  unfold State.peak
  split
  · exact s.wr_wf f v w
  · exact w

theorem State.chain_wf (s : State) (f g h i j : Fld) (a b c d e : Nat) (w : Tbl.wf regReset s.regs = true) :
    Tbl.wf regReset (((((s.wr f a).wr g b).wr h c).wr i d).peak j e).regs = true :=
  State.peak_wf _ _ _ (State.wr_wf _ _ _ (State.wr_wf _ _ _ (State.wr_wf _ _ _ (s.wr_wf f a w))))

theorem State.eqSync_wf (s : State) (w : Tbl.wf regReset s.regs = true) : Tbl.wf regReset s.eqSync.regs = true :=
  State.chain_wf s F.EQ_STAT_OCC F.EQ_STAT_HWMACT F.EQ_STAT_NE F.EQ_STAT_LOCAL F.EQ_PEAK_OCC _ _ _ _ _ w

theorem State.bumpIf_wf (s : State) (b : Bool) (f : Fld) (w : Tbl.wf regReset s.regs = true) :
    Tbl.wf regReset (if b then s.bump f else s).regs = true := by
  split
  · exact s.bumpBy_wf f 1 w
  · exact w

theorem State.lost_wf (s : State) (f g : Fld) (v : Nat) (w : Tbl.wf regReset s.regs = true) : Tbl.wf regReset ((s.bump f).wr g v).regs = true :=
  State.wr_wf _ _ _ (s.bumpBy_wf f 1 w)

theorem State.regs_with_eq (s : State) (e : EqSt) : State.regs { s with eq := e } = s.regs := rfl

theorem State.admitEntry_wf (s : State) (pri src code detail w2 w3 : Nat) (w : Tbl.wf regReset s.regs = true) :
    Tbl.wf regReset (s.admitEntry pri src code detail w2 w3).regs = true := by
  unfold State.admitEntry
  split
  · unfold State.eqPut
    dsimp only
    exact State.eqSync_wf _ ((State.regs_with_eq _ _).symm ▸ s.bumpIf_wf _ _ w)
  · exact s.lost_wf _ _ _ w

end Sys2Proof.Machine
end

