-- ==== Sys2Proof/WellFormed.lean ====
section
/-! DEFINITION. The well-formed commands: those whose operands have the sizes the spec gives what they stand for. An operand whose type
admits nothing else needs no check. -/

namespace Sys2Proof

open Sys2Proof.Machine

/-- A class and an offset of a register unit (R7): an 8-bit class, a 20-bit offset. -/
def unitAddress (cls off : Nat) : Bool := decide (cls < 256) && decide (off < 2 ^ 20)

/-- A cell's payload (R87). -/
def cellSize (c : Cell) : Bool := decide (c.payload.length ≤ 2048)

/-- A burst of the external master: 1 to 16 beats (R162). -/
def burstSize (beats : List (BitVec 4 × Word)) : Bool := decide (1 ≤ beats.length) && decide (beats.length ≤ 16)

/-- A frame of the mate line carries at most 32 bytes (R405). -/
def mateSize (f : MateFrame) : Bool := decide (f.payload.length ≤ 32)

/-- A card: four OTP slots with hashes of 32 bytes, seven boot flash slots. -/
def cardSize (c : Card) : Bool :=
  decide (c.keys.length ≤ 4) && (c.keys.all fun k => k.1.length == 32) && c.flash.all fun f => decide (f.1 ≤ 6)

/-- The well-formed commands. -/
def Instr.wf : Instr → Bool
  | .registerWrite _ cls off _ => unitAddress cls off
  | .readClearRegister _ cls off => unitAddress cls off
  | .slathBeat _ _ data _ => decide (data.length ≤ 32)
  | .opticsPoll _ (some d) => d.length == 10
  | .hello _ c => cellSize c
  | .cellTrailer _ payload _ _ _ _ => decide (payload.length ≤ 2048)
  | .enumerate _ c => cellSize c
  | .report c => cellSize c
  | .enumerateReturn c => cellSize c
  | .postable _ c => cellSize c
  | .assign _ c => cellSize c
  | .assigned c => cellSize c
  | .releaseCell c => cellSize c
  | .dupcheck c => cellSize c
  | .uplinkCell c => cellSize c
  | .transactionRequest _ _ _ _ data _ _ => decide (data.length ≤ 64)
  | .read c _ => cellSize c
  | .write c => cellSize c
  | .pwrite c _ => cellSize c
  | .fadd c => cellSize c
  | .cswap c => cellSize c
  | .sync c => cellSize c
  | .skip c => cellSize c
  | .reservedOpRequest c => cellSize c
  | .rdata c => cellSize c
  | .wdone c => cellSize c
  | .ack c => cellSize c
  | .atomic c => cellSize c
  | .synced c => cellSize c
  | .nosync c => cellSize c
  | .skipped c => cellSize c
  | .lxbLocalAccess _ _ beats _ => burstSize beats
  | .farWrite _ beats => burstSize beats
  | .delayedReadResult _ _ data => decide (data.length ≤ 64)
  | .tunnelledFrame _ c => cellSize c
  | .priorityPause _ _ quanta => quanta.length == 8
  | .pdreq _ c _ _ => cellSize c
  | .pdresp _ c _ => cellSize c
  | .timeSync _ c _ _ => cellSize c
  | .act c => cellSize c
  | .cancel c => cellSize c
  | .eventCellSend bad => bad.all fun i => decide (i < 4096)
  | .eventCell c => cellSize c
  | .branchSample adc => adc.length == 11
  | .mateTake f => mateSize f
  | .offer f => mateSize f
  | .branchMessage f => mateSize f
  | .heartbeat f => mateSize f
  | .beacon f => mateSize f
  | .surrender f => mateSize f
  | .lend f => mateSize f
  | .lent f => mateSize f
  | .back f => mateSize f
  | .inletclrMessage f => mateSize f
  | .takeover _ (.offer f) => mateSize f
  | .aonPowerOn _ (some c) => cardSize c
  | _ => true

end Sys2Proof
end

