-- ==== Sys2Proof/Tests/Slice0.lean ====
section
/-! SUPPORT. Tests: the checks of well-formedness refuse, small facts of single commands, and for each statement with hypotheses a state and
operands that meet them together. -/

set_option autoImplicit false

namespace Sys2Proof.Tests

set_option Elab.async false

open Sys2Proof Sys2Proof.Machine

/-! ### States for the tests -/

/-- The state that the others are made from. -/
def base : State := State.reset

/-! ### States -/

/-- A state with fields of its registers set. -/
def put (s : State) (l : List (Fld × Nat)) : State := l.foldl (fun s x => s.wr x.1 x.2) s

/-- The state after reset with fields set. -/
def st (l : List (Fld × Nat)) : State := put base l

/-- The core runs with ROLE high, and MC0 serves commands. -/
def up (l : List (Fld × Nat)) : State :=
  { put base ([(F.PW_SEQ_CORE, 1), (F.PW_SEQ_STEP, 11), (F.MT_STAT_ROLE, 1)] ++ l) with sup := { SupSt.init with mcUp := true } }

/-- The same at node 5 of ring 1. -/
def node (l : List (Fld × Nat)) : State := up ([(F.RG_SELF_ASSIGNED, 1), (F.RG_SELF_RING, 1), (F.RG_SELF_NODE, 5)] ++ l)

/-- An image without splints but for the named sources and claims. -/
def weaveOf (sources : List MgSource) (claims : List ClaimRec) : Weave :=
  { bytes := [], pins := [], presets := [], sources := sources, pool := [], claims := claims, imgver := 1 }

/-- A cell of zeros. -/
def z : Cell := cellOfWords 0 0 0 0 0 0

/-- A frame of zeros. -/
def zf : Frame := { dst := 0, src := 0, tag := none, etype := 0x800, data := [] }

/-- An item of a small frame in class tc. -/
def item (tc : Nat) : EItem := mkItem (.frame zf) tc 0 3 0

/-- A request from node 9 of ring 1 to node 5. -/
def reqCell (op : BitVec 4) (cls off count size : Nat) (data : List Byte) : Cell :=
  { z with
    type := 1, cls := 4, op := op, dring := 1, dnode := 5, sring := 1, snode := 9, len := BitVec.ofNat 12 (16 + data.length)
    payload := [0x10, 5, BitVec.ofNat 8 cls] ++ beBytes off 5 ++ beBytes count 2 ++ [BitVec.ofNat 8 size, 0, 0, 0, 0, 1] ++ data }

/-- Node 5 of ring 1 with node 9 as a source that holds all rights, and a destination entry for it. -/
def served : State :=
  { node [] with
    weave := some (weaveOf [⟨1, 9, 31⟩] []), pair := { PairSt.init with dst := [(0, { DstEntry.init with used := true, pring := 1, pnode := 9 })] } }

/-- A request that waits for its answer at its source. -/
def asked (op : BitVec 4) : Kept := { cell := { z with op := op, seq := 7 }, posted := op == 2, waiter := .master .lxb, sentB := false }

/-- Node 5 of ring 1 with a source entry towards node 9. -/
def asking (e : SrcEntry) : State := { node [] with pair := { PairSt.init with src := [(0, { e with pring := 1, pnode := 9 })] } }

/-- An active entry that waits for the answer to one request. -/
def waits (op : BitVec 4) : SrcEntry := { SrcEntry.init with state := .active, kept := [asked op], timer := true }

/-- A request at the bridge. -/
def job (w posted : Bool) (m : Src) : LxbJob :=
  { win := 0, write := w, off := 0, count := 8, data := List.replicate 8 1, poisonAt := none, posted := posted, src := m, reply := .home (.master m),
    beat := 0, got := [] }

/-- A state whose bus the hub or the external master holds, with requests at the bridge. -/
def onLxb (o : BusOwner) (js : List LxbJob) (s : State) : State :=
  { s with bridge := { BridgeSt.init with owner := o, jobs := js, left := 2 }, weave := some (weaveOf [⟨255, 0, 31⟩] []) }

/-- An entry of the forwarding database. -/
def fdbE (mac : Nat) (d : FdbDst) : FdbEntry := { vid := 7, mac := mac, dst := d, static := false, mark := 0, bucket := none }

/-- A state whose forwarding database holds entries. -/
def withFdb (l : List FdbEntry) (s : State) : State := { s with slath := { s.slath with fdb := l } }

/-- An image that opens all bits of the registers of fields. -/
def opening (fs : List Fld) : Weave :=
  { weaveOf [] [] with presets := fs.map fun f => { splint := 0, cls := f.key / 0x100000, off := f.key % 0x100000, value := 0, opn := 0xFFFFFFFF, at' := 0 } }

/-- A state with a weaver set. -/
def wvAt (n : Nat) (w : WvSt) (s : State) : State := s.setWv n w

/-- A running weaver n whose slot 0 holds a word. -/
def runs (n w : Nat) (l : List (Fld × Nat)) : State := up ([(F.WVn_STAT_STATE n, 1), (F.WVn_PROGs_WORD n 0, w)] ++ l)

/-- A timed action. -/
def act (id : Nat) : WvAct := { sec := 5, ns := 0, frac := 0, value := 1, enable := 1, actid := id, report := false }

/-- Controller 7 on its bus. -/
def onCan (l : List (Fld × Nat)) : State := up ([(F.CFk_MODE_INITACT 7, 0), (F.CFk_MODE_INIT 7, 0)] ++ l)

/-- The same with what the controller keeps. -/
def canWith (c : CanSt) (l : List (Fld × Nat)) : State := (onCan l).setCan 7 c

/-- A classical frame. -/
def cf : CanFrame := { fdf := false, brs := false, esi := false, ide := false, id := 0x123, rtr := false, dlc := 2, data := [1, 2] }

/-- S is configured. -/
def onS (l : List (Fld × Nat)) : State := up ([(F.US_SSTAT_STATE, 4)] ++ l)

/-- A state with what S and the field ports keep. -/
def withUsb (u : UsbSt) (s : State) : State := { s with usb := u }

/-- Field port 3 with what it keeps. -/
def fieldWith (f : FieldSt) (l : List (Fld × Nat)) : State := withUsb { UsbSt.init with fields := [(3, f)] } (up l)

/-- An event for this hub and another. -/
def entry (pri node : Nat) (l r : Bool) : EqEntry :=
  { w0 := eqWord0 pri 1 1 0, w1 := 1, w2 := 2, w3 := 3, needLocal := l, needRing := r, both := false, dring := 1, dnode := node }

/-- A state with events queued. -/
def queued (l : List EqEntry) (s : State) : State := { s with eq := { s.eq with entries := l } }

/-- A state with what the power path keeps. -/
def withPow (p : PowSt) (s : State) : State := { s with pow := p }

/-- A state with what the supplies keep. -/
def withSup (p : SupSt) (s : State) : State := { s with sup := p }

/-- The inlet in a state. -/
def inlet (n : Nat) (l : List (Fld × Nat)) : State := st ([(F.PW_INSTAT_STATE, n)] ++ l)

/-- A curve. -/
def curve : List (Nat × Nat × Nat) := (List.range 8).map fun k => (1000 * (k + 1), 1, 0)

/-- Branch 7 with a curve committed and the branches claimed by the power path. -/
def withCurve (s : State) : State :=
  { withPow { PowSt.init with curves := [(7, curve)] } s with weave := some (weaveOf [] [⟨6, 0, 9, 0, 0, 8⟩]) }

/-- A card. -/
def card : Card :=
  { ident := 0x123456789ABCDEF0, keys := [], debugDisable := false, jtagLock := false, flash := [], curMfw := false, curWeave := false,
    store := { StoreSt.init with fitted := true } }

/-- Arguments of a command. -/
def ar (a b c d : Word) : Args := { a1 := a, a2 := b, a3 := c, a4 := d, a5 := 0, a6 := 0, a7 := 0 }

/-- A state with what the pair keeps. -/
def withMt (m : PairMtSt) (s : State) : State := { s with mt := m }

/-- A state whose checkpoint store is fitted. -/
def stored (s : State) : State := { s with store := { StoreSt.init with fitted := true } }

/-- The owner of the store, active, with a store. -/
def active (l : List (Fld × Nat)) : State := stored (up ([(F.MT_STAT_OWNER, 1)] ++ l))

/-- A standby. -/
def standby (m : PairMtSt) (l : List (Fld × Nat)) : State := withMt m (st ([(F.MT_STAT_ROLE, 2), (F.MT_STAT_MATEPRES, 1)] ++ l))

/-- A standby that can make a run. -/
def runner (l : List (Fld × Nat)) : State := stored (standby PairMtSt.init ([(F.PW_INSTAT_STATE, 4)] ++ l))

/-- A checkpoint part. -/
def part : CkPart :=
  { slot := 1, half := none, kind := 0, format := 1, ckseq := 7, base := 0, sec := 0, ns := 0, frac := 0, tallySeq := 1, imgid := 0, regs := [],
    disc := 0, weavers := [] }

/-- A tally entry. -/
def tent (q : Nat) : TEntry := { seq := q, sec := 0, ns := 0, source := 1, code := 1, result := 0, flags := 0, digest := 0, detail := 0 }

/-- A long command of MC0. -/
def long (code : Nat) (x : Args) : LongCmd := { seq := 1, cmd := cmdOf .mc0 code 5 x, block := none, ok := true }

/-- The management core runs firmware with firmware state kept. -/
def withFw (f : FwSt) (s : State) : State := { s with fw := f }

/-- The core out of reset, no firmware running yet. -/
def cold (f : FwSt) (l : List (Fld × Nat)) : State := { withFw f (st ([(F.PW_SEQ_CORE, 1), (F.PW_SEQ_STEP, 11)] ++ l)) with weave := none }


/-- A firmware image of MFW, signed with a test key. -/
def mfw : List Byte := beBytes 0x564846570100010000000001881200ff0401000000000000000000000000000000000000ffffffff00000000ffffffff00000000ffffffff00000000ffffffff00000000ffffffff0000000000000000000000000000000000000000000000000000000000000000000000000000000000000000000000000000000000000000000000003c6e4b6a06a9d2679897a3973e8c2d9de1cdac003aa3b7de067b32c979952a9f3c6e4b6a06a9d2679897a3973e8c2d9de1cdac003aa3b7de067b32c979952a9f82ecdc547d725385893f427af144e65250059febcbc4a19a551c6e160401f4a665aed198e72bd68f56ce287630eb1e102f3f6469c82a0a027cab2ec969650e94 260

/-- A weave image that carves the pool and nothing else, signed with a test key. -/
def wv : List Byte := beBytes 0x4845414450000000010000005368d0cb564857560200000001000000881200ff0000000000000000f40200000000000000000000ffffffff00000000ffffffff00000000ffffffff00000000ffffffff0000000000000000000000000000000050494e53080000000100000095aa2eec0000080000000000554e49540800000001000000b482244c0000100000000000504f4f4c9000000001000000216a5d5e11000800000000000100000000000001020000000001000103000000000240000500000040020001060000004003800007000000c003001800000000c01b090000010000c91b090000020000d21b090000130000db1b090000140000e41b090000150000ed1b090000160000f61b090000170000ff1b090000180000081c090000190000111c0900001a00001a1c0900504f52540800000001000000b482244c0000100000000000534348440800000001000000b482244c0000100000000000414444520800000001000000b482244c000010000000000054494d450800000001000000b482244c0000100000000000504f57520800000001000000b482244c000010000000000045564e540800000001000000b482244c0000100000000000434c414d9000000001000000e23c3c231100080000000000050001000000000105000101000100010500040000024000050008004002000105000b004003800005000000c003001805000300c01b090005000301c91b090005000302d21b090005000313db1b090005000314e41b090005000315ed1b090005000316f61b090005000317ff1b090005000318081c090005000319111c09000500031a1a1c09005349474e84000000010000003d2c875d01000000c298be7c32308a128e07d056bf554f30b7d5982accb9b6b383b61e561c6e4ce0c298be7c32308a128e07d056bf554f30b7d5982accb9b6b383b61e561c6e4ce01d63c1c66bbb3f7169a261eed7918b187ec7804357a105ad77504c6e45caa3c827dc6fad5ec6041b39a43c9758addb02d63c8e913d5ce719bcb78929494cf0fd 756

/-- Fuses with the hashes of the two test keys. -/
def keyed (s : State) : State := { s with otp := { s.otp with keys := [(0, { KeySlot.blank with hash := beBytes 0xf1753b9e7c7b442ff02068cbec907bc50eee94bbab22432121c9758d8d235395 32, prov := true }),
      (1, { KeySlot.blank with hash := beBytes 0x511cb7639489b32acc5ce3aeeda3480813e1f3cd3a5e1c89e92994d3d63107ac 32, prov := true })] } }

/-- A launch table whose entries from one on are all in use. -/
def fullTable : Nat → Nat → Tbl LaunchE
  | 0, _ => []
  | n + 1, i => (i, { LaunchE.free with sec := 1, refs := 1 }) :: fullTable n (i + 1)

/-- A ring port in UP, with cells that wait at its local queue and credit for its classes. -/
def ringOut (p : Nat) (l : List Cell) (credit : List Int) : State :=
  ((up [(F.RGp_LSTAT_STATE p, 4)]).setLink p { LinkSt.init with credit := credit }).setOut p
    { OutSt.init with items := l.map fun c => mkItem (.cell c) c.cls.toNat 0 19 0 }

/-! ### Ill-formed commands are refused -/

/-- A cell whose payload is longer than a cell's. -/
def long1 : Cell := { z with payload := List.replicate 2049 0 }

set_option maxRecDepth 20000 in
theorem test_wf_cells :
    ([.hello 0 long1, .enumerate 0 long1, .report long1, .enumerateReturn long1, .postable 0 long1, .assign 0 long1, .assigned long1,
      .releaseCell long1, .dupcheck long1, .uplinkCell long1, .read long1 true, .write long1, .pwrite long1 none, .fadd long1, .cswap long1,
      .sync long1, .skip long1, .reservedOpRequest long1, .rdata long1, .wdone long1, .ack long1, .atomic long1, .synced long1, .nosync long1,
      .skipped long1, .tunnelledFrame 0 long1, .pdreq 0 long1 0 0, .pdresp 0 long1 0, .timeSync 0 long1 0 0, .act long1, .cancel long1,
      .eventCell long1] : List Instr).all (fun c => !c.wf) = true := by decide +kernel

theorem test_wf_sizes :
    Instr.wf (.registerWrite .mc0 256 0 0) = false ∧ Instr.wf (.registerWrite .mc0 0 (2 ^ 20) 0) = false ∧
    Instr.wf (.readClearRegister .mc0 256 0) = false ∧ Instr.wf (.readClearRegister .mc0 0 (2 ^ 20)) = false ∧
    Instr.wf (.slathBeat 0 0 (List.replicate 33 0) true) = false ∧ Instr.wf (.opticsPoll 0 (some [1])) = false ∧
    Instr.wf (.lxbLocalAccess 0 false [] none) = false ∧ Instr.wf (.lxbLocalAccess 0 false (List.replicate 17 (0, 0)) none) = false ∧
    Instr.wf (.transactionRequest .mc0 1 0 0 (List.replicate 65 0) 0 false) = false ∧
    Instr.wf (.farWrite 0 []) = false ∧ Instr.wf (.priorityPause 0 0 [0]) = false ∧ Instr.wf (.eventCellSend [4096]) = false ∧
    Instr.wf (.branchSample []) = false := by decide +kernel

theorem test_wf_messages :
    ([Instr.mateTake, Instr.offer, Instr.branchMessage, Instr.heartbeat, Instr.beacon, Instr.surrender, Instr.lend, Instr.lent, Instr.back,
      Instr.inletclrMessage].all fun f => !Instr.wf (f ⟨List.replicate 33 0, false⟩)) = true := by
  decide +kernel

set_option maxRecDepth 20000 in
theorem test_wf_payloads :
    Instr.wf (.cellTrailer 0 (List.replicate 2049 0) 0 false 0 0) = false ∧
    Instr.wf (.delayedReadResult 0 0 (List.replicate 65 0)) = false ∧
    Instr.wf (.takeover none (.offer ⟨List.replicate 33 0, false⟩)) = false := by decide +kernel

/-- A blank card. -/
def blank : Card :=
  { ident := 0, keys := [], debugDisable := false, jtagLock := false, flash := [], curMfw := false, curWeave := false, store := StoreSt.init }

theorem test_wf_cards :
    Instr.wf (.aonPowerOn true (some { blank with keys := List.replicate 5 (List.replicate 32 0, false, false) })) = false ∧
    Instr.wf (.aonPowerOn true (some { blank with keys := [([1], false, false)] })) = false ∧
    Instr.wf (.aonPowerOn true (some { blank with flash := [(7, [])] })) = false := by decide +kernel

/-! ### Facts of the spec's examples and tables -/

/-- 08_site_time.md, the example under R225: the target is 2.501 s ahead across the wrap of the seconds. -/
theorem test_until_across_the_wrap :
    ({ base with clock := { site := (0xFFFFFFFE * secNs + 999000000) * nsUnit, tick := 0 } } : State).until 1 500000000 0
      = 2501000000 * (nsUnit : Int) := by decide +kernel

/-- 09_weavers.md, the example under R261: bit-times 1 and 10 at 115,200 baud begin at ticks 4,340 and 43,402. -/
theorem test_divider_at_115200_baud :
    ({ WvSt.init with div := 1111111 } : WvSt).tickAt 1 = 4340 ∧ ({ WvSt.init with div := 1111111 } : WvSt).tickAt 10 = 43402 := by decide +kernel

/-- 03_ring_links.md, the example under R108: 64 and 112 wire bytes for LEN 16 and 64. -/
theorem test_wire_bytes :
    ({ z with len := 16 } : Cell).wire = 64 ∧ ({ z with len := 64 } : Cell).wire = 112 := by decide +kernel

/-- 03_ring_links.md, the same example: a credit of -76 with a quota of 32 is -44 after one refill. -/
theorem test_refill_of_a_negative_credit :
    (match exec .roundStart ((st [(F.RGp_QUOTAi_HIGH 0 1, 32)]).setLink 0 { LinkSt.init with credit := [0, 0, 0, -76, 0, 0, 0, 0] }) with
      | .next t => (t.link 0).credit.getD 3 0
      | _ => 0) = -44 := by decide +kernel

/-- 17_tally.md R449: NC_DEVID reads 0x0002_1288; 03_ring_links.md R110: bare ENABLE is 1 on RPE and 0 on U. -/
theorem test_reset_values : regReset 0 = 0x21288 ∧ State.reset.on (F.RGp_CTL_ENABLE 0) = true ∧ State.reset.on (F.RGp_CTL_ENABLE 2) = false := by
  decide +kernel

/-- 19_pins.md R490: what IDCODE shifts out. -/
theorem test_idcode :
    (match exec (.jtagInstruction .idcode) base with | .next t => t.out | _ => []) = [.jtag 0x212889AF 32] := by decide +kernel

/-- 13_event_queue.md, the example under R348: with marks at 3,072 and 2,048 an occupancy of 2,500 keeps the throttle, 2,048 ends it. -/
theorem test_hysteresis :
    (st [(F.EQ_MARKS_HWM, 3072), (F.EQ_MARKS_LWM, 2048), (F.EQ_STAT_HWMACT, 1)]).throttled = true ∧
    (queued [] (st [(F.EQ_MARKS_HWM, 3072), (F.EQ_MARKS_LWM, 2048), (F.EQ_STAT_HWMACT, 1)])).eqSync.throttled = false := by decide +kernel

/-- 02_weave.md R57 names SHA-256; the digest of "abc" is the first example of FIPS 180-4. -/
theorem test_sha256_of_abc :
    sha256 [0x61, 0x62, 0x63] = beBytes 0xba7816bf8f01cfea414140de5dae2223b00361a396177a9cb410ff61f20015ad 32 := by decide +kernel

/-- 03_ring_links.md R91, R92: the check codes of the bytes "123456789" for the polynomials and start values named there. -/
theorem test_check_codes :
    crc16 [0x31, 0x32, 0x33, 0x34, 0x35, 0x36, 0x37, 0x38, 0x39] = 0x29B1 ∧
    crc32c [0x31, 0x32, 0x33, 0x34, 0x35, 0x36, 0x37, 0x38, 0x39] = 0xE3069283 := by decide +kernel

/-! ### For each statement, states and operands that meet its hypotheses -/

/-- The command answers a next state. -/
def answersNext (o : Host.Outcome State Fault Refusal) : Bool :=
  match o with
  | .next _ => true
  | _ => false

theorem next_of {o : Host.Outcome State Fault Refusal} (h : answersNext o = true) : ∃ t, o = .next t := by
  cases o with
  | next t => exact ⟨t, rfl⟩
  | _ => cases h

theorem test_witness_EveryStepKeepsTheStateSound : State.reset.Sound ∧ ∃ t, step State.reset = .next t :=
  ⟨by unfold State.Sound; decide +kernel, next_of (by decide +kernel)⟩

theorem test_witness_NoCommandTouchesTheQueue :
    (∃ c : Instr, ∀ i, c ≠ .jtagInstruction i) ∧ ∃ t, exec .roundStart { State.reset with pending := [.enumPeriod] } = .next t :=
  ⟨⟨.roundStart, fun _ h => Instr.noConfusion h⟩, next_of (by decide +kernel)⟩

theorem test_witness_AnEmptyQueuePassesOneTick :
    (∃ s : State, (s.pending = []) ∧ (s.coreRuns = true)) ∧
    (∃ s : State, (s.pending = []) ∧ (s.coreRuns = false)) :=
  ⟨⟨up [], by decide +kernel⟩,
   ⟨State.reset, by decide +kernel⟩⟩

theorem test_witness_PlainWritesChangeOneRegister :
    (∃ s : State, ∃ src : Src, ∃ cls : Nat, ∃ off : Nat, ∃ v : Word, ∃ f : Fam, ∃ is : List Nat, (s.takesWrite src cls off v.toNat = true) ∧
      (regAt cls off = some (f, is)) ∧ (f.id ∉ acting)) :=
  ⟨up [], .mc0, 2, F.TM_SETS_SEC.key % 0x100000, 77, ⟨.TM_SETS, 0x24, [], [⟨0, 32, .rw, .plain, 0, []⟩]⟩, [], by decide +kernel⟩

theorem test_witness_LinkStatesFollowTheirEvents :
    (∃ s : State, ∃ src : Src, ∃ p : PortU, (s.takesFields src [(F.RGp_CTL_ENABLE p.val, 1)] = true) ∧ (s.linkState p.val = 0) ∧ (s.on
      (F.RGp_CTL_ENABLE p.val) = false)) ∧
    (∃ s : State, ∃ src : Src, ∃ p : PortU, s.takesFields src [(F.RGp_CTL_ENABLE p.val, 0)] = true) ∧
    (∃ s : State, ∃ src : Src, ∃ p : PortU, (s.takesFields src [(F.RGp_CTL_RETRAIN p.val, 1)] = true) ∧ (s.on (F.RGp_CTL_ENABLE p.val) =
      true)) ∧
    (∃ s : State, ∃ p : PortU, (s.linkState p.val = 1) ∧ (s.clocked 1 = true)) ∧
    (∃ s : State, ∃ p : PortU, s.linkState p.val = 1) ∧
    (∃ s : State, ∃ p : PortU, s.linkState p.val = 2) ∧
    (∃ s : State, ∃ p : PortU, s.linkState p.val = 2) ∧
    (∃ s : State, ∃ p : PortU, s.linkState p.val = 3) ∧
    (∃ s : State, ∃ p : PortU, s.isUp p.val = true) ∧
    (∃ s : State, ∃ p : PortU, s.isUp p.val = true) ∧
    (∃ s : State, ∃ p : PortU, s.isUp p.val = true) ∧
    (∃ s : State, ∃ p : PortU, (s.linkState p.val = 5) ∧ (s.on (F.RGp_CTL_ENABLE p.val) = true)) ∧
    (∃ s : State, ∃ p : PortR, s.isUp p.val = true) ∧
    (∃ s : State, ∃ p : PortR, ∃ los : Bool, (los = true → s.isUp p.val = false)) ∧
    (∃ s : State, ∃ src : Src, ∃ p : PortU, (s.takesFields src [(F.RGp_CTL_ENABLE p.val, 1)] = true) ∧ (s.on (F.RGp_CTL_ENABLE p.val) =
      true)) ∧
    (∃ s : State, ∃ src : Src, ∃ p : PortU, (s.takesFields src [(F.RGp_CTL_RETRAIN p.val, 1)] = true) ∧ (s.on (F.RGp_CTL_ENABLE p.val) =
      false)) :=
  ⟨⟨up [(F.RGp_CTL_ENABLE 0, 0)], .mc0, 0, by decide +kernel⟩,
   ⟨up [(F.RGp_LSTAT_STATE 1, 4)], .mc0, 1, by decide +kernel⟩,
   ⟨up [(F.RGp_LSTAT_STATE 1, 4)], .mc0, 1, by decide +kernel⟩,
   ⟨up [(F.RGp_LSTAT_STATE 2, 1)], 2, by decide +kernel⟩,
   ⟨up [(F.RGp_LSTAT_STATE 2, 1), (F.RGp_LSTAT_SIGNAL 2, 1)], 2, by decide +kernel⟩,
   ⟨up [(F.RGp_LSTAT_STATE 0, 2)], 0, by decide +kernel⟩,
   ⟨up [(F.RGp_LSTAT_STATE 0, 2), (F.RGp_LSTAT_BLOCK 0, 1)], 0, by decide +kernel⟩,
   ⟨up [(F.RGp_LSTAT_STATE 1, 3)], 1, by decide +kernel⟩,
   ⟨up [(F.RGp_LSTAT_STATE 1, 4)], 1, by decide +kernel⟩,
   ⟨up [(F.RGp_LSTAT_STATE 2, 4)], 2, by decide +kernel⟩,
   ⟨up [(F.RGp_LSTAT_STATE 0, 4)], 0, by decide +kernel⟩,
   ⟨up [(F.RGp_LSTAT_STATE 0, 5)], 0, by decide +kernel⟩,
   ⟨up [(F.RGp_LSTAT_STATE 0, 4)], 0, by decide +kernel⟩,
   ⟨up [(F.RGp_LSTAT_STATE 0, 4)], 0, false, by decide +kernel⟩,
   ⟨up [], .mc0, 0, by decide +kernel⟩,
   ⟨up [(F.RGp_CTL_ENABLE 0, 0)], .mc0, 0, by decide +kernel⟩⟩

theorem test_witness_LinkCellsAndModules :
    (∃ s : State, ∃ p : PortU, s.linkState p.val = 3 ∨ (s.isUp p.val = true ∧ (s.link p.val).pulsed = false)) ∧
    (∃ s : State, ∃ p : PortU, s.isUp p.val = true) ∧
    (∃ s : State, ∃ p : PortU, ∃ c : Cell, (s.linkState p.val = 3) ∧ (beAt c.payload 0 1 = facing p.val) ∧ (beAt c.payload 1 1 / 2 % 2 = 1)
      ∧ ((s.link p.val).miswired = false) ∧ (s.clocked 1 = true)) ∧
    (∃ s : State, ∃ p : PortU, ∃ c : Cell, (s.linkState p.val = 3) ∧ (beAt c.payload 0 1 ≠ facing p.val) ∧ (s.on (F.RGp_LSTAT_MISWIRED
      p.val) = false)) ∧
    (∃ s : State, ∃ p : PortU, s.isUp p.val = true) ∧
    (∃ s : State, ∃ p : PortU, s.linkState p.val = 5) ∧
    (∃ s : State, ∃ p : PortR, (s.link p.val).holding = true) ∧
    (∃ s : State, ∃ src : Src, ∃ p : PortR, ∃ addr : Byte, ∃ wdata : Byte, ∃ dev : Bool, ∃ wr : Bool, s.takesFields src [(F.RGp_I2C_ADDR
      p.val, addr.toNat), (F.RGp_I2C_DEV p.val, b2n dev), (F.RGp_I2C_WR p.val, b2n wr), (F.RGp_I2C_WDATA p.val, wdata.toNat),
      (F.RGp_I2C_BUSY p.val, 1)] = true) ∧
    (∃ s : State, ∃ p : PortR, s.on (F.RGp_I2C_BUSY p.val) = true) ∧
    (∃ s : State, ∃ p : PortR, s.on (F.RGp_I2C_BUSY p.val) = true) ∧
    (∃ s : State, ∃ p : PortU, (s.linkState p.val = 3) ∧ ((s.link p.val).miswired = true)) ∧
    (∃ s : State, ∃ p : PortU, s.isUp p.val = true) :=
  ⟨⟨up [(F.RGp_LSTAT_STATE 1, 3)], 1, by decide +kernel⟩,
   ⟨up [(F.RGp_LSTAT_STATE 1, 4)], 1, by decide +kernel⟩,
   ⟨up [(F.RGp_LSTAT_STATE 0, 3)], 0, { z with payload := [BitVec.ofNat 8 (facing 0), 2] ++ List.replicate 10 7 }, by decide +kernel⟩,
   ⟨up [(F.RGp_LSTAT_STATE 0, 3)], 0, { z with payload := [BitVec.ofNat 8 (facing 0 + 1), 2] ++ List.replicate 10 7 }, by decide +kernel⟩,
   ⟨up [(F.RGp_LSTAT_STATE 2, 4)], 2, by decide +kernel⟩,
   ⟨up [(F.RGp_LSTAT_STATE 2, 5)], 2, by decide +kernel⟩,
   ⟨(up [(F.RG_WRAP_WRAPE, 1)]).setLink 0 { LinkSt.init with holding := true }, 0, by decide +kernel⟩,
   ⟨up [], .mc0, 0, 0x7F, 3, true, true, by decide +kernel⟩,
   ⟨up [(F.RGp_I2C_BUSY 0, 1)], 0, by decide +kernel⟩,
   ⟨up [(F.RGp_I2C_BUSY 1, 1)], 1, by decide +kernel⟩,
   ⟨(up [(F.RGp_LSTAT_STATE 0, 3)]).setLink 0 { LinkSt.init with miswired := true }, 0, by decide +kernel⟩,
   ⟨up [(F.RGp_LSTAT_STATE 0, 4)], 0, by decide +kernel⟩⟩

theorem test_witness_ArrivingCells :
    (∃ s : State, ∃ p : PortR, ∃ w0 : Word, ∃ w1 : Word, ∃ w2 : Word, ∃ w3 : Word, ∃ w4 : Word, ∃ w5 : Word, (s.isUp p.val = true) ∧
      ((cellOfWords w0 w1 w2 w3 w4 w5).hec = w5.extractLsb' 0 16) ∧ ((cellOfWords w0 w1 w2 w3 w4 w5).headOk = true) ∧ ((cellOfWords w0 w1 w2
      w3 w4 w5).link = false)) ∧
    (∃ s : State, ∃ p : PortU, ∃ w0 : Word, ∃ w1 : Word, ∃ w2 : Word, ∃ w3 : Word, ∃ w4 : Word, ∃ w5 : Word, (s.isUp p.val = true) ∧
      ((cellOfWords w0 w1 w2 w3 w4 w5).hec ≠ w5.extractLsb' 0 16)) ∧
    (∃ s : State, ∃ p : PortU, ∃ r : RxCell, ∃ pay : List Byte, ∃ crc : Word, ((s.link p.val).rx = some r) ∧ (r.disp = .deliver) ∧
      (r.hdr.poison = false) ∧ (pay.length = r.hdr.len.toNat) ∧ (({ r.hdr with payload := pay } : Cell).trailer = crc)) ∧
    (∃ s : State, ∃ p : PortU, ∃ r : RxCell, ∃ pay : List Byte, ∃ crc : Word, ((s.link p.val).rx = some r) ∧ (r.disp = .deliver) ∧
      (r.hdr.poison = false) ∧ (pay.length = r.hdr.len.toNat) ∧ (({ r.hdr with payload := pay } : Cell).trailer ≠ crc)) ∧
    (∃ s : State, ∃ p : PortU, ∃ r : RxCell, ((s.link p.val).rx = some r) ∧ (r.disp ≠ .discard)) ∧
    (∃ s : State, ∃ c : Cell, (s.isAssigned = true) ∧ (c.mcast = false) ∧ (c.dring.toNat = s.ownRing) ∧ (c.dnode.toNat = s.ownNode)) ∧
    (∃ s : State, ∃ c : Cell, (s.isAssigned = true) ∧ (c.mcast = false) ∧ (¬(c.dring.toNat = s.ownRing ∧ c.dnode.toNat = s.ownNode)) ∧
      (c.dring.toNat ≠ s.ownRing) ∧ (s.routeMode c.dring.toNat = 2)) ∧
    (∃ s : State, ∃ c : Cell, (s.isAssigned = true) ∧ (c.mcast = false) ∧ (¬(c.dring.toNat = s.ownRing ∧ c.dnode.toNat = s.ownNode)) ∧
      (¬(c.dring.toNat ≠ s.ownRing ∧ s.routeMode c.dring.toNat = 2)) ∧ (c.sring.toNat = s.ownRing) ∧ (c.snode.toNat = s.ownNode)) ∧
    (∃ s : State, ∃ c : Cell, (s.isAssigned = true) ∧ (c.mcast = false) ∧ (¬(c.dring.toNat = s.ownRing ∧ c.dnode.toNat = s.ownNode)) ∧
      (¬(c.dring.toNat ≠ s.ownRing ∧ s.routeMode c.dring.toNat = 2)) ∧ (¬(c.sring.toNat = s.ownRing ∧ c.snode.toNat = s.ownNode)) ∧ (s.rd
      F.RG_HOPLIM_LIMIT ≤ c.hops.toNat)) ∧
    (∃ s : State, ∃ p : PortR, ∃ c : Cell, (s.isAssigned = true) ∧ (c.mcast = false) ∧ (¬(c.dring.toNat = s.ownRing ∧ c.dnode.toNat =
      s.ownNode)) ∧ (¬(c.dring.toNat ≠ s.ownRing ∧ s.routeMode c.dring.toNat = 2)) ∧ (¬(c.sring.toNat = s.ownRing ∧ c.snode.toNat =
      s.ownNode)) ∧ (c.hops.toNat < s.rd F.RG_HOPLIM_LIMIT) ∧ (s.wrapped (other p.val) = false)) ∧
    (∃ s : State, ∃ c : Cell, (s.isAssigned = true) ∧ (c.mcast = true) ∧ (c.sring.toNat = s.ownRing) ∧ (c.snode.toNat = s.ownNode)) ∧
    (∃ s : State, ∃ c : Cell, (s.isAssigned = true) ∧ (c.mcast = true) ∧ (¬(c.sring.toNat = s.ownRing ∧ c.snode.toNat = s.ownNode)) ∧ (s.rd
      F.RG_HOPLIM_LIMIT ≤ c.hops.toNat)) ∧
    (∃ s : State, ∃ p : PortR, ∃ c : Cell, (s.isAssigned = true) ∧ (c.mcast = true) ∧ (¬(c.sring.toNat = s.ownRing ∧ c.snode.toNat =
      s.ownNode)) ∧ (c.hops.toNat < s.rd F.RG_HOPLIM_LIMIT) ∧ (s.wrapped (other p.val) = false)) ∧
    (∃ s : State, ∃ p : PortR, (s.isAssigned = false) ∧ (s.wrapped (other p.val) = false)) :=
  ⟨⟨up [(F.RGp_LSTAT_STATE 0, 4)], 0, 0x36000000, 0, 0, 0, 0, (cellOfWords 0x36000000 0 0 0 0 0).hec.zeroExtend 32, by decide +kernel⟩,
   ⟨up [(F.RGp_LSTAT_STATE 2, 4)], 2, 0, 0, 0, 0, 0, ((cellOfWords 0 0 0 0 0 0).hec ^^^ 1).zeroExtend 32, by decide +kernel⟩,
   ⟨(up []).setLink 1 { LinkSt.init with rx := some { hdr := { z with len := 2 }, disp := .deliver, outPort := 0 } }, 1,
     { hdr := { z with len := 2 }, disp := .deliver, outPort := 0 }, [7, 8], ({ z with len := 2, payload := [7, 8] } : Cell).trailer,
     by decide +kernel⟩,
   ⟨(up []).setLink 1 { LinkSt.init with rx := some { hdr := { z with len := 2 }, disp := .deliver, outPort := 0 } }, 1,
     { hdr := { z with len := 2 }, disp := .deliver, outPort := 0 }, [7, 8], ({ z with len := 2, payload := [7, 8] } : Cell).trailer ^^^ 1,
     by decide +kernel⟩,
   ⟨(up []).setLink 1 { LinkSt.init with rx := some { hdr := { z with len := 2 }, disp := .deliver, outPort := 0 } }, 1,
     { hdr := { z with len := 2 }, disp := .deliver, outPort := 0 }, by decide +kernel⟩,
   ⟨node [], { z with dring := 1, dnode := 5 }, by decide +kernel⟩,
   ⟨node [(F.RG_RTn_MODE 2, 2)], { z with dring := 2, dnode := 5 }, by decide +kernel⟩,
   ⟨node [], { z with dring := 1, dnode := 9, sring := 1, snode := 5 }, by decide +kernel⟩,
   ⟨node [(F.RG_HOPLIM_LIMIT, 3)], { z with dring := 1, dnode := 9, hops := 3 }, by decide +kernel⟩,
   ⟨node [(F.RG_HOPLIM_LIMIT, 3)], 0, { z with dring := 1, dnode := 9, hops := 2 }, by decide +kernel⟩,
   ⟨node [], { z with mcast := true, type := 1, sring := 1, snode := 5, hops := 0, dnode := 3 }, by decide +kernel⟩,
   ⟨node [(F.RG_HOPLIM_LIMIT, 3)], { z with mcast := true, type := 1, sring := 1, snode := 9, hops := 3, dnode := 3 }, by decide +kernel⟩,
   ⟨node [(F.RG_HOPLIM_LIMIT, 3)], 0, { z with mcast := true, type := 1, sring := 1, snode := 9, hops := 2, dnode := 3 }, by decide +kernel⟩,
   ⟨up [], 0, by decide +kernel⟩⟩

theorem test_witness_InsertionAndCredit :
    (∃ s : State, ∃ u : State, ∃ p : PortR, ∃ c : Nat, ∃ x : TCell, (u = s.dropPoisoned p.val) ∧ (s.isUp p.val = true) ∧ (s.wrapped p.val =
      false) ∧ ((s.link p.val).tx = none) ∧ (u.pick p.val 8 = .pass c) ∧ (transitReady (u.link p.val).transit c = some x)) ∧
    (∃ s : State, ∃ u : State, ∃ p : PortR, ∃ c : Nat, ∃ i : EItem, (u = s.dropPoisoned p.val) ∧ (s.isUp p.val = true) ∧ (s.wrapped p.val =
      false) ∧ ((s.link p.val).tx = none) ∧ (u.pick p.val 8 = .entitled c) ∧ ((u.outOf p.val).head c = some i)) ∧
    (∃ s : State, ∃ u : State, ∃ p : PortR, ∃ c : Nat, ∃ i : EItem, (u = s.dropPoisoned p.val) ∧ (s.isUp p.val = true) ∧ (s.wrapped p.val =
      false) ∧ ((s.link p.val).tx = none) ∧ (u.pick p.val 8 = .gap c) ∧ ((u.outOf p.val).head c = some i)) ∧
    (∃ s : State, ∃ u : State, ∃ p : PortR, (u = s.dropPoisoned p.val) ∧ (s.isUp p.val = true) ∧ (s.wrapped p.val = false) ∧ ((s.link
      p.val).tx = none) ∧ (u.pick p.val 8 = .nothing)) ∧
    (∃ s : State, ∃ p : PortR, ∃ c : Nat, s.pick p.val 8 = .entitled c) ∧
    (∃ s : State, ∃ p : PortR, ∃ c : Fin 8, ((s.localHead p.val c.val).isSome = true) ∧ (0 < (s.link p.val).credit.getD c.val 0) ∧ (18 ≤ 256
      - transitOcc (s.link p.val).transit)) ∧
    (∃ s : State, ∃ u : State, ∃ p : PortR, ∃ c : Nat, ∃ i : EItem, (u = s.dropPoisoned p.val) ∧ (s.isUp p.val = true) ∧ (s.wrapped p.val =
      false) ∧ ((s.link p.val).tx = none) ∧ (u.pick p.val 8 = .entitled c) ∧ ((u.outOf p.val).head c = some i)) :=
  ⟨⟨(up [(F.RGp_LSTAT_STATE 0,
     4)]).setLink 0 { LinkSt.init with transit := [{ cell := z, ready := true, stored := true, awaits := false, inPort := 1 }] },
     ((up [(F.RGp_LSTAT_STATE 0,
     4)]).setLink 0 { LinkSt.init with transit := [{ cell := z, ready := true, stored := true, awaits := false, inPort := 1 }] }).dropPoisoned 0,
     0, 0, { cell := z, ready := true, stored := true, awaits := false, inPort := 1 }, by decide +kernel⟩,
   ⟨ringOut 0 [z] [5, 0, 0, 0, 0, 0, 0, 0], (ringOut 0 [z] [5, 0, 0, 0, 0, 0, 0, 0]).dropPoisoned 0, 0, 0, mkItem (.cell z) 0 0 19 0,
     by decide +kernel⟩,
   ⟨ringOut 0 [z] [], (ringOut 0 [z] []).dropPoisoned 0, 0, 0, mkItem (.cell z) 0 0 19 0, by decide +kernel⟩,
   ⟨up [(F.RGp_LSTAT_STATE 0, 4)], (up [(F.RGp_LSTAT_STATE 0, 4)]).dropPoisoned 0, 0, by decide +kernel⟩,
   ⟨ringOut 0 [z] [5, 0, 0, 0, 0, 0, 0, 0], 0, 0, by decide +kernel⟩,
   ⟨ringOut 0 [{ z with cls := 7 }] [0, 0, 0, 0, 0, 0, 0, 1], 0, 7, by decide +kernel⟩,
   ⟨ringOut 0 [z] [5, 0, 0, 0, 0, 0, 0, 0], (ringOut 0 [z] [5, 0, 0, 0, 0, 0, 0, 0]).dropPoisoned 0, 0, 0, mkItem (.cell z) 0 0 19 0,
     by decide +kernel⟩⟩

set_option maxRecDepth 100000 in
theorem test_witness_EnumerationAndPositions :
    (∃ s : State, ∃ src : Src, (s.takesFields src [(F.RG_ENUM_START, 1)] = true) ∧ (s.on F.RG_ROLE_ROOT = true)) ∧
    (∃ s : State, (s.on F.RG_ROLE_ROOT = true) ∧ (s.on F.NC_MODE_POLICY = false) ∧ (s.rd F.RG_ENUM_PERIOD ≠ 0)) ∧
    (∃ c : Cell, (c.ring = false) ∧ (c.wraps = 0)) ∧
    (∃ s : State, s.mem.fifo.length < 4096) ∧
    (∃ s : State, 4096 ≤ s.mem.fifo.length) ∧
    (∃ s : State, ∃ src : Src, s.takesField src F.RG_RPT5_DATA = true) ∧
    (∃ s : State, ∃ c : Cell, (beAt c.payload 8 8 = s.otp.fusedId) ∧ (s.mem.awaiting = true) ∧ (beAt c.payload 0 2 = s.mem.sentGen)) ∧
    (∃ s : State, ∃ c : Cell, (beAt c.payload 8 8 = s.otp.fusedId) ∧ (s.mem.awaiting = false)) ∧
    (∃ s : State, s.mem.awaiting = true) ∧
    (∃ s : State, (s.on F.RG_ROLE_ROOT = true) ∧ (s.mem.building = true) ∧ (s.mem.sentTable = false)) ∧
    (∃ c : Cell, (beAt c.payload 2 2 = 0) ∧ (1 ≤ beAt c.payload 4 2) ∧ (beAt c.payload 4 2 ≤ 1020) ∧ (c.len.toNat = 8 + 2 * beAt c.payload 4
      2)) ∧
    (∃ s : State, ∃ c : Cell, ∃ w : PosWin, (0 < beAt c.payload 2 2) ∧ (1 ≤ beAt c.payload 4 2) ∧ (beAt c.payload 4 2 ≤ 1020) ∧ (c.len.toNat
      = 8 + 2 * beAt c.payload 4 2) ∧ (beAt c.payload 2 2 + beAt c.payload 4 2 ≤ 4096) ∧ (s.mem.window = some w) ∧ (beAt c.payload 0 2 =
      w.gen) ∧ (beAt c.payload 6 2 = w.size) ∧ (overlaps w.held (beAt c.payload 2 2) (beAt c.payload 4 2) = false) ∧ ((w.held.map fun h =>
      h.2.length).sum + beAt c.payload 4 2 = 4096) ∧ (s.mem.tableGen = none)) ∧
    (∃ s : State, s.mem.window.isSome = true) :=
  ⟨⟨up [(F.RG_ROLE_ROOT, 1)], .mc0, by decide +kernel⟩,
   ⟨up [(F.RG_ROLE_ROOT, 1), (F.RG_ENUM_PERIOD, 1), (F.NC_MODE_POLICY, 0)], by decide +kernel⟩,
   ⟨{ z with sring := 3, payload := [0, 7, 0, 9] }, by decide +kernel⟩,
   ⟨up [], by decide +kernel⟩,
   ⟨{ up [] with mem := { MemSt.init with fifo := List.replicate 4096 [] } }, by decide +kernel⟩,
   ⟨{ up [] with mem := { MemSt.init with fifo := [[1], [2]] } }, .mc0, by decide +kernel⟩,
   ⟨{ up [] with mem := { MemSt.init with awaiting := true, sentGen := 7 } },
     { z with hops := 4, payload := [0, 7] ++ List.replicate 14 0 }, by decide +kernel⟩,
   ⟨up [], { z with hops := 4, payload := [0, 7] ++ List.replicate 14 0 }, by decide +kernel⟩,
   ⟨{ up [] with mem := { MemSt.init with awaiting := true, sentGen := 7 } }, by decide +kernel⟩,
   ⟨{ up [(F.RG_ROLE_ROOT, 1)] with mem := { MemSt.init with building := true, sentGen := 7, built := [(3, 2)] } }, by decide +kernel⟩,
   ⟨{ z with len := 10, payload := [0, 7, 0, 0, 0, 1, 0, 3, 0, 5] }, by decide +kernel⟩,
   ⟨{ up [] with mem := { MemSt.init with window := some ⟨7, 3, [(0, List.replicate 4095 0)]⟩ } },
     { z with len := 10, payload := [0, 7, 15, 255, 0, 1, 0, 3, 0, 5] }, ⟨7, 3, [(0, List.replicate 4095 0)]⟩, by decide +kernel⟩,
   ⟨{ up [] with mem := { MemSt.init with window := some ⟨7, 3, []⟩ } }, by decide +kernel⟩⟩

theorem test_witness_Membership :
    (∃ s : State, ∃ c : Cell, (s.assignMatches c.payload = true) ∧ (s.isAssigned = false) ∧ (s.on F.RG_SELF_PROV = true) ∧ (s.hasRight
      c.from 2 = true)) ∧
    (∃ s : State, ∃ c : Cell, (s.assignMatches c.payload = true) ∧ (s.isAssigned = true) ∧ (s.hasRight c.from 2 = true) ∧ (s.ownNode ≠ beAt
      c.payload 12 2 % 4096)) ∧
    (∃ s : State, ∃ c : Cell, ∃ ident : Nat, ∃ pos : Nat, (s.on F.RG_ROLE_ROOT = true) ∧ (beAt c.payload 8 1 = 0) ∧ ((s.mem.seen.find? fun x
      => x.1 == beAt c.payload 0 8) = some (ident, pos))) ∧
    (∃ s : State, ∃ c : Cell, (s.isAssigned = true) ∧ (c.dring.toNat = s.ownRing) ∧ (c.dnode.toNat = s.ownNode) ∧ (s.hasRight c.from 2 =
      true) ∧ (beAt c.payload 0 8 = s.otp.fusedId) ∧ (s.usb.bulk = [])) ∧
    (∃ s : State, ∃ c : Cell, (s.isAssigned = true) ∧ (c.sring.toNat = s.ownRing) ∧ (c.snode.toNat = s.ownNode) ∧ (beAt c.payload 0 8 ≠
      s.otp.fusedId)) ∧
    (∃ s : State, ∃ c : Cell, (s.isAssigned = true) ∧ (c.dring.toNat = s.ownRing) ∧ (c.dnode.toNat = s.ownNode) ∧ (c.mcast = false)) ∧
    (∃ s : State, ∃ c : Cell, (s.isAssigned = true) ∧ (c.dring.toNat ≠ s.ownRing) ∧ (s.routeMode c.dring.toNat ≠ 1)) :=
  ⟨⟨{ up [(F.RG_SELF_PROV, 1)] with weave := some (weaveOf [⟨1, 9, 31⟩] []), otp := { State.reset.otp with fusedId := 5 } },
     { z with sring := 1, snode := 9, payload := [0, 0, 0, 0, 0, 0, 0, 5, 2, 0, 0, 0, 0, 33, 1, 0] }, by decide +kernel⟩,
   ⟨{ node [] with weave := some (weaveOf [⟨1, 9, 31⟩] []), otp := { State.reset.otp with fusedId := 5 } },
     { z with sring := 1, snode := 9, payload := [0, 0, 0, 0, 0, 0, 0, 5, 2, 0, 0, 0, 0, 33, 1, 0] }, by decide +kernel⟩,
   ⟨{ up [(F.RG_ROLE_ROOT, 1)] with mem := { MemSt.init with seen := [(5, 2)] } },
     { z with payload := [0, 0, 0, 0, 0, 0, 0, 5, 0, 0, 0, 33] }, 5, 2, by decide +kernel⟩,
   ⟨{ node [] with weave := some (weaveOf [⟨1, 9, 31⟩] []), otp := { State.reset.otp with fusedId := 5 } },
     { z with dring := 1, dnode := 5, sring := 1, snode := 9, payload := [0, 0, 0, 0, 0, 0, 0, 5] }, by decide +kernel⟩,
   ⟨node [], { z with sring := 1, snode := 5, payload := [0, 0, 0, 0, 0, 0, 0, 5] }, by decide +kernel⟩,
   ⟨node [], { z with dring := 1, dnode := 5, hops := 3 }, by decide +kernel⟩,
   ⟨node [], { z with dring := 2, dnode := 5 }, by decide +kernel⟩⟩

theorem test_witness_RequestsInOrderAreApplied :
    (∃ s : State, ∃ u : State, ∃ c : Cell, ∃ i : Nat, ∃ bad : Bool, ∃ st : Status, ∃ bs : List Byte, (s.startsAt c i = true) ∧ (c.op = 0) ∧
      (c.wellFormed = true) ∧ (isWindow c.req.cls = false) ∧ ((s.started c i).unitRead c.from c.req.cls c.req.off c.req.count bad = (u, st,
      bs)) ∧ ((s.sup.mcUp = true → u.sup.mcUp = true)) ∧ (u.isAssigned = true)) ∧
    (∃ s : State, ∃ u : State, ∃ c : Cell, ∃ i : Nat, ∃ st : Status, (s.startsAt c i = true) ∧ (c.op = 1) ∧ (c.wellFormed = true) ∧
      (isWindow c.req.cls = false) ∧ ((s.started c i).unitWrite c.from c.req.cls c.req.off c.req.data = (u, st)) ∧ ((s.sup.mcUp = true →
      u.sup.mcUp = true)) ∧ (u.isAssigned = true)) ∧
    (∃ s : State, ∃ u : State, ∃ c : Cell, ∃ i : Nat, ∃ st : Status, (s.startsAt c i = true) ∧ (c.op = 2) ∧ (c.wellFormed = true) ∧
      (isWindow c.req.cls = false) ∧ ((s.started c i).unitWrite c.from c.req.cls c.req.off c.req.data = (u, st)) ∧ ((s.sup.mcUp = true →
      u.sup.mcUp = true)) ∧ (u.isAssigned = true)) ∧
    (∃ s : State, ∃ u : State, ∃ c : Cell, ∃ i : Nat, ∃ st : Status, ∃ bs : List Byte, (s.startsAt c i = true) ∧ (c.op = 3) ∧ (c.wellFormed
      = true) ∧ ((s.started c i).unitAtomic c.from false c.req.cls c.req.off c.req.size (leNat c.req.data) 0 = (u, st, bs)) ∧ ((s.sup.mcUp =
      true → u.sup.mcUp = true)) ∧ (u.isAssigned = true)) ∧
    (∃ s : State, ∃ u : State, ∃ c : Cell, ∃ i : Nat, ∃ st : Status, ∃ bs : List Byte, (s.startsAt c i = true) ∧ (c.op = 4) ∧ (c.wellFormed
      = true) ∧ ((s.started c i).unitAtomic c.from true c.req.cls c.req.off c.req.size (leNat (c.req.data.take c.req.size)) (leNat
      (c.req.data.drop c.req.size)) = (u, st, bs)) ∧ ((s.sup.mcUp = true → u.sup.mcUp = true)) ∧ (u.isAssigned = true)) ∧
    (∃ s : State, ∃ c : Cell, ∃ i : Nat, (s.startsAt c i = true) ∧ (5 ≤ c.op.toNat)) ∧
    (∃ s : State, ∃ c : Cell, ∃ i : Nat, (s.startsAt c i = true) ∧ (c.op = 2) ∧ (c.wellFormed = true) ∧ (isWindow c.req.cls = true) ∧
      (s.hasRight c.from 1 = true) ∧ (s.on F.FW_STAT_RECOVERY = false) ∧ (s.windowHolds (c.req.cls - 0x10) c.req.off c.req.count = true) ∧
      (s.postedQueued < 8) ∧ (s.usb.bulk = [])) ∧
    (∃ s : State, ∃ c : Cell, ∃ i : Nat, (s.startsAt c i = true) ∧ ((s.dst i).applying = false)) :=
  ⟨⟨served,
     ((served.started (reqCell 0 2 (F.TM_SETS_SEC.key % 0x100000) 4 0 []) 0).unitRead (.ring 1 9) 2 (F.TM_SETS_SEC.key % 0x100000) 4 false).1,
     reqCell 0 2 (F.TM_SETS_SEC.key % 0x100000) 4 0 [], 0, false, .ok, [0, 0, 0, 0], by decide +kernel⟩,
   ⟨served, ((served.started (reqCell 1 2 (F.TM_SETS_SEC.key % 0x100000) 4 0 [1, 2, 3,
     4]) 0).unitWrite (.ring 1 9) 2 (F.TM_SETS_SEC.key % 0x100000) [1, 2, 3, 4]).1, reqCell 1 2 (F.TM_SETS_SEC.key % 0x100000) 4 0 [1, 2, 3,
     4], 0, .ok, by decide +kernel⟩,
   ⟨served, ((served.started (reqCell 2 2 (F.TM_SETS_SEC.key % 0x100000) 4 0 [1, 2, 3,
     4]) 0).unitWrite (.ring 1 9) 2 (F.TM_SETS_SEC.key % 0x100000) [1, 2, 3, 4]).1, reqCell 2 2 (F.TM_SETS_SEC.key % 0x100000) 4 0 [1, 2, 3,
     4], 0, .ok, by decide +kernel⟩,
   ⟨served, ((served.started (reqCell 3 2 (F.TM_SETS_SEC.key % 0x100000) 4 4 [1, 2, 3,
     4]) 0).unitAtomic (.ring 1 9) false 2 (F.TM_SETS_SEC.key % 0x100000) 4 0x04030201 0).1,
     reqCell 3 2 (F.TM_SETS_SEC.key % 0x100000) 4 4 [1, 2, 3, 4], 0, .ok, [0, 0, 0, 0], by decide +kernel⟩,
   ⟨served, ((served.started (reqCell 4 2 (F.TM_SETS_SEC.key % 0x100000) 4 4 [0, 0, 0, 0, 1, 2, 3,
     4]) 0).unitAtomic (.ring 1 9) true 2 (F.TM_SETS_SEC.key % 0x100000) 4 0 0x04030201).1,
     reqCell 4 2 (F.TM_SETS_SEC.key % 0x100000) 4 4 [0, 0, 0, 0, 1, 2, 3, 4], 0, .ok, [0, 0, 0, 0], by decide +kernel⟩,
   ⟨served, reqCell 5 2 0 4 0 [], 0, by decide +kernel⟩,
   ⟨{ put served [(F.BX_WINn_CFG_ENABLE 0, 1), (F.BX_WINn_CFG_SIZE 0, 12)] with weave := some (weaveOf [⟨1, 9, 31⟩] []) },
     reqCell 2 0x10 0 4 0 [1, 2, 3, 4], 0, by decide +kernel⟩,
   ⟨served, reqCell 10 0 0 0 0 [], 0, by decide +kernel⟩⟩

theorem test_witness_DestinationEntries :
    (∃ s : State, ∃ c : Cell, ∃ i : Nat, (s.isAssigned = true) ∧ (s.dstFind c.sring.toNat c.snode.toNat = some i)) ∧
    (∃ s : State, ∃ c : Cell, ∃ i : Nat, (s.isAssigned = true) ∧ (s.dstFind c.sring.toNat c.snode.toNat = none) ∧ (s.dstFree = some i)) ∧
    (∃ s : State, ∃ c : Cell, ∃ i : Nat, (s.isAssigned = true) ∧ (s.dstFind c.sring.toNat c.snode.toNat = some i) ∧ (0 < (c.seq.toNat +
      65536 - (s.dst i).expect) % 65536) ∧ ((c.seq.toNat + 65536 - (s.dst i).expect) % 65536 < 65528) ∧ (s.usb.bulk = [])) ∧
    (∃ s : State, ∃ i : Fin 256, ((s.dst i.val).used = true) ∧ ((s.dst i.val).ackDue = true)) ∧
    (∃ s : State, ∃ i : Fin 256, (s.dst i.val).applying = false) ∧
    (∃ s : State, ∃ u : State, ∃ src : Src, ∃ cls : Nat, ∃ off : Nat, ∃ a : Nat, ∃ w : Word, (cls ≤ 0x0D) ∧ (s.mayWriteAt src cls off =
      true) ∧ (off % 4 = 0) ∧ (s.wordsExist src cls off 1 = true) ∧ (plainWords cls off 1 = true) ∧ (s.readWords src cls off 1 = some (u,
      [w])) ∧ (w.toNat ≠ a)) ∧
    (∃ s : State, ∃ u : State, ∃ src : Src, ∃ cls : Nat, ∃ off : Nat, ∃ a : Nat, ∃ b : Nat, ∃ w : Word, ∃ v, (cls ≤ 0x0D) ∧ (s.mayWriteAt
      src cls off = true) ∧ (off % 4 = 0) ∧ (s.wordsExist src cls off 1 = true) ∧ (plainWords cls off 1 = true) ∧ (s.readWords src cls off 1
      = some (u, [w])) ∧ (w.toNat = a) ∧ (u.writeAll src cls off (wordsOf (leBytes b 4) 1) = (v, .ok))) ∧
    (∃ s : State, ∃ u : State, ∃ src : Src, ∃ cls : Nat, ∃ off : Nat, ∃ a : Nat, ∃ w : Word, ∃ v, (cls ≤ 0x0D) ∧ (s.mayWriteAt src cls off =
      true) ∧ (off % 4 = 0) ∧ (s.wordsExist src cls off 1 = true) ∧ (plainWords cls off 1 = true) ∧ (s.readWords src cls off 1 = some (u,
      [w])) ∧ (u.writeAll src cls off (wordsOf (leBytes ((w.toNat + a) % 2 ^ 32) 4) 1) = (v, .ok))) :=
  ⟨⟨served, { z with sring := 1, snode := 9, seq := 33 }, 0, by decide +kernel⟩,
   ⟨served, { z with sring := 1, snode := 10, seq := 33 }, 1, by decide +kernel⟩,
   ⟨served, { reqCell 1 2 0 4 0 [1, 2, 3, 4] with seq := 3 }, 0, by decide +kernel⟩,
   ⟨{ served with pair := { PairSt.init with dst := [(0, { DstEntry.init with used := true, pring := 1, pnode := 9, ackDue := true })] } },
     0, by decide +kernel⟩,
   ⟨served, 0, by decide +kernel⟩,
   ⟨up [], up [], .mc0, 2, F.TM_SETS_SEC.key % 0x100000, 5, 0, by decide +kernel⟩,
   ⟨up [], up [], .mc0, 2, F.TM_SETS_SEC.key % 0x100000, 0, 6, 0, ((up []).writeAll .mc0 2 (F.TM_SETS_SEC.key % 0x100000) [6]).1,
     by decide +kernel⟩,
   ⟨up [], up [], .mc0, 2, F.TM_SETS_SEC.key % 0x100000, 3, 0, ((up []).writeAll .mc0 2 (F.TM_SETS_SEC.key % 0x100000) [3]).1,
     by decide +kernel⟩⟩

theorem test_witness_SourceEntries :
    (∃ s : State, ∃ m : Src, ∃ op : BitVec 4, ∃ addr : BitVec 64, ∃ data : List Byte, ∃ i : Nat, (m.isRing = false) ∧ (op.toNat ≤ 4) ∧
      (data.length ≤ 2032) ∧ (s.isAssigned = true) ∧ (bitsOf addr.toNat 48 12 ≠ s.ownNode) ∧ (s.unreachable (addr.toNat / 2 ^ 60) = false) ∧
      (s.pair.queue = []) ∧ (s.srcFind (addr.toNat / 2 ^ 60) (bitsOf addr.toNat 48 12) = none) ∧ (s.srcFree = some i)) ∧
    (∃ s : State, ∃ i : Fin 256, ((s.srcE i.val).timer = true) ∧ ((s.srcE i.val).state = .active) ∧ ((s.srcE i.val).tries + 1 ≤ s.rd
      F.RG_XCFG_RETRIES) ∧ (s.usb.bulk = [])) ∧
    (∃ s : State, ∃ i : Fin 256, ((s.srcE i.val).timer = true) ∧ ((s.srcE i.val).state = .active) ∧ (s.rd F.RG_XCFG_RETRIES < (s.srcE
      i.val).tries + 1) ∧ (s.usb.bulk = [])) ∧
    (∃ s : State, ∃ i : Fin 256, (s.srcE i.val).state = .dead) ∧
    (∃ s : State, ∃ i : Fin 256, ((s.srcE i.val).state = .active) ∧ ((s.srcE i.val).kept = []) ∧ ((s.srcE i.val).waiting = []) ∧
      (s.pair.queue = [])) ∧
    (∃ s : State, ∃ c : Cell, ∃ i : Nat, s.answers c i = true) ∧
    (∃ s : State, ∃ c : Cell, ∃ i : Nat, s.answers c i = true) ∧
    (∃ s : State, ∃ c : Cell, ∃ i : Nat, s.answers c i = true) ∧
    (∃ s : State, ∃ c : Cell, ∃ i : Nat, s.answers c i = true) ∧
    (∃ s : State, ∃ c : Cell, ∃ i : Nat, s.answers c i = true) ∧
    (∃ s : State, ∃ c : Cell, ∃ i : Nat, ∃ k : Kept, ∃ m : Src, (s.answers c i = true) ∧ ((s.srcE i).kept = [k]) ∧ (k.posted = false) ∧
      (k.waiter = .master m) ∧ (m ≠ .s) ∧ (c.op ≠ 2)) ∧
    (∃ s : State, ∃ c : Cell, ∃ i : Nat, (s.srcFind c.sring.toNat c.snode.toNat = some i) ∧ ((s.srcE i).timer = true) ∧ ((s.srcE i).state =
      .sync) ∧ ((s.srcE i).base = c.seq.toNat) ∧ ((s.srcE i).failed = []) ∧ ((s.srcE i).waiting = []) ∧ (s.usb.bulk = [])) ∧
    (∃ s : State, ∃ c : Cell, ∃ i : Nat, (s.srcFind c.sring.toNat c.snode.toNat = some i) ∧ ((s.srcE i).timer = true) ∧ ((s.srcE i).state =
      .sync) ∧ ((s.srcE i).base = c.seq.toNat) ∧ (s.usb.bulk = [])) ∧
    (∃ s : State, ∃ c : Cell, (s.srcFind c.sring.toNat c.snode.toNat = none) ∧ (s.usb.bulk = [])) :=
  ⟨⟨node [], .mc0, 0, 0x1009020000000000, [], 0, by decide +kernel⟩,
   ⟨{ put (asking (waits 0)) [(F.RG_XCFG_RETRIES, 3)] with inbox := [] }, 0, by decide +kernel⟩,
   ⟨put (asking (waits 0)) [(F.RG_XCFG_RETRIES, 0)], 0, by decide +kernel⟩,
   ⟨asking { SrcEntry.init with state := .dead, base := 5 }, 0, by decide +kernel⟩,
   ⟨asking { SrcEntry.init with state := .active }, 0, by decide +kernel⟩,
   ⟨asking (waits 0), { z with sring := 1, snode := 9, seq := 7 }, 0, by decide +kernel⟩,
   ⟨asking (waits 1), { z with sring := 1, snode := 9, seq := 7, op := 1 }, 0, by decide +kernel⟩,
   ⟨asking (waits 2), { z with sring := 1, snode := 9, seq := 7, op := 2 }, 0, by decide +kernel⟩,
   ⟨asking (waits 3), { z with sring := 1, snode := 9, seq := 7, op := 3 }, 0, by decide +kernel⟩,
   ⟨asking (waits 0), { z with sring := 1, snode := 9, seq := 7, op := 10 }, 0, by decide +kernel⟩,
   ⟨asking (waits 0), { z with sring := 1, snode := 9, seq := 7, payload := [0, 0, 0, 1, 0, 0, 0, 4, 1, 2, 3, 4] }, 0, asked 0, .lxb,
     by decide +kernel⟩,
   ⟨asking { SrcEntry.init with state := .sync, base := 4, timer := true }, { z with sring := 1, snode := 9, seq := 4 }, 0,
     by decide +kernel⟩,
   ⟨asking { SrcEntry.init with state := .sync, base := 4, timer := true }, { z with sring := 1, snode := 9, seq := 4 }, 0,
     by decide +kernel⟩,
   ⟨node [], { z with sring := 1, snode := 9, seq := 4 }, by decide +kernel⟩⟩

theorem test_witness_BusMaster :
    (∃ s : State, (s.bridge.owner = .idle) ∧ (s.clocked 5 = true) ∧ (s.bridge.jobs = []) ∧ (s.on F.BX_LCFG_TARGET = true) ∧ (s.usb.bulk =
      [])) ∧
    (∃ s : State, ∃ j : LxbJob, ∃ r : List LxbJob, (s.bridge.owner = .idle) ∧ (s.clocked 5 = true) ∧ (s.roleHigh = true) ∧ (s.bridge.jobs =
      j :: r) ∧ (j.beat < j.lastBeat) ∧ (s.usb.bulk = [])) ∧
    (∃ s : State, ∃ j : LxbJob, ∃ r : List LxbJob, (s.bridge.owner = .hub) ∧ (s.bridge.jobs = j :: r) ∧ (j.win < 8) ∧ (j.beat + 1 < j.beats)
      ∧ (2 ≤ s.bridge.left) ∧ (s.usb.bulk = [])) ∧
    (∃ s : State, ∃ j : LxbJob, ∃ r : List LxbJob, ∃ m : Src, (s.bridge.owner = .hub) ∧ (s.bridge.jobs = j :: r) ∧ (j.win < 8) ∧ (j.beats ≤
      j.beat + 1) ∧ (j.posted = false) ∧ (j.write = false) ∧ (j.reply = .home (.master m)) ∧ (m ≠ .s) ∧ (s.bridge.held = []) ∧ (s.usb.bulk =
      [])) ∧
    (∃ s : State, ∃ j : LxbJob, ∃ r : List LxbJob, (s.bridge.owner = .hub) ∧ (s.bridge.jobs = j :: r) ∧ (j.win < 8) ∧ (s.bridge.held = []) ∧
      (s.usb.bulk = [])) ∧
    (∃ s : State, ∃ j : LxbJob, ∃ r : List LxbJob, (s.bridge.owner = .hub) ∧ (s.bridge.jobs = j :: r) ∧ (j.win < 8) ∧ (s.bridge.held = []) ∧
      (s.usb.bulk = [])) :=
  ⟨⟨onLxb .idle [] (up [(F.BX_LCFG_TARGET, 1)]), by decide +kernel⟩,
   ⟨onLxb .idle [job true false .mc0] (up []), job true false .mc0, [], by decide +kernel⟩,
   ⟨onLxb .hub [job false false .mc0] (up []), job false false .mc0, [], by decide +kernel⟩,
   ⟨onLxb .hub [{ job false false .mc0 with beat := 1, got := [1, 2, 3, 4] }] (up []),
     { job false false .mc0 with beat := 1, got := [1, 2, 3, 4] }, [], .mc0, by decide +kernel⟩,
   ⟨onLxb .hub [job false false .mc0] (up []), job false false .mc0, [], by decide +kernel⟩,
   ⟨onLxb .hub [job true true .mc0] (up []), job true true .mc0, [], by decide +kernel⟩⟩

theorem test_witness_BusTarget :
    (∃ s : State, ∃ u : State, ∃ addr : Word, ∃ bs : List Byte, (s.bridge.owner = .ext) ∧ (addr.toNat < 2 ^ 28) ∧ (bitsOf addr.toNat 20 8 ≤
      0x0E) ∧ (s.unitRead .lxb (bitsOf addr.toNat 20 8) (bitsOf addr.toNat 0 20) 4 false = (u, .ok, bs))) ∧
    (∃ s : State, ∃ u : State, ∃ addr : Word, ∃ w : Word, (s.bridge.owner = .ext) ∧ (addr.toNat < 2 ^ 28) ∧ (bitsOf addr.toNat 20 8 ≤ 0x0E)
      ∧ (s.unitWrite .lxb (bitsOf addr.toNat 20 8) (bitsOf addr.toNat 0 20) (leBytes w.toNat 4) = (u, .ok))) ∧
    (∃ s : State, ∃ addr : Word, ∃ beats : List (BitVec 4 × Word), (s.bridge.owner = .ext) ∧ (2 ^ 31 ≤ addr.toNat) ∧ (s.on
      (F.BX_FARn_CFG_ENABLE (bitsOf addr.toNat 28 3)) = true) ∧ (s.farUsed + (runsOf 0 none (beatLanes beats)).length ≤ 16)) ∧
    (∃ s : State, ∃ addr : Word, ∃ beats : List (BitVec 4 × Word), (s.bridge.owner = .ext) ∧ (2 ^ 31 ≤ addr.toNat) ∧ (s.on
      (F.BX_FARn_CFG_ENABLE (bitsOf addr.toNat 28 3)) = true) ∧ (16 < s.farUsed + (runsOf 0 none (beatLanes beats)).length) ∧ (s.clocked 5 =
      true) ∧ (s.roleHigh = true)) ∧
    (∃ s : State, ∃ addr : Word, ∃ bl : BitVec 4, ∃ be : BitVec 4, ∃ d : Nat, (s.bridge.owner = .ext) ∧ (2 ^ 31 ≤ addr.toNat) ∧ (s.on
      (F.BX_FARn_CFG_ENABLE (bitsOf addr.toNat 28 3)) = true) ∧ ((∀ d' < 4, ¬((s.slot d').state ≠ 0 ∧ (s.slot d').addr = addr.toNat ∧
      (s.slot d').bl = bl.toNat ∧ (s.slot d').be = be.toNat))) ∧ (s.bridge.expired = []) ∧ (((List.range 4).find? fun d => (s.slot d).state
      == 0) = some d)) ∧
    (∃ s : State, ∃ addr : Word, ∃ bl : BitVec 4, ∃ be : BitVec 4, ∃ d : Nat, (s.bridge.owner = .ext) ∧ (2 ^ 31 ≤ addr.toNat) ∧ (s.on
      (F.BX_FARn_CFG_ENABLE (bitsOf addr.toNat 28 3)) = true) ∧ (((List.range 4).find? fun d => (s.slot d).state != 0 && (s.slot d).addr ==
      addr.toNat && (s.slot d).bl == bl.toNat && (s.slot d).be == be.toNat) = some d) ∧ ((s.slot d).state = 2) ∧ (s.rd (F.BX_DRd_STAT_STATUS
      d) = 0) ∧ (s.clocked 5 = true) ∧ (s.roleHigh = true)) ∧
    (∃ s : State, ∃ d : Fin 4, (s.slot d.val).state = 1) ∧
    (∃ s : State, ∃ d : Fin 4, (s.slot d.val).state = 2) :=
  ⟨⟨onLxb .ext [] (up []), ((onLxb .ext [] (up [])).unitRead .lxb 2 (F.TM_SETS_SEC.key % 0x100000) 4 false).1,
     0x200000 + BitVec.ofNat 32 (F.TM_SETS_SEC.key % 0x100000), [0, 0, 0, 0], by decide +kernel⟩,
   ⟨onLxb .ext [] (up []), ((onLxb .ext [] (up [])).unitWrite .lxb 2 (F.TM_SETS_SEC.key % 0x100000) [4, 3, 2, 1]).1,
     0x200000 + BitVec.ofNat 32 (F.TM_SETS_SEC.key % 0x100000), 0x01020304, by decide +kernel⟩,
   ⟨onLxb .ext [] (node [(F.BX_FARn_CFG_ENABLE 0, 1)]), 0x80000000, [(15, 7), (3, 9)], by decide +kernel⟩,
   ⟨{ onLxb .ext [] (node [(F.BX_FARn_CFG_ENABLE 0, 1)]) with pair := { PairSt.init with queue := List.replicate 16 (z, true, .farWrite 0 0 4) } },
     0x80000000, [(15, 7)], by decide +kernel⟩,
   ⟨onLxb .ext [] (node [(F.BX_FARn_CFG_ENABLE 0, 1)]), 0x80000010, 1, 15, 0, by decide +kernel⟩,
   ⟨(onLxb .ext [] (node [(F.BX_FARn_CFG_ENABLE 0, 1), (F.BX_DRd_STAT_STATE 0,
     2)])).setSlot 0 { DrSlot.init with state := 2, addr := 0x80000010, bl := 1, be := 15, data := [1, 2, 3, 4] }, 0x80000010, 1, 15, 0,
     by decide +kernel⟩,
   ⟨(up []).setSlot 3 { DrSlot.init with state := 1, addr := 0x80000010, bl := 1, be := 15 }, 3, by decide +kernel⟩,
   ⟨(up []).setSlot 3 { DrSlot.init with state := 2, addr := 0x80000010, bl := 1, be := 15 }, 3, by decide +kernel⟩⟩

theorem test_witness_FramesAreForwarded :
    (∃ tag : BitVec 64, popCount tag.toNat 64 % 2 = 1) ∧
    (∃ tag : BitVec 64, (popCount tag.toNat 64 % 2 = 0) ∧ (bitsOf tag.toNat 62 1 = 1) ∧ (bitsOf tag.toNat 63 1 = 0)) ∧
    (∃ s : State, ∃ e : Fin 16, ∃ f : Frame, ∃ r : RouteTo, ∃ vid : Nat, (s.on (F.SW_PCFGn_ENABLE (e.val + 3)) = true) ∧ (s.on
      (F.SW_PSTATn_LINK (e.val + 3)) = true) ∧ (f.etype ≠ 0x8808) ∧ (s.on F.TM_DCFG_GMEN = false) ∧ (vid = s.vlanAt (e.val + 3) f) ∧ (s.on
      (F.SW_VLANv_VALID vid) = true) ∧ (bitsOf (s.rd (F.SW_VLANv_MEMBERS vid)) e.val 1 = 1) ∧ (s.routeEdge (e.val + 3) vid f.dst = some r)) ∧
    (∃ s : State, ∃ e : Fin 16, ∃ data : List Byte, ∃ x : InFrame, ∃ k : Nat, (Tbl.get none (e.val + 3) s.slath.inputs = some x) ∧ (x.cut =
      false) ∧ (64 ≤ ({ x.head with data := data } : Frame).size) ∧ (({ x.head with data := data } : Frame).size ≤ s.rd (F.SW_PCFGn_MAXLEN
      (e.val + 3))) ∧ (x.ptp = false) ∧ (x.ctl = false) ∧ (x.barred = false) ∧ (x.route = some { outs := [k], tunnel := none }) ∧ (s.on
      (F.SW_PCFGn_LEARN (e.val + 3)) = false)) ∧
    (∃ s : State, ∃ e : Fin 16, ∃ x : InFrame, (Tbl.get none (e.val + 3) s.slath.inputs = some x) ∧ (x.cut = false)) ∧
    (∃ s : State, ∃ c : Cell, ∃ q : Bool, ∃ pcp : BitVec 3, ∃ vid : BitVec 12, ∃ e : FdbEntry, ∃ k : Nat, (c.lt = false) ∧ ((frameOf
      c.frameBytes).tag = some (pcp, q, vid)) ∧ (s.on (F.SW_VLANv_VALID vid.toNat) = true) ∧ (isGroup (frameOf c.frameBytes).dst = false) ∧
      (((s.takeCell c).learn vid.toNat (frameOf c.frameBytes).src.toNat (.remote c.sring.toNat c.snode.toNat)).fdbFind vid.toNat (frameOf
      c.frameBytes).dst.toNat = some e) ∧ (e.dst = .edge k)) ∧
    (∃ s : State, ∃ p : Fin 27, ∃ tag : BitVec 64, ∃ b : BeatFrame, (popCount tag.toNat 64 % 2 = 0) ∧ (bitsOf tag.toNat 62 1 = 0) ∧ (bitsOf
      tag.toNat 63 1 = 0) ∧ (Tbl.get none p.val s.slath.beats = some b) ∧ (b.dead = true)) ∧
    (∃ s : State, ∃ e : Fin 16, ∃ data : List Byte, ∃ x : InFrame, ∃ r : RouteTo, (Tbl.get none (e.val + 3) s.slath.inputs = some x) ∧
      (x.cut = false) ∧ (64 ≤ ({ x.head with data := data } : Frame).size) ∧ (({ x.head with data := data } : Frame).size ≤ s.rd
      (F.SW_PCFGn_MAXLEN (e.val + 3))) ∧ (x.ptp = false) ∧ (x.ctl = false) ∧ (x.barred = false) ∧ (x.route = some r) ∧ (r.tunnel = none) ∧
      (s.on (F.SW_PCFGn_LEARN (e.val + 3)) = false)) ∧
    (∃ s : State, ∃ e : Fin 16, ∃ data : List Byte, ∃ x : InFrame, ∃ k : Nat, (Tbl.get none (e.val + 3) s.slath.inputs = some x) ∧ (x.cut =
      false) ∧ (64 ≤ ({ x.head with data := data } : Frame).size) ∧ (({ x.head with data := data } : Frame).size ≤ s.rd (F.SW_PCFGn_MAXLEN
      (e.val + 3))) ∧ (x.ptp = false) ∧ (x.route = some { outs := [k], tunnel := none })) :=
  ⟨⟨1, by decide +kernel⟩,
   ⟨0x4000000000000001, by decide +kernel⟩,
   ⟨up [(F.SW_PCFGn_ENABLE 18, 1), (F.SW_PSTATn_LINK 18, 1), (F.SW_PVIDn_PVID 18, 7), (F.SW_VLANv_VALID 7, 1), (F.SW_VLANv_MEMBERS 7,
     0xFFFF)], 15, zf, { outs := (List.range 15).map (· + 3), tunnel := none }, 7, by decide +kernel⟩,
   ⟨{ up [(F.SW_PCFGn_MAXLEN 3, 1518), (F.SW_PCFGn_LEARN 3, 0)] with slath := { SlathSt.init with inputs := [(3, some { head := zf, vid := 7, pcp := 0, tc := 0, dp := 0, route := some { outs := [4], tunnel := none }, cut := false, cutOuts := [], ptp := false, ctl := false, barred := false, stampSec := 0, stampNs := 0 })] } },
     0, List.replicate 60 0,
     { head := zf, vid := 7, pcp := 0, tc := 0, dp := 0, route := some { outs := [4], tunnel := none }, cut := false, cutOuts := [], ptp := false, ctl := false, barred := false, stampSec := 0, stampNs := 0 },
     4, by decide +kernel⟩,
   ⟨{ up [] with slath := { SlathSt.init with inputs := [(3, some { head := zf, vid := 7, pcp := 0, tc := 0, dp := 0, route := none, cut := false, cutOuts := [], ptp := false, ctl := false, barred := false, stampSec := 0, stampNs := 0 })] } },
     0,
     { head := zf, vid := 7, pcp := 0, tc := 0, dp := 0, route := none, cut := false, cutOuts := [], ptp := false, ctl := false, barred := false, stampSec := 0, stampNs := 0 },
     by decide +kernel⟩,
   ⟨withFdb [fdbE 0x020000000001 (.edge 2)] (up [(F.SW_VLANv_VALID 7, 1)]),
     { z with payload := [2, 0, 0, 0, 0, 1, 2, 0, 0, 0, 0, 2, 0x81, 0, 0, 7, 8, 0, 1, 2] }, false, 0, 7, fdbE 0x020000000001 (.edge 2), 2,
     by decide +kernel⟩,
   ⟨{ up [] with slath := { SlathSt.init with beats := [(0, some { bytes := [], route := 0, tc := 0, dp := 0, lti := 0, ct := false, src := 0, poison := false, dead := true, begun := [] })] } },
     0, 0, { bytes := [], route := 0, tc := 0, dp := 0, lti := 0, ct := false, src := 0, poison := false, dead := true, begun := [] },
     by decide +kernel⟩,
   ⟨{ up [(F.SW_PCFGn_MAXLEN 3, 1518), (F.SW_PCFGn_LEARN 3, 0)] with slath := { SlathSt.init with inputs := [(3, some { head := zf, vid := 7, pcp := 0, tc := 0, dp := 0, route := some { outs := [4, 5], tunnel := none }, cut := false, cutOuts := [], ptp := false, ctl := false, barred := false, stampSec := 0, stampNs := 0 })] } },
     0, List.replicate 60 0,
     { head := zf, vid := 7, pcp := 0, tc := 0, dp := 0, route := some { outs := [4, 5], tunnel := none }, cut := false, cutOuts := [], ptp := false, ctl := false, barred := false, stampSec := 0, stampNs := 0 },
     { outs := [4, 5], tunnel := none }, by decide +kernel⟩,
   ⟨{ up [(F.SW_PCFGn_MAXLEN 3, 1518), (F.SW_PCFGn_LEARN 3, 0)] with slath := { SlathSt.init with inputs := [(3, some { head := zf, vid := 7, pcp := 0, tc := 0, dp := 0, route := some { outs := [4], tunnel := none }, cut := false, cutOuts := [], ptp := false, ctl := false, barred := false, stampSec := 0, stampNs := 0 })] } },
     0, List.replicate 60 0,
     { head := zf, vid := 7, pcp := 0, tc := 0, dp := 0, route := some { outs := [4], tunnel := none }, cut := false, cutOuts := [], ptp := false, ctl := false, barred := false, stampSec := 0, stampNs := 0 },
     4, by decide +kernel⟩⟩

theorem test_witness_PauseAndPortHold :
    (∃ s : State, ∃ e : Fin 16, (s.on (F.SW_PCFGn_PAUSERX (e.val + 3)) = true) ∧ (s.on (F.SW_PCFGn_PFC (e.val + 3)) = false)) ∧
    (∃ s : State, ∃ e : Fin 16, s.on (F.SW_PCFGn_PFC (e.val + 3)) = true) ∧
    (∃ s : State, ∃ e : Fin 16, (s.on (F.SW_PSTATn_XOFF (e.val + 3)) = true) ∧ (s.rd (F.SW_FCn_XON (e.val + 3)) < Tbl.get 0 (e.val + 3)
      s.slath.heldBy) ∧ (s.clocked 2 = true) ∧ (s.roleHigh = true)) ∧
    (∃ s : State, ∃ n : Fin 17, (n ≠ 0) ∧ (s.on (F.SW_PSTATn_LINK (n.val + 2)) = true) ∧ (Tbl.get none (n.val + 2) s.slath.inputs = none) ∧
      (s.rd (F.SW_HOLDn_HOLD (n.val + 2)) ≠ 0)) ∧
    (∃ s : State, ∃ n : Fin 17, ∃ speed : BitVec 2, ∃ v : Nat, (n ≠ 0) ∧ (s.on (F.SW_PSTATn_LINK (n.val + 2)) = false) ∧ ((s.outOf (n.val +
      2)).holding = true) ∧ (s.on (F.SW_PCFGn_ENABLE (n.val + 2)) = true) ∧ (modeSpeed (s.rd (F.SW_PCFGn_MODE (n.val + 2))) speed.toNat =
      some v)) ∧
    (∃ s : State, ∃ n : Fin 17, (s.outOf (n.val + 2)).holding = true) ∧
    (∃ s : State, ∃ src : Src, ∃ n : Fin 17, (s.takesFields src [(F.SW_PCFGn_ENABLE (n.val + 2), 0)] = true) ∧ (s.on (F.SW_PCFGn_ENABLE
      (n.val + 2)) = true)) ∧
    (∃ n : Fin 17, n ≠ 0) ∧
    (∃ s : State, ∃ n : Nat, s.outFlushing n = true) :=
  ⟨⟨up [(F.SW_PCFGn_PAUSERX 18, 1)], 15, by decide +kernel⟩,
   ⟨up [(F.SW_PCFGn_PFC 18, 1)], 15, by decide +kernel⟩,
   ⟨{ up [(F.SW_PSTATn_XOFF 3, 1)] with slath := { SlathSt.init with heldBy := [(3, 5000)] } }, 0, by decide +kernel⟩,
   ⟨up [(F.SW_PSTATn_LINK 3, 1), (F.SW_HOLDn_HOLD 3, 10)], 1, by decide +kernel⟩,
   ⟨(up [(F.SW_PCFGn_ENABLE 18, 1), (F.SW_PCFGn_MODE 18, 0)]).setOut 18 { OutSt.init with holding := true }, 16, 2, 2, by decide +kernel⟩,
   ⟨(up []).setOut 18 { OutSt.init with holding := true }, 16, by decide +kernel⟩,
   ⟨{ up [(F.SW_PCFGn_ENABLE 5, 1), (F.SW_PCFGn_MAXLEN 5, 1522)] with weave := some (opening [F.SW_PCFGn_ENABLE 5]) }, .mc0, 3,
     by decide +kernel⟩,
   ⟨1, by decide +kernel⟩,
   ⟨up [], 5, by decide +kernel⟩⟩

theorem test_witness_OverflowAndHashes :
    (∃ s : State, s.on F.SW_OVCFG_FITTED = true) ∧
    (∃ s : State, ∃ n : Fin 19, ∃ q : Fin 8, ∃ i : EItem, ((((s.outOf n.val).queue q.val).find? fun i => !i.spill.isEmpty) = some i) ∧
      ((((s.outOf n.val).queue q.val).map fun i => i.ded + i.shr).sum < 8)) ∧
    (∃ s : State, ∃ src : Src, ∃ h : Fin 3, s.takesFields src [(F.SW_HASHCTL_SEL, s.rd F.SW_HASHCTL_SEL ^^^ 2 ^ h.val)] = true) ∧
    (∃ s : State, (s.switching 0 = true) ∧ ((if s.sel 0 = 0 then s.slath.blocks1 else s.slath.blocks0) = 0)) ∧
    (∃ s : State, ∃ l : List FdbEntry, ∃ lost : Nat, (s.switching 1 = true) ∧ (s.slath.fdbWaiting = false) ∧ (fdbWalk (s.seed 1 (s.sel 1))
      s.slath.fdb [] 0 = some (l, lost))) ∧
    (∃ s : State, (s.switching 2 = true) ∧ (s.slath.flowMoved.length = 4096)) ∧
    (∃ s : State, s.switching 2 = true) ∧
    (∃ s : State, s.slath.flowMoved.length ≠ 4096) :=
  ⟨⟨up [(F.SW_OVCFG_FITTED, 1)], by decide +kernel⟩,
   ⟨(up []).setOut 4 { OutSt.init with items := [{ item 2 with ded := 1, spill := [(4, 0), (5, 0)] }] }, 4, 2,
     { item 2 with ded := 1, spill := [(4, 0), (5, 0)] }, by decide +kernel⟩,
   ⟨up [], .mc0, 2, by decide +kernel⟩,
   ⟨up [(F.SW_HASHCTL_SWITCHING, 1)], by decide +kernel⟩,
   ⟨withFdb [fdbE 9 .discard] (up [(F.SW_HASHCTL_SWITCHING, 2)]),
     [{ fdbE 9 .discard with bucket := some (fdbBucket ((up [(F.SW_HASHCTL_SWITCHING, 2)]).seed 1 0) 7 9) }], 0, by decide +kernel⟩,
   ⟨{ up [(F.SW_HASHCTL_SWITCHING, 4)] with slath := { SlathSt.init with flowMoved := (List.range 4096).map (·, true) } },
     by decide +kernel⟩,
   ⟨up [(F.SW_HASHCTL_SWITCHING, 4)], by decide +kernel⟩,
   ⟨up [(F.SW_HASHCTL_SWITCHING, 4)], by decide +kernel⟩⟩

theorem test_witness_ForwardingDatabase :
    (∃ s : State, s.rd F.SW_AGE_SEC ≠ 0) ∧
    (∃ s : State, ∃ src : Src, ∃ pl : Option Nat, (s.takesFields src [(F.SW_FDBCMD_OP, 1), (F.SW_FDBCMD_BUSY, 1)] = true) ∧ (s.switching 1 =
      false) ∧ (s.fdbFind (s.rd F.SW_FDBMACH_VID) (s.rd F.SW_FDBMACH_MAC * 2 ^ 32 + s.rd F.SW_FDBMACL_MAC) = none) ∧ (fdbPlace s.slath.fdb
      (fdbBucket (s.seed 1 (s.sel 1)) (s.rd F.SW_FDBMACH_VID) (s.rd F.SW_FDBMACH_MAC * 2 ^ 32 + s.rd F.SW_FDBMACL_MAC)) = some pl)) ∧
    (∃ s : State, ∃ src : Src, (s.takesFields src [(F.SW_FDBCMD_OP, 1), (F.SW_FDBCMD_BUSY, 1)] = true) ∧ (s.switching 1 = false) ∧
      (s.fdbFind (s.rd F.SW_FDBMACH_VID) (s.rd F.SW_FDBMACH_MAC * 2 ^ 32 + s.rd F.SW_FDBMACL_MAC) = none) ∧ (fdbPlace s.slath.fdb (fdbBucket
      (s.seed 1 (s.sel 1)) (s.rd F.SW_FDBMACH_VID) (s.rd F.SW_FDBMACH_MAC * 2 ^ 32 + s.rd F.SW_FDBMACL_MAC)) = none)) ∧
    (∃ s : State, ∃ src : Src, ∃ e : FdbEntry, (s.takesFields src [(F.SW_FDBCMD_OP, 2), (F.SW_FDBCMD_BUSY, 1)] = true) ∧ (s.switching 1 =
      false) ∧ (s.fdbFind (s.rd F.SW_FDBMACH_VID) (s.rd F.SW_FDBMACH_MAC * 2 ^ 32 + s.rd F.SW_FDBMACL_MAC) = some e)) ∧
    (∃ s : State, ∃ src : Src, ∃ e : FdbEntry, (s.takesFields src [(F.SW_FDBCMD_OP, 3), (F.SW_FDBCMD_BUSY, 1)] = true) ∧ (s.switching 1 =
      false) ∧ (s.fdbFind (s.rd F.SW_FDBMACH_VID) (s.rd F.SW_FDBMACH_MAC * 2 ^ 32 + s.rd F.SW_FDBMACL_MAC) = some e)) ∧
    (∃ s : State, ∃ src : Src, (s.takesFields src [(F.SW_FDBCMD_OP, 3), (F.SW_FDBCMD_BUSY, 1)] = true) ∧ (s.switching 1 = false) ∧
      (s.fdbFind (s.rd F.SW_FDBMACH_VID) (s.rd F.SW_FDBMACH_MAC * 2 ^ 32 + s.rd F.SW_FDBMACL_MAC) = none)) ∧
    (∃ s : State, ∃ src : Src, (s.takesFields src [(F.SW_FDBCMD_OP, 4), (F.SW_FDBCMD_BUSY, 1)] = true) ∧ (s.switching 1 = false)) ∧
    (∃ s : State, ∃ src : Src, (s.takesFields src [(F.SW_FDBCMD_OP, 5), (F.SW_FDBCMD_BUSY, 1)] = true) ∧ (s.switching 1 = false)) :=
  ⟨⟨withFdb [fdbE 9 .discard] (up [(F.SW_AGE_SEC, 300)]), by decide +kernel⟩,
   ⟨up [(F.SW_FDBMACH_VID, 7), (F.SW_FDBMACL_MAC, 9)], .mc0, some (fdbBucket ((up []).seed 1 0) 7 9), by decide +kernel⟩,
   ⟨withFdb (List.replicate 64 (fdbE 8 .discard) ++ List.replicate 4 { fdbE 8 .discard with bucket := some (fdbBucket ((up []).seed 1 0) 7 9) }) (up [(F.SW_FDBMACH_VID,
     7), (F.SW_FDBMACL_MAC, 9)]), .mc0, by decide +kernel⟩,
   ⟨withFdb [fdbE 9 .discard] (up [(F.SW_FDBMACH_VID, 7), (F.SW_FDBMACL_MAC, 9)]), .mc0, fdbE 9 .discard, by decide +kernel⟩,
   ⟨withFdb [fdbE 9 .discard] (up [(F.SW_FDBMACH_VID, 7), (F.SW_FDBMACL_MAC, 9)]), .mc0, fdbE 9 .discard, by decide +kernel⟩,
   ⟨up [(F.SW_FDBMACH_VID, 7), (F.SW_FDBMACL_MAC, 9)], .mc0, by decide +kernel⟩,
   ⟨withFdb [fdbE 9 .discard] (up []), .mc0, by decide +kernel⟩,
   ⟨withFdb [fdbE 9 .discard] (up []), .mc0, by decide +kernel⟩⟩

theorem test_witness_EgressService :
    (∃ s : State, ∃ n : Fin 25, ∃ h : EItem, ((s.outOf (n.val + 2)).sending = none) ∧ ((n.val ≤ 16 → s.on (F.SW_PSTATn_LINK (n.val + 2)) =
      true)) ∧ ((isEdge (n.val + 2) = true → s.clocked 2 = true)) ∧ ((∀ i ∈ (s.outOf (n.val + 2)).items, i.poison = false)) ∧ (s.eligible
      (n.val + 2) 7 = true) ∧ ((s.outOf (n.val + 2)).head 7 = some h)) ∧
    (∃ s : State, ∃ n : Fin 25, ∃ x : Sending, ∃ bad : Bool, ((s.outOf (n.val + 2)).sending = some x) ∧ (x.awaits = false) ∧ (s.sends
      (s.leaves (n.val + 2) x.item (x.stomp || bad)) = true)) ∧
    (∃ s : State, ∃ n : Fin 19, ∃ q : Fin 8, ∃ e : Int, (s.outOf n.val).elig.getD q.val none = some e) ∧
    (∃ s : State, ∃ n : Fin 17, ∃ q : Fin 8, ∃ h : EItem, ((s.outOf (n.val + 2)).head q.val = some h) ∧ (s.unsendable (n.val + 2) q.val =
      true)) ∧
    (∃ s : State, ∃ n : Fin 16, ∃ lti : BitVec 12, (lti ≠ 0) ∧ ((∃ i ∈ (s.outOf (n.val + 3)).items, i.lti = lti.toNat))) ∧
    (∃ s : State, ∃ n : Fin 16, ∃ lti : BitVec 12, (lti ≠ 0) ∧ ((∃ i ∈ (s.outOf (n.val + 3)).items, i.lti = lti.toNat))) ∧
    (∃ s : State, ∃ n : Fin 25, ∃ h : EItem, ((s.outOf (n.val + 2)).sending = none) ∧ ((n.val ≤ 16 → s.on (F.SW_PSTATn_LINK (n.val + 2)) =
      true)) ∧ ((isEdge (n.val + 2) = true → s.clocked 2 = true)) ∧ ((∀ i ∈ (s.outOf (n.val + 2)).items, i.poison = false)) ∧ (s.eligible
      (n.val + 2) 7 = true) ∧ ((s.outOf (n.val + 2)).head 7 = some h)) :=
  ⟨⟨(up [(F.SW_PSTATn_LINK 3, 1), (F.SW_PCFGn_ENABLE 3, 1)]).setOut 3 { OutSt.init with items := [item 7] }, 1, item 7, by decide +kernel⟩,
   ⟨(up [(F.SW_PCFGn_ENABLE 3,
     1)]).setOut 3 { OutSt.init with sending := some { item := item 7, start := 0, rate := 0, burst := 0, cut := false, awaits := false, close := none, stomp := false } },
     1, { item := item 7, start := 0, rate := 0, burst := 0, cut := false, awaits := false, close := none, stomp := false }, false,
     by decide +kernel⟩,
   ⟨(up []).setOut 3 { OutSt.init with elig := [some 5000000, none, none, none, none, none, none, none] }, 3, 0, 5000000, by decide +kernel⟩,
   ⟨(up [(F.SW_GWMAXn_q_WMAX 3 7, 0)]).setOut 3 { OutSt.init with items := [item 7] }, 1, 7, item 7, by decide +kernel⟩,
   ⟨{ (up []).setOut 3 { OutSt.init with items := [{ item 7 with lti := 2 }] } with tm := { TimeSt.init with launch := [(2, { LaunchE.free with sec := 1, refs := 1 })] } },
     0, 2, by decide +kernel⟩,
   ⟨{ (up []).setOut 3 { OutSt.init with items := [{ item 7 with lti := 2 }] } with tm := { TimeSt.init with launch := [(2, { LaunchE.free with sec := 1, refs := 1 })] } },
     0, 2, by decide +kernel⟩,
   ⟨(up [(F.SW_PCFGn_ENABLE 3, 1), (F.SW_PSTATn_LINK 3, 1), (F.SW_PSTATn_SPEED 3, 2)]).setOut 3 { OutSt.init with items := [item 7] }, 1,
     item 7, by decide +kernel⟩⟩

theorem test_witness_TimeGates :
    (∃ s : State, ∃ src : Src, ∃ n : Fin 17, ∃ l : Bool, (s.takesFields src [(F.SW_GCTLn_ARM (n.val + 2), 1), (F.SW_GCTLn_PLIST (n.val + 2),
      b2n l)] = true) ∧ ((s.outOf (n.val + 2)).armed = none) ∧ (s.reached (s.rd (F.SW_GSWAPSn_SEC (n.val + 2))) (s.rd (F.SW_GSWAPNSn_NS
      (n.val + 2))) 0 = false)) ∧
    (∃ s : State, ∃ src : Src, ∃ n : Fin 17, (s.takesFields src [(F.SW_GCTLn_DISARM (n.val + 2), 1)] = true) ∧ ((s.outOf (n.val +
      2)).armed.isSome = true)) ∧
    (∃ s : State, ∃ src : Src, ∃ n : Fin 17, s.takesFields src [(F.SW_GCTLn_OFF (n.val + 2), 1)] = true) ∧
    (∃ s : State, ∃ n : Fin 17, ∃ l : Nat, (s.outOf (n.val + 2)).armed = some l) ∧
    (∃ s : State, ∃ n : Fin 17, ∃ es : List (Nat × Nat), ∃ k : Nat, ∃ ran : Nat, s.gatePos (n.val + 2) = some (es, k, ran)) :=
  ⟨⟨up [(F.SW_GSWAPSn_SEC 4, 9), (F.SW_GLENn_l_LEN 4 1, 1), (F.SW_GIn_l_e_INTERVAL 4 1 0, 1000), (F.SW_GSn_l_e_STATE 4 1 0, 255)], .mc0, 2,
     true, by decide +kernel⟩,
   ⟨(up [(F.SW_GSTATn_ARMED 4, 1)]).setOut 4 { OutSt.init with armed := some 1 }, .mc0, 2, by decide +kernel⟩,
   ⟨up [], .mc0, 2, by decide +kernel⟩,
   ⟨(up [(F.SW_GSWAPSn_SEC 4, 9), (F.SW_GLENn_l_LEN 4 1, 1), (F.SW_GIn_l_e_INTERVAL 4 1 0, 1000), (F.SW_GSn_l_e_STATE 4 1 0,
     255)]).setOut 4 { OutSt.init with armed := some 1 }, 2, 1, by decide +kernel⟩,
   ⟨(up [(F.SW_GLENn_l_LEN 4 1, 1), (F.SW_GIn_l_e_INTERVAL 4 1 0, 1000), (F.SW_GSn_l_e_STATE 4 1 0,
     255)]).setOut 4 { OutSt.init with active := some 1 }, 2, [(255, 1000 * nsUnit)], 0, 0, by decide +kernel⟩⟩

theorem test_witness_TimeReadsAndDistribution :
    (∃ s : State, ∃ src : Src, ∃ b : Bool, s.takesField src (if b then F.TM_SEC48L_SEC else F.TM_SEC_SEC) = true) ∧
    (∃ s : State, ∃ src : Src, s.takesFields src [(F.TM_CTL_SNAP, 1)] = true) ∧
    (∃ s : State, ∃ src : Src, s.takesFields src [(F.TM_CTL_STEP, 1)] = true) ∧
    (∃ s : State, ∃ p : PortR, s.isUp p.val = true) ∧
    (∃ s : State, ∃ p : PortR, ∃ c : Cell, ∃ w : PdPending, (Tbl.get none p.val s.tm.pdWait = some w) ∧ (beAt c.payload 0 2 = w.seq) ∧
      ((Tbl.get [] p.val s.tm.pdKept).length < 8)) ∧
    (∃ s : State, ∃ p : PortR, Tbl.get none p.val s.tm.pdWait = none) ∧
    (∃ s : State, (s.on F.RG_ROLE_ROOT = true) ∧ (s.isUp 0 = true) ∧ (s.isUp 1 = true) ∧ (s.wrapped 0 = false) ∧ (s.wrapped 1 = false) ∧ ((∀
      n : Fin 2, Tbl.get 0 n.val s.slath.ded < s.dedCells n.val ∧ (s.outOf n.val).spilled 6 = false))) ∧
    (∃ s : State, ∃ c : Cell, (s.on F.RG_ROLE_ROOT = false) ∧ (c.wraps = 0) ∧ (c.snode = 0) ∧ (s.isOwnRing c.sring.toNat = true) ∧ (c.ring =
      false) ∧ (s.on F.TM_DSTAT_SRCRING = false) ∧ (s.tm.lastUsed = none) ∧ (s.tm.syncLost = false)) ∧
    (∃ s : State, ∃ c : Cell, (s.on F.RG_ROLE_ROOT = false) ∧ (c.wraps = 0) ∧ ((c.snode ≠ 0 ∨ s.isOwnRing c.sring.toNat = false))) ∧
    (∃ s : State, (s.on F.RG_ROLE_ROOT = false) ∧ (s.rd F.TM_DSTAT_STATE = 1 ∨ s.rd F.TM_DSTAT_STATE = 2)) ∧
    (∃ s : State, ∃ d : Byte, (s.on F.RG_ROLE_ROOT = true) ∧ (s.on F.TM_DCFG_GMEN = true) ∧ (s.rd F.TM_DCFG_DOMAIN = d.toNat)) ∧
    (∃ s : State, (s.on F.RG_ROLE_ROOT = true) ∧ (s.rd F.TM_DSTAT_STATE = 1 ∨ s.rd F.TM_DSTAT_STATE = 2)) ∧
    (∃ s : State, ∃ d : Byte, s.rd F.TM_DCFG_DOMAIN ≠ d.toNat) :=
  ⟨⟨up [], .mc0, true, by decide +kernel⟩,
   ⟨up [], .mc0, by decide +kernel⟩,
   ⟨up [(F.TM_SETS_SEC, 5)], .mc0, by decide +kernel⟩,
   ⟨up [(F.RGp_LSTAT_STATE 1, 4)], 1, by decide +kernel⟩,
   ⟨{ up [] with tm := { TimeSt.init with pdWait := [(0, some { seq := 7, t1 := 100 })] } }, 0, { z with payload := [0, 7] },
     { seq := 7, t1 := 100 }, by decide +kernel⟩,
   ⟨up [], 0, by decide +kernel⟩,
   ⟨up [(F.RG_ROLE_ROOT, 1), (F.RGp_LSTAT_STATE 0, 4), (F.RGp_LSTAT_STATE 1, 4)], by decide +kernel⟩,
   ⟨up [(F.RG_SELF_ASSIGNED, 1), (F.RG_SELF_RING, 1)], { z with sring := 1, payload := List.replicate 32 0 }, by decide +kernel⟩,
   ⟨up [(F.RG_SELF_RING, 1)], { z with sring := 1, snode := 7, payload := List.replicate 32 0 }, by decide +kernel⟩,
   ⟨up [(F.TM_DSTAT_STATE, 2)], by decide +kernel⟩,
   ⟨up [(F.RG_ROLE_ROOT, 1), (F.TM_DCFG_GMEN, 1)], 0, by decide +kernel⟩,
   ⟨up [(F.RG_ROLE_ROOT, 1), (F.TM_DSTAT_STATE, 1)], by decide +kernel⟩,
   ⟨up [(F.RG_ROLE_ROOT, 1), (F.TM_DCFG_GMEN, 1)], 3, by decide +kernel⟩⟩

theorem test_witness_ComparesAndCaptures :
    (∃ s : State, ∃ src : Src, ∃ e : Fin 16, s.takesField src (F.TM_TXIDn_SEQID e.val) = true) ∧
    (∃ s : State, ∃ src : Src, ∃ k : Fin 32, (s.takesFields src [(F.TM_CMPk_CFG_ARM k.val, 1)] = true) ∧ (s.on (F.TM_CMPk_CFG_ARM k.val) =
      false) ∧ (s.reached (s.rd (F.TM_CMPk_S_SEC k.val)) (s.rd (F.TM_CMPk_NS_NS k.val)) 0 = false)) ∧
    (∃ s : State, ∃ src : Src, ∃ k : Fin 32, (s.takesFields src [(F.TM_CMPk_CFG_ARM k.val, 1)] = true) ∧ (s.on (F.TM_CMPk_CFG_ARM k.val) =
      false) ∧ (s.reached (s.rd (F.TM_CMPk_S_SEC k.val)) (s.rd (F.TM_CMPk_NS_NS k.val)) 0 = true) ∧ (s.rd (F.TM_CMPk_PER_PERIOD k.val) = 0)) ∧
    (∃ s : State, ∃ src : Src, ∃ k : Fin 32, (s.takesFields src [(F.TM_CMPk_CFG_DISARM k.val, 1)] = true) ∧ (s.on (F.TM_CMPk_CFG_ARM k.val)
      = true) ∧ (Tbl.get false k.val s.tm.fired = false)) ∧
    (∃ s : State, ∃ k : Fin 32, (s.on (F.TM_CMPk_CFG_ARM k.val) = true) ∧ (s.rd (F.TM_CMPk_PER_PERIOD k.val) = 0)) ∧
    (∃ s : State, ∃ k : Fin 32, (s.on (F.TM_CMPk_CFG_ARM k.val) = true) ∧ (s.rd (F.TM_CMPk_PER_PERIOD k.val) ≠ 0)) ∧
    (∃ s : State, ∃ c : Fin 4, ∃ held : Byte, (s.on (F.TM_CAPc_CFG_ENABLE c.val) = true) ∧ (s.rd (F.TM_CAPc_CFG_EDGE c.val) = 3) ∧ (s.rd
      (F.TM_CAPc_CFG_FILT c.val) ≤ held.toNat) ∧ ((s.caps c.val).length < 8)) ∧
    (∃ s : State, ∃ c : Fin 4, ∃ held : Byte, (s.on (F.TM_CAPc_CFG_ENABLE c.val) = true) ∧ (s.rd (F.TM_CAPc_CFG_EDGE c.val) = 3) ∧ (s.rd
      (F.TM_CAPc_CFG_FILT c.val) ≤ held.toNat) ∧ (8 ≤ (s.caps c.val).length)) ∧
    (∃ s : State, ∃ src : Src, ∃ c : Fin 4, s.takesField src (F.TM_CAPc_NS_NS c.val) = true) ∧
    (∃ s : State, ∃ i : Fin 2, (s.on (F.TM_PPSi_CFG_ENABLE i.val) = true) ∧ (s.on (F.TM_PPSi_CFG_LOCKONLY i.val) = false)) ∧
    (∃ s : State, ∃ c : Fin 4, ∃ held : Byte, held.toNat < s.rd (F.TM_CAPc_CFG_FILT c.val)) :=
  ⟨⟨{ up [] with tm := { TimeSt.init with stamps := [(2, [(1, 2, 3, 4)])] } }, .mc0, 2, by decide +kernel⟩,
   ⟨{ up [(F.TM_CMPk_S_SEC 31, 5)] with weave := some (weaveOf [] [⟨2, 0, 4, 0, 0, 32⟩]) }, .mc0, 31, by decide +kernel⟩,
   ⟨{ up [] with weave := some (weaveOf [] [⟨2, 0, 4, 0, 0, 32⟩]) }, .mc0, 31, by decide +kernel⟩,
   ⟨{ up [(F.TM_CMPk_CFG_ARM 31, 1)] with weave := some (weaveOf [] [⟨2, 0, 4, 0, 0, 32⟩]) }, .mc0, 31, by decide +kernel⟩,
   ⟨up [(F.TM_CMPk_CFG_ARM 0, 1), (F.TM_CMPk_S_SEC 0, 5)], 0, by decide +kernel⟩,
   ⟨up [(F.TM_CMPk_CFG_ARM 0, 1), (F.TM_CMPk_S_SEC 0, 5), (F.TM_CMPk_PER_PERIOD 0, 1000)], 0, by decide +kernel⟩,
   ⟨up [(F.TM_CAPc_CFG_ENABLE 3, 1), (F.TM_CAPc_CFG_EDGE 3, 3)], 3, 0, by decide +kernel⟩,
   ⟨{ up [(F.TM_CAPc_CFG_ENABLE 3, 1), (F.TM_CAPc_CFG_EDGE 3, 3)] with tm := { TimeSt.init with caps := [(3, List.replicate 8 (1, 2, true))] } },
     3, 0, by decide +kernel⟩,
   ⟨{ up [] with tm := { TimeSt.init with caps := [(3, [(1, 2, true)])] } }, .mc0, 3, by decide +kernel⟩,
   ⟨up [(F.TM_PPSi_CFG_ENABLE 1, 1), (F.TM_PPSi_CFG_LOCKONLY 1, 0)], 1, by decide +kernel⟩,
   ⟨up [(F.TM_CAPc_CFG_ENABLE 3, 1), (F.TM_CAPc_CFG_EDGE 3, 3), (F.TM_CAPc_CFG_FILT 3, 5)], 3, 4, by decide +kernel⟩⟩

theorem test_witness_ScheduledActions :
    (∃ s : State, ∃ c : Cell, (s.hasRight c.from 1 = true) ∧ (c.payload.length = 20) ∧ (c.len.toNat = 20) ∧ (beAt c.payload 10 2 = 0) ∧
      (beAt c.payload 13 1 / 2 = 0) ∧ (beAt c.payload 18 2 = 0) ∧ (beAt c.payload 12 1 < 128) ∧ (beAt c.payload 4 4 < secNs) ∧ (s.takesActs
      (beAt c.payload 12 1) = true) ∧ ((s.wvr (beAt c.payload 12 1)).acts.length < 8) ∧ (20 * (nsUnit : Int) < s.until (beAt c.payload 0 4)
      (beAt c.payload 4 4) (beAt c.payload 8 2))) ∧
    (∃ s : State, ∃ c : Cell, s.hasRight c.from 1 = false) ∧
    (∃ s : State, ∃ n : Fin 128, ∃ a : WvAct, ∃ as : List WvAct, (s.wvr n.val).acts = a :: as) ∧
    (∃ s : State, ∃ c : Cell, (s.hasRight c.from 1 = true) ∧ (c.payload.length = 4) ∧ (c.len.toNat = 4) ∧ (beAt c.payload 1 1 = 0) ∧ (beAt
      c.payload 0 1 < 128) ∧ (s.takesActs (beAt c.payload 0 1) = true) ∧ ((∃ a ∈ (s.wvr (beAt c.payload 0 1)).acts, a.actid = beAt c.payload
      2 2))) ∧
    (∃ s : State, ∃ c : Cell, (s.hasRight c.from 1 = true) ∧ (c.payload.length = 4) ∧ (c.len.toNat = 4) ∧ (beAt c.payload 1 1 = 0) ∧ (beAt
      c.payload 0 1 < 128) ∧ (s.takesActs (beAt c.payload 0 1) = true) ∧ ((∀ a ∈ (s.wvr (beAt c.payload 0 1)).acts, a.actid ≠ beAt c.payload
      2 2))) :=
  ⟨⟨{ up [(F.WVn_STAT_STATE 127 , 1), (F.WVn_CTL_TIMED 127, 1)] with weave := some (weaveOf [⟨1, 9, 31⟩] []) },
     { z with sring := 1, snode := 9, len := 20, payload := [0, 0, 0, 5, 0, 0, 0, 7, 0, 1, 0, 0, 127, 1, 3, 3, 9, 8, 0, 0] },
     by decide +kernel⟩,
   ⟨up [], { z with sring := 1, snode := 9, len := 20, payload := [0, 0, 0, 5, 0, 0, 0, 7, 0, 1, 0, 0, 127, 1, 3, 3, 9, 8, 0, 0] },
     by decide +kernel⟩,
   ⟨wvAt 127 { WvSt.init with acts := [act 77, act 78] } (up []), 127, act 77, [act 78], by decide +kernel⟩,
   ⟨{ wvAt 127 { WvSt.init with acts := [act 77, act 78] } (up [(F.WVn_STAT_STATE 127, 1), (F.WVn_CTL_TIMED 127, 1)]) with weave := some (weaveOf [⟨1, 9, 31⟩] []) },
     { z with sring := 1, snode := 9, len := 4, payload := [127, 0, 0, 78] }, by decide +kernel⟩,
   ⟨{ wvAt 127 { WvSt.init with acts := [act 77] } (up [(F.WVn_STAT_STATE 127, 1), (F.WVn_CTL_TIMED 127, 1)]) with weave := some (weaveOf [⟨1, 9, 31⟩] []) },
     { z with sring := 1, snode := 9, len := 4, payload := [127, 0, 0, 78] }, by decide +kernel⟩⟩

theorem test_witness_WeaversStartAndStop :
    (∃ s : State, ∃ src : Src, ∃ n : Fin 128, (s.takesFields src [(F.WVn_CTL_START n.val, 1)] = true) ∧ (s.wvOn n.val = false)) ∧
    (∃ s : State, ∃ src : Src, ∃ n : Fin 128, (s.takesFields src [(F.WVn_CTL_START n.val, 1)] = true) ∧ (s.wvOn n.val = true)) ∧
    (∃ s : State, ∃ src : Src, ∃ n : Fin 128, (s.takesFields src [(F.WVn_CTL_STOP n.val, 1)] = true) ∧ (s.wvOn n.val = true)) ∧
    (∃ s : State, ∃ src : Src, ∃ m : Fin 16, ∃ mask : Byte, s.takesFields src [(F.BKm_START_MASK m.val, mask.toNat)] = true) ∧
    (∃ s : State, ∃ src : Src, ∃ m : Fin 16, ∃ mask : Byte, s.takesFields src [(F.BKm_STOP_MASK m.val, mask.toNat)] = true) ∧
    (∃ s : State, ∃ src : Src, s.takesFields src [(F.BK_GCTL_GO, 1)] = true) ∧
    (∃ s : State, ∃ src : Src, (s.takesFields src [(F.BK_GCTL_ARM, 1)] = true) ∧ (s.on F.BK_GCTL_ARM = false) ∧ (s.reached (s.rd
      F.BK_GTS_SEC) (s.rd F.BK_GTNS_NS) 0 = false)) ∧
    (∃ s : State, ∃ src : Src, (s.takesFields src [(F.BK_GCTL_DISARM, 1)] = true) ∧ (s.on F.BK_GCTL_ARM = true)) ∧
    (∃ s : State, ∃ src : Src, s.takesFields src [(F.BK_GCTL_STOP, 1)] = true) ∧
    (∃ s : State, s.on F.BK_GCTL_ARM = true) ∧
    (∃ s : State, s.wv.autoDue = true) ∧
    (∃ s : State, ∃ src : Src, ∃ m : Fin 16, ∃ mask : Byte, s.takesFields src [(F.BKm_CLKRST_MASK m.val, mask.toNat)] = true) ∧
    (∃ s : State, s.wv.autoDue = false) ∧
    (∃ s : State, ∃ src : Src, ∃ m : Fin 16, ∃ mask : Byte, s.takesFields src [(F.BKm_CLKRST_MASK m.val, mask.toNat)] = true) :=
  ⟨⟨up [], .mc0, 127, by decide +kernel⟩,
   ⟨up [(F.WVn_STAT_STATE 127, 1)], .mc0, 127, by decide +kernel⟩,
   ⟨up [(F.WVn_STAT_STATE 127, 2)], .mc0, 127, by decide +kernel⟩,
   ⟨up [], .mc0, 15, 0x81, by decide +kernel⟩,
   ⟨up [(F.WVn_STAT_STATE 127, 2)], .mc0, 15, 0x81, by decide +kernel⟩,
   ⟨up [(F.BK_GMASKi_MASK 3, 0x80000001)], .mc0, by decide +kernel⟩,
   ⟨up [(F.BK_GTS_SEC, 5)], .mc0, by decide +kernel⟩,
   ⟨up [(F.BK_GCTL_ARM, 1)], .mc0, by decide +kernel⟩,
   ⟨up [(F.BK_GMASKi_MASK 3, 0x80000001), (F.WVn_STAT_STATE 127, 2)], .mc0, by decide +kernel⟩,
   ⟨up [(F.BK_GMASKi_MASK 3, 0x80000001), (F.BK_GCTL_ARM, 1)], by decide +kernel⟩,
   ⟨let s := up [(F.WVn_CTL_AUTOSTART 127, 1)]; { s with wv := { s.wv with autoDue := true } }, by decide +kernel⟩,
   ⟨up [(F.WVn_STAT_STATE 127, 1)], .mc0, 15, 0x80, by decide +kernel⟩,
   ⟨up [(F.WVn_CTL_AUTOSTART 127, 1)], by decide +kernel⟩,
   ⟨up [], .mc0, 15, 0xFF, by decide +kernel⟩⟩

theorem test_witness_WeaverQueuesAndFlags :
    (∃ s : State, ∃ src : Src, ∃ m : Fin 16, ∃ v : BitVec 16, (s.takesFields src [(F.BKm_FSET_FLAGS m.val, v.toNat)] = true) ∧ ((∀ i : Fin
      8, (s.wvr (8 * m.val + i.val)).wait = .none))) ∧
    (∃ s : State, ∃ src : Src, ∃ m : Fin 16, ∃ v : BitVec 16, (s.takesFields src [(F.BKm_FLAGS_FLAGS m.val, v.toNat)] = true) ∧ ((∀ i : Fin
      8, (s.wvr (8 * m.val + i.val)).wait = .none))) ∧
    (∃ s : State, ∃ src : Src, ∃ m : Fin 16, ∃ v : BitVec 4, (s.takesFields src [(F.BKm_IRQ_LINE m.val, v.toNat)] = true) ∧ ((∀ i : Fin 8,
      (s.wvr (8 * m.val + i.val)).wait = .none))) ∧
    (∃ s : State, ∃ src : Src, ∃ n : Fin 128, ∃ d : Word, (s.takesFields src [(F.WVn_TXQ_DATA n.val, d.toNat)] = true) ∧ ((s.wvr n.val).back
      = []) ∧ ((s.wvr n.val).tx.length < s.txCap n.val)) ∧
    (∃ s : State, ∃ src : Src, ∃ n : Fin 128, ∃ d : Word, (s.takesFields src [(F.WVn_TXQ_DATA n.val, d.toNat)] = true) ∧ (s.txCap n.val ≤
      (s.wvr n.val).tx.length) ∧ (s.rd (F.WVn_QCFG_BACKLOG n.val) ≤ (s.wvr n.val).back.length)) ∧
    (∃ s : State, ∃ src : Src, ∃ n : Fin 128, (s.takesField src (F.WVn_RXD_DATA n.val) = true) ∧ (s.on (F.WVn_CTL_RXDEST n.val) = false)) ∧
    (∃ s : State, ∃ n : Fin 128, ∃ tag : Nat, ∃ d : Nat, ∃ r : List (Nat × Nat), (s.on (F.WVn_CTL_RXDEST n.val) = true) ∧ (s.throttled =
      false) ∧ ((s.wvr n.val).rx = (tag, d) :: r) ∧ (tag / 64 ≠ 2) ∧ (s.eq.entries.length < 4096)) :=
  ⟨⟨up [(F.BKm_FLAGS_FLAGS 15, 1)], .mc0, 15, 0x8000, by decide +kernel⟩,
   ⟨up [(F.BKm_FLAGS_FLAGS 15, 0x8001)], .mc0, 15, 0x8000, by decide +kernel⟩,
   ⟨up [], .mc0, 15, 8, by decide +kernel⟩,
   ⟨up [(F.WVn_TXTAG_TAG 127, 200)], .mc0, 127, 0xFFFFFFFF, by decide +kernel⟩,
   ⟨wvAt 127 { WvSt.init with tx := List.replicate 4 (0, 1) } (up []), .mc0, 127, 5, by decide +kernel⟩,
   ⟨wvAt 127 { WvSt.init with rx := [(0, 1), (1, 2)] } (up []), .mc0, 127, by decide +kernel⟩,
   ⟨wvAt 127 { WvSt.init with rx := [(63, 1), (1, 2)] } (up [(F.WVn_CTL_RXDEST 127, 1)]), 127, 63, 1, [(1, 2)], by decide +kernel⟩⟩

theorem test_witness_WeaverInstructions :
    (∃ s : State, ∃ n : Fin 128, s.issues n.val 0 = true) ∧
    (∃ s : State, ∃ n : Fin 128, s.issues n.val 0 = true) ∧
    (∃ s : State, ∃ n : Fin 128, s.issues n.val 1 = true) ∧
    (∃ s : State, ∃ n : Fin 128, s.issues n.val 2 = true) ∧
    (∃ s : State, ∃ n : Fin 128, s.issues n.val 3 = true) ∧
    (∃ s : State, ∃ n : Fin 128, ∃ w : Nat, ((s.wvr n.val).wait = .pin w) ∧ (s.pinCan n.val w = true)) ∧
    (∃ s : State, ∃ n : Fin 128, (s.issues n.val 4 = true) ∧ (s.aloneWaiting n.val) ∧ (bitsOf (s.flags (n.val / 8)) (bitsOf (s.nextWord
      n.val) 16 4) 1 ≠ bitsOf (s.nextWord n.val) 15 1)) ∧
    (∃ s : State, ∃ m : Fin 16, ∃ i : Fin 8, ∃ w : Nat, (s.rd (F.WVn_STAT_STATE (8 * m.val + i.val)) = 1) ∧ ((s.wvr (8 * m.val +
      i.val)).wait = .flg w) ∧ (bitsOf (s.flags m.val) (bitsOf w 16 4) 1 = bitsOf w 15 1)) ∧
    (∃ s : State, ∃ n : Fin 128, (s.issues n.val 5 = true) ∧ (s.aloneWaiting n.val) ∧ (bitsOf (s.lines (n.val / 8)) (bitsOf (s.nextWord
      n.val) 18 2) 1 = 0)) ∧
    (∃ s : State, ∃ m : Fin 16, ∃ i : Fin 8, ∃ w : Nat, (s.rd (F.WVn_STAT_STATE (8 * m.val + i.val)) = 1) ∧ ((s.wvr (8 * m.val +
      i.val)).wait = .irq w) ∧ (bitsOf (s.lines m.val) (bitsOf w 18 2) 1 = 1)) ∧
    (∃ s : State, ∃ n : Fin 128, (s.issues n.val 6 = true) ∧ (bitsOf (s.nextWord n.val) 19 1 = 0) ∧ (16 * (nsUnit : Int) ≤ (s.wvFetch
      n.val).until (s.rd (F.WVn_TRS_SEC n.val)) (s.rd (F.WVn_TRNS_NS n.val)) 0)) ∧
    (∃ s : State, ∃ n : Fin 128, ∃ w : Nat, (s.wvr n.val).wait = .tim w) ∧
    (∃ s : State, ∃ n : Fin 128, s.issues n.val 7 = true) ∧
    (∃ s : State, ∃ n : Fin 128, ∃ tag : Nat, ∃ d : Nat, ∃ r : List (Nat × Nat), (s.issues n.val 8 = true) ∧ (bitsOf (s.nextWord n.val) 17 3
      = 0) ∧ (s.txCap n.val ≠ 0) ∧ ((s.wvr n.val).tx = (tag, d) :: r)) ∧
    (∃ s : State, ∃ n : Fin 128, (s.issues n.val 8 = true) ∧ (s.txCap n.val = 0 ∨ (s.wvr n.val).tx = [])) ∧
    (∃ s : State, ∃ n : Fin 128, (s.issues n.val 9 = true) ∧ ((s.wvr n.val).rx.length < s.rxCap n.val)) ∧
    (∃ s : State, ∃ n : Fin 128, (s.issues n.val 0xA = true) ∧ ((s.wvr n.val).rx.length + 2 ≤ s.rxCap n.val)) ∧
    (∃ s : State, ∃ n : Fin 128, ∃ w : Nat, ∃ tag : Nat, ∃ d : Nat, ∃ r : List (Nat × Nat), (s.rd (F.WVn_STAT_STATE n.val) = 2) ∧ ((s.wvr
      n.val).wait = .take w) ∧ (bitsOf w 17 3 = 1) ∧ (s.txCap n.val ≠ 0) ∧ ((s.wvr n.val).tx = (tag, d) :: r)) ∧
    (∃ s : State, ∃ n : Fin 128, s.issues n.val 0xB = true) ∧
    (∃ s : State, ∃ n : Fin 128, ∃ w : Nat, ∃ b : WvBusy, ((s.wvr n.val).wait = .cnt w) ∧ ((s.wvr n.val).busy = some b)) ∧
    (∃ s : State, ∃ n : Fin 128, (s.issues n.val 0xC = true) ∧ (bitsOf (s.nextWord n.val) 19 1 = 0)) ∧
    (∃ s : State, ∃ n : Fin 128, (s.issues n.val 0xC = true) ∧ (bitsOf (s.nextWord n.val) 19 1 = 1)) ∧
    (∃ s : State, ∃ n : Fin 128, s.issues n.val 0xD = true) ∧
    (∃ s : State, ∃ n : Fin 128, (s.issues n.val 0xE = true) ∧ (s.aloneWaiting n.val) ∧ ((s.flags (n.val / 8) ||| 2 ^ bitsOf (s.nextWord
      n.val) 16 4) &&& (bitsOf (s.nextWord n.val) 0 16 ||| 2 ^ bitsOf (s.nextWord n.val) 16 4) ≠ (bitsOf (s.nextWord n.val) 0 16 ||| 2 ^
      bitsOf (s.nextWord n.val) 16 4))) ∧
    (∃ s : State, ∃ m : Fin 16, ∃ i : Fin 8, ∃ w : Nat, (s.rd (F.WVn_STAT_STATE (8 * m.val + i.val)) = 1) ∧ ((s.wvr (8 * m.val +
      i.val)).wait = .sync w) ∧ (s.flags m.val &&& (bitsOf w 0 16 ||| 2 ^ bitsOf w 16 4) = (bitsOf w 0 16 ||| 2 ^ bitsOf w 16 4))) ∧
    (∃ s : State, ∃ n : Fin 128, s.issues n.val 0xF = true) ∧
    (∃ s : State, ∃ n : Fin 128, (s.issues n.val 0xF = true) ∧ (bitsOf (s.nextWord n.val) 16 4 = 2)) ∧
    (∃ s : State, ∃ n : Fin 128, ∃ w : Nat, ((s.wvr n.val).wait = .pin w) ∧ (s.pinCan n.val w = false)) :=
  ⟨⟨runs 127 0 [], 127, by decide +kernel⟩,
   ⟨runs 127 0 [], 127, by decide +kernel⟩,
   ⟨runs 127 0x100301 [], 127, by decide +kernel⟩,
   ⟨runs 127 0x200301 [], 127, by decide +kernel⟩,
   ⟨runs 127 0x300000 [], 127, by decide +kernel⟩,
   ⟨wvAt 127 { WvSt.init with wait := .pin 0x308000 } (runs 127 0x308000 [(F.WVn_LANEl_ROLE 127 0, 1), (F.BK_VIO_PRESENT, 15)]), 127,
     0x308000, by decide +kernel⟩,
   ⟨runs 127 0x408000 [], 127, by unfold State.aloneWaiting; decide +kernel⟩,
   ⟨wvAt 127 { WvSt.init with wait := .flg 0x408000 } (runs 127 0 [(F.BKm_FLAGS_FLAGS 15, 1)]), 15, 7, 0x408000, by decide +kernel⟩,
   ⟨runs 127 0x5C0000 [], 127, by unfold State.aloneWaiting; decide +kernel⟩,
   ⟨{ wvAt 127 { WvSt.init with wait := .irq 0x500000 } (runs 127 0 []) with wv := { WeaversSt.init with w := [(127, { WvSt.init with wait := .irq 0x500000 })], irq := [(15, 1)] } },
     15, 7, 0x500000, by decide +kernel⟩,
   ⟨runs 127 0x600000 [(F.WVn_TRS_SEC 127, 5)], 127, by decide +kernel⟩,
   ⟨wvAt 127 { WvSt.init with wait := .tim 0x600000 } (runs 127 0x600000 []), 127, 0x600000, by decide +kernel⟩,
   ⟨runs 127 0x70FF0F [], 127, by decide +kernel⟩,
   ⟨wvAt 127 { WvSt.init with tx := [(9, 0xFFFFFFFF), (1, 2)] } (runs 127 0x800000 []), 127, 9, 0xFFFFFFFF, [(1, 2)], by decide +kernel⟩,
   ⟨runs 127 0x800000 [], 127, by decide +kernel⟩,
   ⟨runs 127 0x900800 [], 127, by decide +kernel⟩,
   ⟨runs 127 0xA00000 [], 127, by decide +kernel⟩,
   ⟨wvAt 127 { WvSt.init with wait := .take 0x820000, tx := [(9, 0xFFFFFFFF), (1, 2)] } (up [(F.WVn_STAT_STATE 127, 2)]), 127, 0x820000, 9,
     0xFFFFFFFF, [(1, 2)], by decide +kernel⟩,
   ⟨runs 127 0xB02000 [(F.WVn_CN_CN 127, 6)], 127, by decide +kernel⟩,
   ⟨wvAt 127 { WvSt.init with wait := .cnt 0xB00000, busy := some { word := 0xB00000, total := 1, i0 := 0, k0 := 0, shown := 0, moved := 0, samples := [], last := none, samp := none } } (runs 127 0 []),
     127, 0xB00000, { word := 0xB00000, total := 1, i0 := 0, k0 := 0, shown := 0, moved := 0, samples := [], last := none, samp := none },
     by decide +kernel⟩,
   ⟨runs 127 0xC0003F [(F.WVn_LOOP_L0 127, 2)], 127, by decide +kernel⟩,
   ⟨runs 127 0xC8003F [], 127, by decide +kernel⟩,
   ⟨runs 127 0xD0003F [], 127, by decide +kernel⟩,
   ⟨runs 127 0xE00003 [], 127, by unfold State.aloneWaiting; decide +kernel⟩,
   ⟨wvAt 127 { WvSt.init with wait := .sync 0xE00003 } (runs 127 0 [(F.BKm_FLAGS_FLAGS 15, 3)]), 15, 7, 0xE00003, by decide +kernel⟩,
   ⟨runs 127 0xF21234 [], 127, by decide +kernel⟩,
   ⟨runs 127 0xF21234 [], 127, by decide +kernel⟩,
   ⟨wvAt 127 { WvSt.init with wait := .pin 0x308000 } (runs 127 0x308000 [(F.WVn_LANEl_ROLE 127 0, 7)]), 127, 0x308000, by decide +kernel⟩⟩

theorem test_witness_CanTransmission :
    (∃ s : State, ∃ src : Src, ∃ k : Fin 8, (s.takesFields src [(F.CFk_MODE_INIT k.val, 1)] = true) ∧ (s.on (F.CFk_MODE_INIT k.val) = false)
      ∧ ((s.canOf k.val).inFrame = false)) ∧
    (∃ s : State, ∃ src : Src, ∃ k : Fin 8, (s.takesFields src [(F.CFk_MODE_INIT k.val, 1)] = true) ∧ (s.on (F.CFk_MODE_INIT k.val) = false)
      ∧ ((s.canOf k.val).inFrame = true)) ∧
    (∃ s : State, ∃ src : Src, ∃ k : Fin 8, (s.takesFields src [(F.CFk_MODE_INIT k.val, 0)] = true) ∧ (s.on (F.CFk_MODE_INIT k.val) = true)) ∧
    (∃ s : State, ∃ k : Fin 8, s.on (F.CFk_MODE_INIT k.val) = false) ∧
    (∃ s : State, ∃ src : Src, ∃ k : Fin 8, ∃ mask : BitVec 3, s.takesFields src [(F.CFk_TXREQ_REQ k.val, mask.toNat)] = true) ∧
    (∃ s : State, ∃ src : Src, ∃ k : Fin 8, ∃ mask : BitVec 3, s.takesFields src [(F.CFk_TXCAN_CAN k.val, mask.toNat)] = true) ∧
    (∃ s : State, ∃ k : Fin 8, (s.canOnBus k.val = true) ∧ ((s.canOf k.val).inFrame = false) ∧ (s.rd (F.CFk_MODE_OPMODE k.val) ≠ 3)) ∧
    (∃ s : State, ∃ k : Fin 8, ∃ b : Nat, (s.canOnBus k.val = true) ∧ ((s.canOf k.val).inFrame = false) ∧ (s.rd (F.CFk_MODE_OPMODE k.val) =
      0) ∧ ((∀ j : Fin 3, s.canExpired k.val j.val = false)) ∧ (s.canChoose k.val = some b)) ∧
    (∃ s : State, ∃ k : Fin 8, ∃ b : Fin 3, ∃ ld : Option Byte, ((s.canOf k.val).active = some b.val) ∧ ((∀ d, ld = some d → d.toNat ≤
      127))) ∧
    (∃ s : State, ∃ k : Fin 8, ∃ b : Fin 3, (s.requested k.val b.val = true) ∧ (s.on (F.CFk_TBb_CTL_LTEN k.val b.val) = true)) ∧
    (∃ s : State, ∃ k : Fin 8, ∃ b : Fin 3, (s.requested k.val b.val = true) ∧ (s.tbStatus k.val b.val = 1) ∧ (s.on (F.CFk_TBb_CTL_LTEN
      k.val b.val) = true)) ∧
    (∃ s : State, ∃ k : Fin 8, ∃ b : Nat, (s.canOnBus k.val = true) ∧ ((s.canOf k.val).inFrame = false) ∧ (s.rd (F.CFk_MODE_OPMODE k.val) =
      3) ∧ ((∀ j : Fin 3, s.canExpired k.val j.val = false)) ∧ (s.canChoose k.val = some b)) ∧
    (∃ s : State, ∃ k : Fin 8, ∃ b : Fin 3, ∃ d : Byte, ((s.canOf k.val).active = some b.val) ∧ (127 < d.toNat) ∧ (s.on (F.CFk_MODE_TDCEN
      k.val) = true) ∧ (s.on (F.CFk_TBb_CTL_FDF k.val b.val) = true) ∧ (s.on (F.CFk_TBb_CTL_BRS k.val b.val) = true)) :=
  ⟨⟨onCan [], .mc0, 7, by decide +kernel⟩,
   ⟨canWith { CanSt.init with inFrame := true } [], .mc0, 7, by decide +kernel⟩,
   ⟨{ canWith { CanSt.init with stopping := true } [(F.CFk_MODE_INIT 7, 1)] with weave := some (opening [F.CFk_MODE_INIT 7]) }, .mc0, 7,
     by decide +kernel⟩,
   ⟨canWith { CanSt.init with integrating := true } [], 7, by decide +kernel⟩,
   ⟨onCan [], .mc0, 7, 5, by decide +kernel⟩,
   ⟨onCan [(F.CFk_TXREQ_REQ 7, 7), (F.CFk_TBb_STAT_STATUS 7 0, 1), (F.CFk_TBb_STAT_STATUS 7 2, 2)], .mc0, 7, 5, by decide +kernel⟩,
   ⟨onCan [], 7, by decide +kernel⟩,
   ⟨onCan [(F.CFk_TXREQ_REQ 7, 4), (F.CFk_TBb_STAT_STATUS 7 2, 1)], 7, 2, by decide +kernel⟩,
   ⟨canWith { CanSt.init with active := some 2, held := 4, inFrame := true, sof := 99 } [(F.CFk_TXREQ_REQ 7, 4), (F.CFk_TBb_STAT_STATUS 7 2,
     2)], 7, 2, none, by decide +kernel⟩,
   ⟨onCan [(F.CFk_TXREQ_REQ 7, 4), (F.CFk_TBb_CTL_LTEN 7 2, 1)], 7, 2, by decide +kernel⟩,
   ⟨onCan [(F.CFk_TXREQ_REQ 7, 4), (F.CFk_TBb_STAT_STATUS 7 2, 1), (F.CFk_TBb_CTL_LTEN 7 2, 1)], 7, 2, by decide +kernel⟩,
   ⟨onCan [(F.CFk_TXREQ_REQ 7, 4), (F.CFk_TBb_STAT_STATUS 7 2, 1), (F.CFk_MODE_OPMODE 7, 3)], 7, 2, by decide +kernel⟩,
   ⟨canWith { CanSt.init with active := some 0, inFrame := true } [(F.CFk_TXREQ_REQ 7, 1), (F.CFk_MODE_TDCEN 7, 1), (F.CFk_TBb_CTL_FDF 7 0,
     1), (F.CFk_TBb_CTL_BRS 7 0, 1)], 7, 0, 200, by decide +kernel⟩⟩

theorem test_witness_CanReceptionAndErrors :
    (∃ s : State, ∃ k : Fin 8, ∃ f : CanFrame, ∃ fs : List CanFilter, ∃ i : Nat, ∃ x : CanFilter, (s.canOnBus k.val = true) ∧ ((s.canOf
      k.val).active = none) ∧ (s.rd (F.CFk_MODE_OPMODE k.val) ≠ 3) ∧ ((f.fdf = true → s.on (F.CFk_MODE_FDOE k.val) = true)) ∧ ((s.canOf
      k.val).filters = some fs) ∧ (firstFit f fs 0 = some (i, x)) ∧ (bitsOf x.cfg 3 1 = 0) ∧ (s.rd (F.CFk_RXSTAT_OWNED k.val) < 64)) ∧
    (∃ s : State, ∃ k : Fin 8, ∃ f : CanFrame, ∃ fs : List CanFilter, (s.canOnBus k.val = true) ∧ ((s.canOf k.val).active = none) ∧ (s.rd
      (F.CFk_MODE_OPMODE k.val) ≠ 3) ∧ ((f.fdf = true → s.on (F.CFk_MODE_FDOE k.val) = true)) ∧ ((s.canOf k.val).filters = some fs) ∧
      (firstFit f fs 0 = none) ∧ (s.on (F.CFk_MODE_RXDEF k.val) = true)) ∧
    (∃ s : State, ∃ k : Fin 8, ∃ f : CanFrame, ∃ fs : List CanFilter, ∃ i : Nat, ∃ x : CanFilter, (s.canOnBus k.val = true) ∧ ((s.canOf
      k.val).active = none) ∧ (s.rd (F.CFk_MODE_OPMODE k.val) ≠ 3) ∧ ((f.fdf = true → s.on (F.CFk_MODE_FDOE k.val) = true)) ∧ ((s.canOf
      k.val).filters = some fs) ∧ (firstFit f fs 0 = some (i, x)) ∧ (bitsOf x.cfg 3 1 = 0) ∧ (64 ≤ s.rd (F.CFk_RXSTAT_OWNED k.val))) ∧
    (∃ s : State, ∃ src : Src, ∃ k : Fin 8, ∃ n : BitVec 7, s.takesFields src [(F.CFk_RXACK_COUNT k.val, n.toNat)] = true) ∧
    (∃ s : State, ∃ k : Fin 8, (s.canOnBus k.val = true) ∧ (s.rd (F.CFk_MODE_OPMODE k.val) = 0) ∧ ((s.canOf k.val).tec ≤ 247)) ∧
    (∃ s : State, ∃ k : Fin 8, (s.canOnBus k.val = true) ∧ (s.rd (F.CFk_MODE_OPMODE k.val) = 0) ∧ (248 ≤ (s.canOf k.val).tec)) ∧
    (∃ s : State, ∃ k : Fin 8, (s.canOnBus k.val = true) ∧ (s.on (F.CFk_MODE_PXD k.val) = false)) ∧
    (∃ s : State, ∃ src : Src, ∃ k : Fin 8, (s.takesFields src [(F.CFk_MODE_RECOVER k.val, 1)] = true) ∧ (s.on F.NC_MODE_POLICY = true) ∧
      (s.rd (F.CFk_ERR_STATE k.val) = 2)) ∧
    (∃ s : State, ∃ k : Fin 8, s.rd (F.CFk_ERR_STATE k.val) = 3) ∧
    (∃ s : State, ∃ k : Fin 8, ∃ fs : List CanFilter, ∃ b : Nat, (s.canOnBus k.val = true) ∧ ((s.canOf k.val).filters = some fs) ∧ ((s.canOf
      k.val).active = some b) ∧ (s.rd (F.CFk_MODE_OPMODE k.val) = 3)) ∧
    (∃ s : State, ∃ k : Fin 8, s.canOnBus k.val = true) ∧
    (∃ s : State, ∃ k : Fin 8, (s.canOnBus k.val = true) ∧ (s.rd (F.CFk_MODE_OPMODE k.val) = 1)) :=
  ⟨⟨canWith { CanSt.init with filters := some [⟨0, 0, 1⟩] } [(F.CFk_RXSTAT_OWNED 7, 63), (F.CFk_RXSTAT_HEAD 7, 63)], 7, cf, [⟨0, 0, 1⟩], 0,
     ⟨0, 0, 1⟩, by decide +kernel⟩,
   ⟨canWith { CanSt.init with filters := some [] } [(F.CFk_MODE_RXDEF 7, 1)], 7, cf, [], by decide +kernel⟩,
   ⟨canWith { CanSt.init with filters := some [⟨0, 0, 1⟩] } [(F.CFk_RXSTAT_OWNED 7, 64), (F.CFk_RXSTAT_HEAD 7, 63)], 7, cf, [⟨0, 0, 1⟩], 0,
     ⟨0, 0, 1⟩, by decide +kernel⟩,
   ⟨onCan [(F.CFk_RXSTAT_OWNED 7, 64), (F.CFk_RXSTAT_HEAD 7, 63)], .mc0, 7, 64, by decide +kernel⟩,
   ⟨canWith { CanSt.init with tec := 247 } [], 7, by decide +kernel⟩,
   ⟨canWith { CanSt.init with tec := 248 } [(F.CFk_TXREQ_REQ 7, 4)], 7, by decide +kernel⟩,
   ⟨onCan [], 7, by decide +kernel⟩,
   ⟨{ onCan [(F.NC_MODE_POLICY, 1), (F.CFk_ERR_STATE 7, 2)] with weave := some (opening [F.CFk_MODE_INIT 7]) }, .mc0, 7, by decide +kernel⟩,
   ⟨canWith { CanSt.init with tec := 256 } [(F.CFk_ERR_STATE 7, 3)], 7, by decide +kernel⟩,
   ⟨canWith { CanSt.init with filters := some [⟨0, 0, 1⟩], active := some 0 } [(F.CFk_MODE_OPMODE 7, 3), (F.CFk_TXREQ_REQ 7, 1)], 7, [⟨0, 0,
     1⟩], 0, by decide +kernel⟩,
   ⟨canWith { CanSt.init with tec := 247 } [], 7, by decide +kernel⟩,
   ⟨canWith { CanSt.init with tec := 3 } [(F.CFk_MODE_OPMODE 7, 1)], 7, by decide +kernel⟩⟩

theorem test_witness_ServicePortControl :
    (∃ s : State, ∃ a : BitVec 16, (s.controlReady = true) ∧ (a.toNat ≤ 127) ∧ (s.rd F.US_SSTAT_STATE ≠ 4)) ∧
    (∃ s : State, ∃ v : BitVec 16, (s.controlReady = true) ∧ (v.toNat ≤ 1) ∧ (s.rd F.US_SSTAT_STATE ≠ 2)) ∧
    (∃ s : State, ∃ v : BitVec 16, ∃ d : List Byte, (s.controlReady = true) ∧ (s.descriptor (v.toNat / 256) (v.toNat % 256) = some d)) ∧
    (∃ s : State, ∃ ty : Byte, ∃ r : Byte, ∃ v : BitVec 16, ∃ i : BitVec 16, (s.controlReady = true) ∧ (s.standard ty.toNat r.toNat v.toNat
      i.toNat = none)) ∧
    (∃ s : State, s.controlReady = true) ∧
    (∃ s : State, s.controlReady = true) ∧
    (∃ s : State, s.controlReady = true) ∧
    (∃ s : State, ∃ d : List Byte, (s.controlReady = true) ∧ (d.length = 32)) ∧
    (∃ s : State, ∃ d : List Byte, (s.controlReady = true) ∧ (17 ≤ d.length) ∧ (d.length ≤ 4112) ∧ ((crc32c (d.drop 16)).toNat = leAt d 8
      4)) ∧
    (∃ s : State, ∃ d : List Byte, (s.controlReady = true) ∧ (17 ≤ d.length) ∧ (d.length ≤ 4112) ∧ ((crc32c (d.drop 16)).toNat ≠ leAt d 8
      4)) ∧
    (∃ s : State, ∃ x : CtlXfer, (s.usb.ctl = some x) ∧ (x.req = 0x20) ∧ (s.usb.bulk = [])) :=
  ⟨⟨up [(F.US_SSTAT_STATE, 2)], 127, by decide +kernel⟩,
   ⟨up [(F.US_SSTAT_STATE, 3)], 1, by decide +kernel⟩,
   ⟨onS [], 0x200, ((onS []).descriptor 2 0).getD [], by decide +kernel⟩,
   ⟨onS [], 0x80, 7, 0, 0, by decide +kernel⟩,
   ⟨onS [], by decide +kernel⟩,
   ⟨onS [], by decide +kernel⟩,
   ⟨onS [], by decide +kernel⟩,
   ⟨onS [], List.replicate 32 0, by decide +kernel⟩,
   ⟨onS [], List.replicate 8 0 ++ leBytes (crc32c [5]).toNat 4 ++ [0, 0, 0, 0, 5], by decide +kernel⟩,
   ⟨onS [], List.replicate 16 0 ++ [5], by decide +kernel⟩,
   ⟨withUsb { UsbSt.init with ctl := some { req := 0x20, data := List.replicate 16 0 ++ [5] } } (onS []),
     { req := 0x20, data := List.replicate 16 0 ++ [5] }, by decide +kernel⟩⟩

theorem test_witness_ServicePortTraffic :
    (∃ s : State, ∃ a : BitVec 64, (s.bulkReady = true) ∧ (s.takesRead .s (bitsOf a.toNat 40 8) (bitsOf a.toNat 0 40) = true)) ∧
    (∃ s : State, ∃ fl : Byte, ∃ n : BitVec 16, (s.bulkReady = true) ∧ ((2 ≤ fl.toNat ∨ n.toNat = 0 ∨ 64 < n.toNat))) ∧
    (∃ s : State, ∃ v : Word, ∃ a : BitVec 64, (s.bulkReady = true) ∧ (bitsOf a.toNat 40 8 = F.TM_SETS_SEC.key / 0x100000) ∧ (bitsOf a.toNat
      0 40 = F.TM_SETS_SEC.key % 0x100000) ∧ (s.takesFields .s [(F.TM_SETS_SEC, v.toNat)] = true)) ∧
    (∃ s : State, ∃ fl : Byte, ∃ n : BitVec 16, (s.bulkReady = true) ∧ (fl.toNat ≤ 1) ∧ (1 ≤ n.toNat) ∧ (n.toNat ≤ 16)) ∧
    (∃ s : State, ∃ fl : Byte, ∃ n : BitVec 16, ∃ x : List Byte, (s.bulkReady = true) ∧ (fl.toNat ≤ 1) ∧ (n.toNat ≤ 4080) ∧ (x.length =
      n.toNat)) ∧
    (∃ s : State, ∃ k : Nat, ∃ n : Nat, ∃ r : List (Nat × Nat), (s.usb.notices = (k, n) :: r) ∧ (s.rd F.US_SSTAT_STATE = 4) ∧ (s.clocked 4 =
      true) ∧ (s.usb.ctl = none) ∧ (s.usb.bulk = []) ∧ (s.usb.halted.contains 0x82 = false)) ∧
    (∃ s : State, s.usbLive = true) ∧
    (∃ s : State, (1 ≤ s.rd F.US_SSTAT_STATE) ∧ (s.rd F.US_SSTAT_STATE ≤ 4)) ∧
    (∃ s : State, s.rd F.US_SSTAT_STATE = 5) ∧
    (∃ s : State, s.rd F.US_SSTAT_STATE = 5) ∧
    (∃ s : State, (s.clocked 4 = true) ∧ (s.rd F.US_SSTAT_STATE = 5) ∧ (s.on F.US_SSTAT_RWEN = true) ∧ (s.on F.US_WAKE_PEND = true)) ∧
    (∃ s : State, s.rd F.US_SSTAT_STATE ≠ 0) ∧
    (∃ s : State, ∃ m : BulkMsg, s.usb.busy = some (m, true)) :=
  ⟨⟨onS [], BitVec.ofNat 64 (F.TM_SETS_SEC.key / 0x100000 * 2 ^ 40 + F.TM_SETS_SEC.key % 0x100000), by decide +kernel⟩,
   ⟨onS [], 2, 1, by decide +kernel⟩,
   ⟨onS [], 0xFFFFFFFF, BitVec.ofNat 64 (F.TM_SETS_SEC.key / 0x100000 * 2 ^ 40 + F.TM_SETS_SEC.key % 0x100000), by decide +kernel⟩,
   ⟨onS [], 1, 16, by decide +kernel⟩,
   ⟨onS [], 0, 2, [65, 66], by decide +kernel⟩,
   ⟨withUsb { UsbSt.init with notices := [(1, 2), (3, 4)] } (onS []), 1, 2, [(3, 4)], by decide +kernel⟩,
   ⟨onS [(F.US_SSTAT_HS, 1), (F.US_SOF_SOFVALID, 1), (F.US_SOF_FRAME, 2047), (F.US_SOF_UFRAME, 7)], by decide +kernel⟩,
   ⟨onS [], by decide +kernel⟩,
   ⟨withUsb { UsbSt.init with before := 4 } (up [(F.US_SSTAT_STATE, 5), (F.US_SSTAT_RWEN, 1), (F.US_WAKE_PEND, 1)]), by decide +kernel⟩,
   ⟨up [(F.US_SSTAT_STATE, 5)], by decide +kernel⟩,
   ⟨withUsb { UsbSt.init with before := 4 } (up [(F.US_SSTAT_STATE, 5), (F.US_SSTAT_RWEN, 1), (F.US_WAKE_PEND, 1)]), by decide +kernel⟩,
   ⟨withUsb { UsbSt.init with ctl := some { req := 0x10, data := List.replicate 32 0 } } (onS []), by decide +kernel⟩,
   ⟨withUsb { UsbSt.init with busy := some ({ op := 1, loc := true, count := 4, tag := 9, addr := 0, data := [], bad := false, parityBad := false }, true) } (onS []),
     { op := 1, loc := true, count := 4, tag := 9, addr := 0, data := [], bad := false, parityBad := false }, by decide +kernel⟩⟩

theorem test_witness_FieldPorts :
    (∃ s : State, ∃ n : Fin 4, (s.on (F.US_FPn_CTL_ENABLE n.val) = true) ∧ (s.on (F.US_FPn_CTL_POWER n.val) = true) ∧ ((s.field
      n.val).waiting = false) ∧ ((s.rd (F.US_FPn_STAT_STATE n.val) = 0 ∨ s.rd (F.US_FPn_STAT_STATE n.val) = 4))) ∧
    (∃ s : State, ∃ n : Fin 4, (s.rd (F.US_FPn_STAT_STATE n.val) = 1 ∨ s.rd (F.US_FPn_STAT_STATE n.val) = 2)) ∧
    (∃ s : State, ∃ n : Fin 4, (1 ≤ s.rd (F.US_FPn_STAT_STATE n.val)) ∧ (s.rd (F.US_FPn_STAT_STATE n.val) ≤ 3)) ∧
    (∃ s : State, ∃ n : Fin 4, ((s.field n.val).waiting = true) ∧ (s.on (F.US_FPn_CTL_ENABLE n.val) = true) ∧ (s.on (F.US_FPn_CTL_POWER
      n.val) = true)) ∧
    (∃ s : State, ∃ n : Fin 4, (s.rd (F.US_FPn_STAT_STATE n.val) = 2 ∨ s.rd (F.US_FPn_STAT_STATE n.val) = 3)) ∧
    (∃ s : State, ∃ n : Fin 4, ∃ bs : List Byte, (s.rd (F.US_FPn_STAT_STATE n.val) = 3) ∧ (s.rd (F.US_FPn_STAT_DRIVER n.val) = 4) ∧
      (s.throttled = false) ∧ (s.clocked 4 = true) ∧ ((s.field n.val).code.skip = false) ∧ ((s.field n.val).ready = []) ∧ ((∀ b ∈ bs, b ≠ 13
      ∧ b ≠ 10)) ∧ ((s.field n.val).code.bytes.length + bs.length < 250)) ∧
    (∃ s : State, ∃ n : Fin 4, (s.throttled = false) ∧ ((s.field n.val).ready = []) ∧ ((s.field n.val).code.bytes ≠ []) ∧ ((s.field
      n.val).code.bytes.length ≤ 8) ∧ (s.eq.entries.length < 4096)) ∧
    (∃ s : State, ∃ src : Src, ∃ n : Fin 4, ∃ b : BitVec 24, ∃ f : BitVec 2, s.takesWrite src 6 (0x1010 + 0x100 * n.val) (b.toNat + f.toNat
      * 2 ^ 24) = true) ∧
    (∃ s : State, ∃ src : Src, ∃ n : Fin 4, ∃ l : BitVec 7, (s.takesWrite src 6 (0x1014 + 0x100 * n.val) (l.toNat + 2 ^ 8) = true) ∧ ((s.rd
      (F.US_FPn_STAT_DRIVER n.val) = 1 ∨ s.rd (F.US_FPn_STAT_DRIVER n.val) = 4))) ∧
    (∃ s : State, ∃ src : Src, ∃ n : Fin 4, ∃ l : BitVec 7, (s.takesWrite src 6 (0x1014 + 0x100 * n.val) (l.toNat + 2 ^ 8) = true) ∧ (s.rd
      (F.US_FPn_STAT_DRIVER n.val) ≠ 1) ∧ (s.rd (F.US_FPn_STAT_DRIVER n.val) ≠ 4)) ∧
    (∃ s : State, ∃ n : Fin 4, s.on (F.US_FPn_TXCTL_BUSY n.val) = true) :=
  ⟨⟨up [(F.US_FPn_CTL_ENABLE 3, 1), (F.US_FPn_CTL_POWER 3, 1), (F.US_FPn_STAT_STATE 3, 4)], 3, by decide +kernel⟩,
   ⟨up [(F.US_FPn_STAT_STATE 3, 1)], 3, by decide +kernel⟩,
   ⟨up [(F.US_FPn_STAT_STATE 3, 3), (F.US_FPn_STAT_DRIVER 3, 4)], 3, by decide +kernel⟩,
   ⟨fieldWith { FieldSt.init with waiting := true, tries := 1 } [(F.US_FPn_CTL_ENABLE 3, 1), (F.US_FPn_CTL_POWER 3, 1),
     (F.US_FPn_STAT_STATE 3, 4)], 3, by decide +kernel⟩,
   ⟨up [(F.US_FPn_STAT_STATE 3, 3), (F.US_FPn_STAT_DRIVER 3, 4)], 3, by decide +kernel⟩,
   ⟨up [(F.US_FPn_STAT_STATE 3, 3), (F.US_FPn_STAT_DRIVER 3, 4)], 3, [65, 66], by decide +kernel⟩,
   ⟨fieldWith { FieldSt.init with code := { bytes := [65, 66, 67, 68, 69, 70, 71, 72], skip := false } } [], 3, by decide +kernel⟩,
   ⟨up [(F.US_FPn_STAT_DRIVER 3, 4)], .mc0, 3, 9600, 1, by decide +kernel⟩,
   ⟨up [(F.US_FPn_STAT_DRIVER 3, 4)], .mc0, 3, 64, by decide +kernel⟩,
   ⟨up [], .mc0, 3, 64, by decide +kernel⟩,
   ⟨up [(F.US_FPn_TXCTL_BUSY 3, 1)], 3, by decide +kernel⟩⟩

theorem test_witness_EventQueueService :
    (∃ s : State, ∃ src : Src, ∃ w3 : Word, (s.takesWrite src 8 0xC w3.toNat = true) ∧ (s.eq.entries.length < 4032)) ∧
    (∃ s : State, ∃ src : Src, ∃ w3 : Word, (s.takesWrite src 8 0xC w3.toNat = true) ∧ (4032 ≤ s.eq.entries.length)) ∧
    (∃ f : EqEntry → Bool, ∃ es : List EqEntry, ∃ e : EqEntry, firstServed f es = some e) ∧
    (∃ s : State, ∃ src : Src, ∃ c : Nat, ∃ e : EqEntry, (s.takesField src F.EQ_POP0_WORD = true) ∧ (consumer src = some c) ∧ (firstServed
      (·.needLocal) s.eq.entries = some e)) ∧
    (∃ s : State, ∃ src : Src, ∃ c : Nat, ∃ e : EqEntry, (s.takesField src F.EQ_POP0_WORD = true) ∧ (consumer src = some c) ∧ (firstServed
      (·.needLocal) s.eq.entries = some e)) ∧
    (∃ s : State, ∃ src : Src, ∃ c : Nat, (s.takesField src F.EQ_POP0_WORD = true) ∧ (consumer src = some c) ∧ (firstServed (·.needLocal)
      s.eq.entries = none)) ∧
    (∃ src : Src, consumer src = none) ∧
    (∃ s : State, ∃ h : EqEntry, (s.quietProducers) ∧ ((∀ e ∈ s.eq.entries, e.needRing = true → s.noRing e.dring = false)) ∧ (firstServed
      (fun e => e.needRing && !s.cellWaits e.dring e.dnode) s.eq.entries = some h)) ∧
    (∃ s : State, ∃ src : Src, ∃ h : BitVec 13, ∃ l : BitVec 13, (s.takesFields src [(F.EQ_MARKS_HWM, h.toNat), (F.EQ_MARKS_LWM, l.toNat)] =
      true) ∧ (h.toNat ≤ s.eq.entries.length)) ∧
    (∃ s : State, ∃ src : Src, ∃ h : BitVec 13, ∃ l : BitVec 13, (s.takesFields src [(F.EQ_MARKS_HWM, h.toNat), (F.EQ_MARKS_LWM, l.toNat)] =
      true) ∧ (s.eq.entries.length ≤ l.toNat) ∧ (s.quietProducers)) :=
  ⟨⟨up [], .mc0, 0xFFFFFFFF, by decide +kernel⟩,
   ⟨queued (List.replicate 4032 (entry 1 9 false true)) (up []), .mc0, 1, by decide +kernel⟩,
   ⟨(·.needLocal), [entry 1 9 true false, entry 5 9 true true, entry 5 9 true false], entry 5 9 true true, by decide +kernel⟩,
   ⟨queued [entry 1 9 true false, entry 5 9 true true] (up []), .s, 3, entry 5 9 true true, by decide +kernel⟩,
   ⟨queued [entry 1 9 true false, entry 5 9 true true] (up []), .mc0, 1, entry 5 9 true true, by decide +kernel⟩,
   ⟨queued [entry 5 9 false true] (up []), .mc1, 2, by decide +kernel⟩,
   ⟨.ring 1 9, by decide +kernel⟩,
   ⟨queued [entry 1 9 true true, entry 5 10 false true] (node []), entry 5 10 false true, by unfold State.quietProducers; decide +kernel⟩,
   ⟨queued (List.replicate 8 (entry 1 9 true false)) (up []), .mc0, 8, 2, by decide +kernel⟩,
   ⟨queued (List.replicate 2 (entry 1 9 true false)) (up []), .mc0, 8, 2, by unfold State.quietProducers; decide +kernel⟩⟩

theorem test_witness_InletStates :
    (∃ s : State, s.inlet = 0) ∧
    (∃ s : State, s.inlet = 1) ∧
    (∃ a : Bool, ∃ b : Bool, (a && b) = false) ∧
    (∃ s : State, s.inlet ≠ 0) ∧
    (∃ s : State, (s.inlet = 2 ∨ s.inlet = 3 ∨ s.inlet = 5)) ∧
    (∃ s : State, s.inlet = 2) ∧
    (∃ s : State, s.inlet = 2) ∧
    (∃ s : State, s.fetOn = true) ∧
    (∃ s : State, (s.pow.timer = true) ∧ (s.rd F.PW_INSTAT_LIMIT = 0)) ∧
    (∃ s : State, (s.fetOn = true) ∧ (s.pow.timer = true)) ∧
    (∃ s : State, s.fetOn = true) ∧
    (∃ s : State, (s.inlet = 3) ∧ (s.pow.qual = true)) ∧
    (∃ s : State, s.inlet = 4) ∧
    (∃ s : State, s.inlet = 5) ∧
    (∃ s : State, (s.inlet = 6) ∧ (s.on F.PW_INCFG_POLICY = true) ∧ (s.rd F.PW_INSTAT_RETRYN < s.rd F.PW_INCFG_RETRIES)) ∧
    (∃ s : State, s.inlet = 4) ∧
    (∃ s : State, ∃ f : MateFrame, (mateGood f 0 = true) ∧ (s.pow.latched = true)) :=
  ⟨⟨withPow { PowSt.init with latched := true } (inlet 0 []), by decide +kernel⟩,
   ⟨inlet 1 [], by decide +kernel⟩,
   ⟨true, false, by decide +kernel⟩,
   ⟨inlet 4 [(F.PW_INSTAT_PG, 1)], by decide +kernel⟩,
   ⟨inlet 5 [(F.PW_INSTAT_PG, 1)], by decide +kernel⟩,
   ⟨inlet 2 [], by decide +kernel⟩,
   ⟨inlet 2 [], by decide +kernel⟩,
   ⟨withPow { PowSt.init with qual := true } (inlet 3 []), by decide +kernel⟩,
   ⟨withPow { PowSt.init with timer := true } (inlet 3 []), by decide +kernel⟩,
   ⟨withPow { PowSt.init with timer := true } (inlet 4 []), by decide +kernel⟩,
   ⟨inlet 4 [], by decide +kernel⟩,
   ⟨withPow { PowSt.init with qual := true } (inlet 3 []), by decide +kernel⟩,
   ⟨inlet 4 [(F.PW_INSTAT_PG, 1)], by decide +kernel⟩,
   ⟨inlet 5 [(F.PW_INSTAT_PG, 1)], by decide +kernel⟩,
   ⟨inlet 6 [(F.PW_INCFG_POLICY, 1), (F.PW_INCFG_RETRIES, 3), (F.PW_INSTAT_RETRYN, 2)], by decide +kernel⟩,
   ⟨inlet 4 [(F.PW_INSTAT_RETRYN, 2)], by decide +kernel⟩,
   ⟨withPow { PowSt.init with latched := true } (inlet 6 []), { payload := [], bad := false }, by decide +kernel⟩⟩

theorem test_witness_BranchesAndWarning :
    (∃ s : State, s.on F.PW_PFWSTAT_ACTIVE = false) ∧
    (∃ s : State, s.on F.PW_PFWSTAT_ACTIVE = true) ∧
    (∃ s : State, (s.on F.PW_PFWSTAT_ACTIVE = false) ∧ (s.corePowered = true) ∧ (s.isActive = true) ∧ (s.store.fitted = true) ∧ (s.pow.final
      = false) ∧ (s.mt.finalPart = none)) ∧
    (∃ s : State, (s.pow.final = true) ∧ ((s.store.fitted = true → s.mt.finalPart.isSome = true))) ∧
    (∃ s : State, (s.pow.final = true) ∧ (s.store.fitted = true) ∧ (s.mt.finalPart = none)) ∧
    (∃ adc : List (BitVec 16), adc.length = 11) ∧
    (∃ s : State, ∃ b : Fin 8, (s.on F.PW_OWN_OWNER = true) ∧ (s.branch b.val = 1)) ∧
    (∃ s : State, ∃ b : Fin 8, (s.branch b.val = 3) ∧ (s.heatOf b.val ≤ heatOne / 2)) ∧
    (∃ s : State, ∃ b : Fin 8, s.branch b.val = 1) ∧
    (∃ s : State, ∃ b : Fin 8, (s.on F.PW_OWN_OWNER = true) ∧ (s.branch b.val ≠ 1) ∧ (s.on (F.PW_Bb_STAT_STUCK b.val) = false)) ∧
    (∃ s : State, ∃ src : Src, ∃ b : Fin 8, s.takesFields src [(F.PW_Bb_CTL_ON b.val, 1)] = true) ∧
    (∃ s : State, ∃ src : Src, ∃ b : Fin 8, (s.takesFields src [(F.PW_Bb_CTL_ON b.val, 0)] = true) ∧ (s.on (F.PW_Bb_CTL_ON b.val) = true)) ∧
    (∃ s : State, ∃ src : Src, ∃ b : Fin 8, s.takesFields src [(F.PW_Bb_CTL_LOADCURVE b.val, 1)] = true) :=
  ⟨⟨up [(F.PW_OWN_OWNER, 1), (F.PW_PFWCFG_SHED, 128), (F.PW_Bb_STAT_STATE 7, 1), (F.PW_Bb_CTL_ON 7, 1), (F.MT_STAT_ROLE, 1)],
     by decide +kernel⟩,
   ⟨withPow { PowSt.init with shed := 128 } (up [(F.PW_PFWSTAT_ACTIVE, 1), (F.PW_Bb_CTL_ON 7, 1)]), by decide +kernel⟩,
   ⟨withMt { PairMtSt.init with writing := some part } (active [(F.PW_SEQ_CORE, 1)]), by decide +kernel⟩,
   ⟨withPow { PowSt.init with final := true } (withMt { PairMtSt.init with finalPart := some part } (active [])), by decide +kernel⟩,
   ⟨withPow { PowSt.init with final := true } (active []), by decide +kernel⟩,
   ⟨List.replicate 11 5000, by decide +kernel⟩,
   ⟨up [(F.PW_OWN_OWNER, 1), (F.PW_Bb_STAT_STATE 7, 1), (F.PW_Bb_CTL_RETRIES 7, 2)], 7, by decide +kernel⟩,
   ⟨withPow { PowSt.init with heat := [(7, 2 ^ 59)] } (up [(F.PW_Bb_STAT_STATE 7, 3)]), 7, by decide +kernel⟩,
   ⟨up [(F.PW_Bb_STAT_STATE 7, 1), (F.PW_Bb_STAT_RETRYN 7, 3)], 7, by decide +kernel⟩,
   ⟨up [(F.PW_Bb_STAT_STATE 7, 2), (F.PW_OWN_OWNER, 1)], 7, by decide +kernel⟩,
   ⟨withCurve (up [(F.PW_OWN_OWNER, 1), (F.PW_Bb_STAT_STATE 7, 2), (F.PW_Bb_STAT_RETRYN 7, 3)]), .mc0, 7, by decide +kernel⟩,
   ⟨withCurve (up [(F.PW_OWN_OWNER, 1), (F.PW_Bb_STAT_STATE 7, 1), (F.PW_Bb_CTL_ON 7, 1)]), .mc0, 7, by decide +kernel⟩,
   ⟨withCurve (up ([(F.PW_Bb_LIM_IINST 7, 60000), (F.PW_Bb_RSENSE_RSENSE 7, 100)] ++ (List.range 8).flatMap fun k => [(F.PW_Bb_CURVEk_I 7 k,
     1000 * (k + 1)), (F.PW_Bb_CURVEk_M 7 k, 8 - k), (F.PW_Bb_CURVEk_E 7 k, 0)])), .mc0, 7, by decide +kernel⟩⟩

theorem test_witness_BranchHandover :
    (∃ s : State, ∃ f : MateFrame, (mateGood f 0 = true) ∧ (s.on F.PW_OWN_OWNER = true)) ∧
    (∃ s : State, ∃ f : MateFrame, (mateGood f 16 = true) ∧ (s.pow.offering = true)) ∧
    (∃ s : State, ∃ f : MateFrame, (mateGood f 16 = true) ∧ (s.pow.offering = false) ∧ (s.rd F.PW_OWN_HANDOUT = 2)) ∧
    (∃ s : State, s.pow.offering = true) ∧
    (∃ s : State, ∃ f : MateFrame, (mateGood f 3 = true) ∧ (s.on F.PW_OWN_TAKING = true)) ∧
    (∃ s : State, s.on F.PW_OWN_TAKING = true) ∧
    (∃ s : State, (s.on F.PW_OWN_TAKING = false) ∧ (s.on F.PW_OWN_OWNER = true) ∧ (s.pow.frozen = true)) ∧
    (∃ f : MateFrame, mateGood f 0 = false) ∧
    (∃ f : MateFrame, mateGood f 16 = false) ∧
    (∃ f : MateFrame, mateGood f 3 = false) :=
  ⟨⟨up [(F.PW_OWN_OWNER, 1)], { payload := [], bad := false }, by decide +kernel⟩,
   ⟨withPow { PowSt.init with offering := true } (up [(F.PW_OWN_TAKING, 1)]),
     { payload := [0x40, 1, 0x80, 2, 0xC0, 3, 0x44, 0, 0, 0, 0, 0, 0x3F, 0xFF, 0x43, 0xFF], bad := false }, by decide +kernel⟩,
   ⟨up [(F.PW_OWN_HANDOUT, 2)], { payload := List.replicate 16 0, bad := false }, by decide +kernel⟩,
   ⟨withPow { PowSt.init with offering := true } (up [(F.PW_OWN_TAKING, 1), (F.PW_Bb_CTL_ON 7, 1)]), by decide +kernel⟩,
   ⟨up [(F.PW_OWN_TAKING, 1)], { payload := [7, 0x44, 9], bad := false }, by decide +kernel⟩,
   ⟨withPow { PowSt.init with offering := true } (up [(F.PW_OWN_TAKING, 1)]), by decide +kernel⟩,
   ⟨withPow { PowSt.init with frozen := true } (up [(F.PW_OWN_OWNER, 1)]), by decide +kernel⟩,
   ⟨{ payload := [], bad := true }, by decide +kernel⟩,
   ⟨{ payload := [], bad := true }, by decide +kernel⟩,
   ⟨{ payload := [], bad := true }, by decide +kernel⟩⟩

theorem test_witness_SuppliesAndClocks :
    (∃ s : State, (s.inlet = 4) ∧ (s.corePowered = false) ∧ (s.sup.group = 0) ∧ (s.sup.retry = false) ∧ (s.sup.spent = false) ∧
      ((s.sup.start = true ∨ s.on F.MT_STAT_OWNER = true))) ∧
    (∃ s : State, ∃ g : Fin 4, (s.sup.group = g.val + 1) ∧ (g.val < 3)) ∧
    (∃ s : State, s.sup.group = 4) ∧
    (∃ s : State, ∃ g : Fin 4, (s.sup.group ≠ g.val + 1) ∧ (s.sup.lateGroup = g.val + 1)) ∧
    (∃ s : State, s.sup.group ≠ 0) ∧
    (∃ s : State, (s.sup.retry = true) ∧ (s.inlet = 4) ∧ (s.rd F.PW_SEQ_TRIES < 3)) ∧
    (∃ s : State, (s.sup.locking = true) ∧ (s.sup.held = 0)) ∧
    (∃ s : State, s.corePowered = true) ∧
    (∃ s : State, ((s.corePowered = true ∨ s.sup.group ≠ 0)) ∧ ((s.sup.stop = true ∨ (s.inlet ≠ 4 ∧ s.inlet ≠ 5)))) ∧
    (∃ s : State, ∃ p : Fin 6, s.sup.unlocked = 2 ^ p.val) :=
  ⟨⟨withSup { SupSt.init with start := true } (inlet 4 []), by decide +kernel⟩,
   ⟨withSup { SupSt.init with group := 3 } (inlet 4 []), 2, by decide +kernel⟩,
   ⟨withSup { SupSt.init with group := 4 } (inlet 4 []), by decide +kernel⟩,
   ⟨withSup { SupSt.init with lateGroup := 4 } (inlet 4 []), 3, by decide +kernel⟩,
   ⟨withSup { SupSt.init with group := 4 } (inlet 4 [(F.PW_SEQ_TRIES, 2)]), by decide +kernel⟩,
   ⟨withSup { SupSt.init with retry := true } (inlet 4 [(F.PW_SEQ_TRIES, 2)]), by decide +kernel⟩,
   ⟨withSup { SupSt.init with locking := true } (inlet 4 [(F.PW_SEQ_CORE, 1), (F.PW_SEQ_STEP, 9)]), by decide +kernel⟩,
   ⟨up [], by decide +kernel⟩,
   ⟨withSup { SupSt.init with stop := true } (up []), by decide +kernel⟩,
   ⟨withSup { SupSt.init with unlocked := 32, mcUp := true } (up []), 5, by decide +kernel⟩⟩

theorem test_witness_ResetsOfHubAndUnits :
    (∃ s : State, s.corePowered = true) ∧
    (∃ s : State, ∃ src : Src, ∃ key : Word, s.takesFields src [(F.NC_RSTREQ_KEY, key.toNat)] = true) ∧
    (∃ s : State, ∃ src : Src, ∃ mask : Byte, s.takesFields src [(F.NC_URST_CAN, mask.toNat)] = true) ∧
    (∃ s : State, ∃ src : Src, s.takesFields src [(F.NC_URST_FIELDHUB, 1)] = true) ∧
    (∃ s : State, ∃ src : Src, s.takesFields src [(F.NC_URST_SVC, 1)] = true) ∧
    (∃ s : State, ∃ src : Src, s.takesFields src [(F.NC_URST_BRIDGE, 1)] = true) ∧
    (∃ s : State, ∃ src : Src, s.takesFields src [(F.NC_URST_TIME, 1)] = true) ∧
    (∃ s : State, ∃ src : Src, s.takesFields src [(F.NC_URST_UPLINK, 1)] = true) ∧
    (∃ s : State, ∃ src : Src, ∃ mask : BitVec 16, s.takesFields src [(F.NC_WRST_BASKET, mask.toNat)] = true) ∧
    (∃ s : State, ∃ src : Src, ∃ mask : BitVec 16, s.takesFields src [(F.NC_ERST_EDGE, mask.toNat)] = true) :=
  ⟨⟨up [], by decide +kernel⟩,
   ⟨up [], .mc0, 0x57525354, by decide +kernel⟩,
   ⟨up [], .mc0, 0x81, by decide +kernel⟩,
   ⟨up [(F.US_FPn_STAT_STATE 3, 2)], .mc0, by decide +kernel⟩,
   ⟨onS [], .mc0, by decide +kernel⟩,
   ⟨up [], .mc0, by decide +kernel⟩,
   ⟨up [(F.TM_CMPk_CFG_ARM 31, 1)], .mc0, by decide +kernel⟩,
   ⟨up [(F.RGp_LSTAT_STATE 2, 4)], .mc0, by decide +kernel⟩,
   ⟨up [(F.WVn_STAT_STATE 127, 2)], .mc0, 0x8001, by decide +kernel⟩,
   ⟨up [], .mc0, 0x8001, by decide +kernel⟩⟩

theorem test_witness_PaceVoltageAndSpeed :
    (∃ s : State, s.on F.NC_AVS_AVSFAULT = false) ∧
    (∃ s : State, s.on F.NC_AVS_AVSFAULT = false) ∧
    (∃ s : State, s.on F.NC_AVS_AVSFAULT = true) ∧
    (∃ s : State, ∃ src : Src, ∃ m : BitVec 2, s.takesFields src [(F.NC_MODE_SPEED, m.toNat)] = true) ∧
    (∃ s : State, (s.rd F.NC_SPSTAT_CUR = 0) ∧ (s.on F.NC_SPSTAT_THERMAL = false)) ∧
    (∃ s : State, (s.on F.NC_SPSTAT_THERMAL = true) ∧ (s.rd F.NC_MODE_SPEED = 0) ∧ (0 < s.rd F.NC_SPSTAT_CUR)) :=
  ⟨⟨up [(F.NC_AVS_VCORE, 700), (F.NC_SPSTAT_TGT, 1), (F.NC_PACE_SC, 1300)], by decide +kernel⟩,
   ⟨up [(F.NC_AVS_VCORE, 700)], by decide +kernel⟩,
   ⟨up [(F.NC_AVS_AVSFAULT, 1)], by decide +kernel⟩,
   ⟨up [(F.NC_SPSTAT_CUR, 2), (F.NC_SPSTAT_THERMAL, 1)], .mc0, 0, by decide +kernel⟩,
   ⟨up [(F.NC_SPSTAT_CUR, 0)], by decide +kernel⟩,
   ⟨up [(F.NC_SPSTAT_CUR, 1), (F.NC_SPSTAT_THERMAL, 1), (F.NC_MODE_SPEED, 0)], by decide +kernel⟩⟩

theorem test_witness_PairRolesAndMateLine :
    (∃ s : State, s.mt.listening = true) ∧
    (∃ s : State, (s.mt.req = true) ∧ (s.owner = false) ∧ (s.canAcquire = true)) ∧
    (∃ s : State, (s.coreRuns = true) ∧ (s.sup.mcUp = true) ∧ (s.on F.FW_STAT_RECOVERY = false) ∧ (s.on F.MT_STAT_MATEPRES = true)) ∧
    (∃ s : State, (s.coreRuns = true) ∧ (s.sup.mcUp = true) ∧ (s.on F.FW_STAT_RECOVERY = false) ∧ (s.on F.MT_STAT_MATEPRES = false)) ∧
    (∃ s : State, s.owner = true) ∧
    (∃ s : State, s.owner = false) ∧
    (∃ s : State, ∃ f : MateFrame, (mateGood f 8 = true) ∧ (s.isStandby = true) ∧ (s.mt.timedOut = false) ∧ (beAt f.payload 5 1 % 2 ≠ s.rd
      F.MT_STAT_SLOT)) ∧
    (∃ s : State, ∃ f : MateFrame, (mateGood f 8 = true) ∧ (s.owner = false) ∧ (s.mt.timedOut = true)) ∧
    (∃ f : MateFrame, mateGood f 8 = false) ∧
    (∃ s : State, (s.isStandby = true) ∧ (s.mt.timedOut = false) ∧ (s.mt.taking = none)) ∧
    (∃ s : State, (s.isStandby = true) ∧ ((s.mt.timedOut = true ∨ s.mt.surrender = true)) ∧ (s.rd F.MT_STAT_TKOUT = 2) ∧ (s.mt.taking =
      none) ∧ (s.storeFree = true)) ∧
    (∃ f : MateFrame, mateGood f 8 = true) ∧
    (∃ s : State, s.on F.MT_STAT_MATEPRES = true) ∧
    (∃ s : State, ∃ f : MateFrame, (mateGood f 4 = true) ∧ (s.isStandby = true) ∧ (s.mt.taking = none)) ∧
    (∃ f : MateFrame, mateGood f 4 = false) ∧
    (∃ f : MateFrame, mateGood f 8 = false) :=
  ⟨⟨withMt { PairMtSt.init with listening := true } (st []), by decide +kernel⟩,
   ⟨withMt { PairMtSt.init with req := true } (st []), by decide +kernel⟩,
   ⟨up [(F.MT_STAT_MATEPRES, 1), (F.MT_STAT_OWNER, 1), (F.MT_STAT_ROLE, 1)], by decide +kernel⟩,
   ⟨up [(F.MT_STAT_OWNER, 1), (F.MT_STAT_ROLE, 1)], by decide +kernel⟩,
   ⟨active [], by decide +kernel⟩,
   ⟨standby PairMtSt.init [], by decide +kernel⟩,
   ⟨standby PairMtSt.init [], { payload := [0, 0, 0, 9, 1, 1, 0, 0], bad := false }, by decide +kernel⟩,
   ⟨standby { PairMtSt.init with timedOut := true } [], { payload := [0, 0, 0, 9, 1, 1, 0, 0], bad := false }, by decide +kernel⟩,
   ⟨{ payload := [1, 2], bad := false }, by decide +kernel⟩,
   ⟨standby PairMtSt.init [], by decide +kernel⟩,
   ⟨standby { PairMtSt.init with timedOut := true } [(F.MT_STAT_TKOUT, 2)], by decide +kernel⟩,
   ⟨{ payload := [2, 1, 64, 0, 0, 0, 0, 0], bad := false }, by decide +kernel⟩,
   ⟨active [(F.MT_STAT_MATEPRES, 1)], by decide +kernel⟩,
   ⟨standby PairMtSt.init [], { payload := [0, 0, 0, 1], bad := false }, by decide +kernel⟩,
   ⟨{ payload := [], bad := true }, by decide +kernel⟩,
   ⟨{ payload := [], bad := true }, by decide +kernel⟩⟩

theorem test_witness_CheckpointsAndLending :
    (∃ s : State, (s.isActive = true) ∧ (s.store.fitted = true) ∧ (s.mt.writing = none) ∧ (s.mt.finalPart = none) ∧ (s.mt.lent = false) ∧
      (s.mt.lending = false)) ∧
    (∃ s : State, (s.isActive = true) ∧ (s.store.fitted = true) ∧ ((s.mt.writing.isSome = true ∨ s.mt.finalPart.isSome = true ∨ s.mt.lent =
      true ∨ s.mt.lending = true))) ∧
    (∃ s : State, (s.isActive = true) ∧ (s.store.fitted = true) ∧ (s.mt.writing = none) ∧ (s.mt.finalPart = none) ∧ (s.mt.lent = false) ∧
      (s.mt.lending = false)) ∧
    (∃ s : State, (s.isActive = true) ∧ (s.store.fitted = true) ∧ ((s.mt.writing.isSome = true ∨ s.mt.finalPart.isSome = true ∨ s.mt.lent =
      true ∨ s.mt.lending = true))) ∧
    (∃ s : State, ∃ p : CkPart, (s.mt.writing = some p) ∧ (s.mt.forCmd = false) ∧ (s.mt.yielding = false) ∧ (s.mt.due = false) ∧
      (s.mt.lending = false)) ∧
    (∃ s : State, ∃ p : CkPart, (s.mt.writing = some p) ∧ (s.mt.forCmd = false) ∧ (s.mt.yielding = false) ∧ (s.mt.due = false) ∧
      (s.mt.lending = false)) ∧
    (∃ s : State, ∃ q : Nat, ∃ qs : List Nat, ∃ e : TEntry, (s.owner = true) ∧ (s.mg.toStore = q :: qs) ∧ (s.mg.tally.find? (fun e => e.seq
      == q) = some e)) ∧
    (∃ s : State, ∃ q : Nat, ∃ qs : List Nat, (s.owner = true) ∧ (s.mg.toStore = q :: qs)) ∧
    (∃ s : State, ∃ f : MateFrame, (mateGood f 0 = true) ∧ (s.owner = true) ∧ (s.mt.lent = false) ∧ ((s.mt.writing.isSome = true ∨
      s.mt.finalPart.isSome = true))) ∧
    (∃ s : State, ∃ f : MateFrame, (mateGood f 0 = true) ∧ (s.owner = true) ∧ (s.mt.lent = false) ∧ (s.mt.writing = none) ∧ (s.mt.finalPart
      = none)) ∧
    (∃ s : State, ∃ f : MateFrame, (mateGood f 2 = true) ∧ (s.owner = false)) ∧
    (∃ s : State, ∃ f : MateFrame, (mateGood f 0 = true) ∧ (s.owner = true) ∧ (s.mt.lent = true) ∧ (s.mt.lending = false)) ∧
    (∃ s : State, (s.owner = true) ∧ (s.mt.lent = true) ∧ (s.mt.lending = false)) ∧
    (∃ s : State, (s.owner = true) ∧ (s.mt.lent = true) ∧ (s.pow.final = true) ∧ (s.store.fitted = true) ∧ (s.mt.writing = none) ∧
      (s.mt.finalPart = none)) ∧
    (∃ s : State, s.owner = false) ∧
    (∃ s : State, s.owner = false) :=
  ⟨⟨active [], by decide +kernel⟩,
   ⟨withMt { PairMtSt.init with lent := true } (active []), by decide +kernel⟩,
   ⟨active [], by decide +kernel⟩,
   ⟨withMt { PairMtSt.init with writing := some part } (active []), by decide +kernel⟩,
   ⟨withMt { PairMtSt.init with writing := some part } (active []), part, by decide +kernel⟩,
   ⟨withMt { PairMtSt.init with writing := some part } (active []), part, by decide +kernel⟩,
   ⟨{ active [] with mg := { MgSt.init with toStore := [2, 3], tally := [tent 3, tent 2] } }, 2, [3], tent 2, by decide +kernel⟩,
   ⟨{ active [] with mg := { MgSt.init with toStore := [2, 3], tally := [tent 3, tent 2] } }, 2, [3], by decide +kernel⟩,
   ⟨withMt { PairMtSt.init with writing := some part } (active []), { payload := [], bad := false }, by decide +kernel⟩,
   ⟨active [], { payload := [], bad := false }, by decide +kernel⟩,
   ⟨standby PairMtSt.init [], { payload := [1, 0], bad := false }, by decide +kernel⟩,
   ⟨withMt { PairMtSt.init with lent := true, due := true, dueFull := true } (active []), { payload := [], bad := false },
     by decide +kernel⟩,
   ⟨withMt { PairMtSt.init with lent := true } (active []), by decide +kernel⟩,
   ⟨withPow { PowSt.init with final := true } (withMt { PairMtSt.init with lent := true } (active [])), by decide +kernel⟩,
   ⟨standby { PairMtSt.init with window := true } [], by decide +kernel⟩,
   ⟨standby PairMtSt.init [], by decide +kernel⟩⟩

theorem test_witness_TakeoverAndRuns :
    (∃ s : State, ∃ cause : Nat, (s.mt.taking = some cause) ∧ (s.on F.PW_OWN_TAKING = true) ∧ (s.pow.offering = true) ∧ (s.on
      F.FW_STAT_RECOVERY = false)) ∧
    (∃ s : State, (s.mt.taking = none) ∧ (s.isStandby = false)) ∧
    (∃ s : State, ∃ store : Option StoreSt, ((s.storeSeen store).canRun = true) ∧ (s.on F.MT_CFG_PROVE = true)) ∧
    (∃ s : State, ∃ store : Option StoreSt, ((s.storeSeen store).canRun = true) ∧ (s.on F.MT_CFG_PROVE = false)) ∧
    (∃ s : State, ∃ store : Option StoreSt, ((s.storeSeen store).canRun = true) ∧ (s.on F.MT_CFG_PROVE = true)) ∧
    (∃ s : State, ∃ store : Option StoreSt, (s.storeSeen store).canRun = true) ∧
    (∃ s : State, ∃ store : Option StoreSt, ((s.storeSeen store).canRun = false) ∧ (s.mt.run = 1) ∧ (s.mt.taking = none)) ∧
    (∃ s : State, ∃ store : Option StoreSt, ((s.storeSeen store).canRun = false) ∧ (s.mt.run ≠ 1)) :=
  ⟨⟨withPow { PowSt.init with offering := true } (withMt { PairMtSt.init with taking := some 0, timedOut := true } (stored (up [(F.PW_INSTAT_STATE,
     4), (F.PW_OWN_TAKING, 1), (F.MT_STAT_OWNER, 1)]))), 0, by decide +kernel⟩,
   ⟨active [], by decide +kernel⟩,
   ⟨runner [(F.MT_CFG_PROVE, 1)], none, by decide +kernel⟩,
   ⟨runner [(F.MT_CFG_PROVE, 0)], some { StoreSt.init with fitted := true }, by decide +kernel⟩,
   ⟨runner [(F.MT_CFG_PROVE, 1)], none, by decide +kernel⟩,
   ⟨runner [(F.MT_CFG_PROVE, 0)], none, by decide +kernel⟩,
   ⟨withMt { PairMtSt.init with run := 1 } (up []), none, by decide +kernel⟩,
   ⟨active [], none, by decide +kernel⟩⟩

theorem test_witness_MailboxCommands :
    (∃ s : State, ∃ src : Src, ∃ tag : BitVec 16, ∃ x : Args, (s.serves src 1 tag x 0 = true) ∧ (s.on F.FW_STAT_RECOVERY = false) ∧
      (s.mt.run = 0)) ∧
    (∃ s : State, ∃ src : Src, (s.reaches src = true) ∧ (s.sup.mcUp = true) ∧ (s.hasRight src 2 = false) ∧ (s.usb.bulk = [])) ∧
    (∃ s : State, ∃ src : Src, ∃ tag : BitVec 16, ∃ x : Args, (s.serves src 2 tag x 0 = true) ∧ (s.on F.FW_STAT_RECOVERY = false) ∧
      (s.mt.run = 0)) ∧
    (∃ s : State, ∃ src : Src, ∃ tag : BitVec 16, ∃ x : Args, (s.serves src 0x10 tag x 0 = true) ∧ (x.a1.toNat = F.TM_SETS_SEC.key /
      0x100000) ∧ (x.a2.toNat = F.TM_SETS_SEC.key % 0x100000)) ∧
    (∃ s : State, ∃ src : Src, ∃ tag : BitVec 16, ∃ x : Args, (s.starts src 0x11 tag x = true) ∧ (s.mt.run = 0)) ∧
    (∃ s : State, ∃ src : Src, ∃ tag : BitVec 16, ∃ x : Args, s.starts src 0x12 tag x = true) ∧
    (∃ s : State, ∃ src : Src, ∃ tag : BitVec 16, ∃ x : Args, (s.starts src 0x30 tag x = true) ∧ (s.store.fitted = true)) ∧
    (∃ s : State, ∃ src : Src, ∃ tag : BitVec 16, ∃ x : Args, s.serves src 0x31 tag x 0 = true) ∧
    (∃ s : State, ∃ src : Src, ∃ tag : BitVec 16, ∃ x : Args, s.starts src 0x32 tag x = true) ∧
    (∃ s : State, ∃ src : Src, ∃ tag : BitVec 16, ∃ x : Args, (s.hears src = true) ∧ (s.hasRight src 1 = true) ∧ ((cmdOf src 0x32 tag
      x).argsOk = true) ∧ (s.mg.longQ.length < 8) ∧ ((s.isActive = false ∨ s.store.fitted = false)) ∧ (s.on F.FW_STAT_RECOVERY = false) ∧
      (s.mt.run = 0)) ∧
    (∃ s : State, ∃ src : Src, ∃ tag : BitVec 16, ∃ x : Args, s.serves src 0x40 tag x 0 = true) ∧
    (∃ s : State, ∃ src : Src, ∃ tag : BitVec 16, ∃ x : Args, s.serves src 0x50 tag x 0 = true) ∧
    (∃ s : State, ∃ src : Src, ∃ tag : BitVec 16, ∃ x : Args, s.serves src 0x51 tag x 0 = true) ∧
    (∃ s : State, s.on F.NC_DEBUG_UNLOCKED = true) ∧
    (∃ s : State, ∃ x : LongCmd, ∃ r : Nat, (s.mg.longQ = [x]) ∧ (s.mg.longRes = some r) ∧ (s.on F.FW_STAT_RECOVERY = false) ∧ (s.mt.run =
      0) ∧ (s.usb.bulk = [])) ∧
    (∃ s : State, ∃ src : Src, ∃ tag : BitVec 16, ∃ x : Args, (s.starts src 0x30 tag x = true) ∧ (s.store.fitted = false)) :=
  ⟨⟨up [], .mc0, 5, ar 0 0 0 0, by decide +kernel⟩,
   ⟨node [], .ring 1 9, by decide +kernel⟩,
   ⟨up [], .s, 5, ar 0x1234ABCD 1 0 0, by decide +kernel⟩,
   ⟨up [], .mc1, 5, ar (BitVec.ofNat 32 (F.TM_SETS_SEC.key / 0x100000)) (BitVec.ofNat 32 (F.TM_SETS_SEC.key % 0x100000)) 0xFFFFFFFF 0xFF00,
     by decide +kernel⟩,
   ⟨up [], .mc0, 5, ar 0 0 0 0, by decide +kernel⟩,
   ⟨node [], .mc0, 5, ar 0 0 0 0, by decide +kernel⟩,
   ⟨active [(F.MT_STAT_MATEPRES, 1), (F.MT_MATE_MREADY, 1)], .mc0, 5, ar 0 0 0 0, by decide +kernel⟩,
   ⟨active [(F.MT_STAT_MATEPRES, 1)], .mc0, 5, ar 0 0 0 0, by decide +kernel⟩,
   ⟨active [], .mc0, 5, ar 0 0 0 0, by decide +kernel⟩,
   ⟨up [], .mc0, 5, ar 0 0 0 0, by decide +kernel⟩,
   ⟨keyed (up []), .mc0, 5, ar 1 0 0 0, by decide +kernel⟩,
   ⟨up [], .mc0, 5, ar 1440 0 0 0, by decide +kernel⟩,
   ⟨{ up [(F.NC_DEBUG_UNLOCKED, 1)] with mg := { MgSt.init with debugUntil := some 9 } }, .mc0, 5, ar 0 0 0 0, by decide +kernel⟩,
   ⟨{ up [(F.NC_DEBUG_UNLOCKED, 1)] with mg := { MgSt.init with debugUntil := some 9 } }, by decide +kernel⟩,
   ⟨{ up [] with mg := { MgSt.init with longQ := [long 0x32 (ar 0 0 0 0)], longRes := some 0x1D } }, long 0x32 (ar 0 0 0 0), 0x1D,
     by decide +kernel⟩,
   ⟨up [(F.MT_STAT_OWNER, 1), (F.MT_STAT_MATEPRES, 1), (F.MT_MATE_MREADY, 1)], .mc0, 5, ar 0 0 0 0, by decide +kernel⟩⟩

theorem fullTable_get (n i k : Nat) (h : i ≤ k) (g : k < i + n) :
    Tbl.get LaunchE.free k (fullTable n i) = { LaunchE.free with sec := 1, refs := 1 } := by
  induction n generalizing i with
  | zero => omega
  | succ n ih =>
    simp only [fullTable, Tbl.get]
    split
    · rfl
    · exact ih (i + 1) (by omega) (by omega)
theorem fullTable_busy (fuel i : Nat) (h : 1 ≤ i) : freeLti (fullTable 4095 1) fuel i = none := by
  induction fuel generalizing i with
  | zero => rfl
  | succ fuel ih =>
    unfold freeLti
    split
    · rw [fullTable_get 4095 1 i h (by omega), if_neg (by decide)]
      exact ih (i + 1) (by omega)
    · rfl

theorem test_witness_TallyReadsAndFrames :
    (∃ s : State, ∃ src : Src, ∃ tag : BitVec 16, ∃ x : Args, (s.starts src 0x60 tag x = true) ∧ (s.on F.TL_STORE_PRESENT = true) ∧ (max 1
      (s.mg.nextSeq + 1 - 65536) ≤ x.a1.toNat + x.a2.toNat * 2 ^ 32) ∧ (x.a1.toNat + x.a2.toNat * 2 ^ 32 ≤ s.mg.nextSeq)) ∧
    (∃ s : State, ∃ src : Src, ∃ tag : BitVec 16, ∃ x : Args, (s.starts src 0x60 tag x = true) ∧ (s.mg.nextSeq < x.a1.toNat + x.a2.toNat * 2
      ^ 32)) ∧
    (∃ s : State, ∃ src : Src, s.takesField src F.TL_HEADL_SEQ = true) ∧
    (∃ s : State, ∃ src : Src, ∃ tol : Word, ∃ d : Nat, (s.takesFields src [(F.NC_FTXD3_TOL, tol.toNat)] = true) ∧ (d = (Tbl.get 0 0x600
      s.mg.ftx).toNat) ∧ (bitsOf d 25 1 = 0) ∧ (s.outFlushing (bitsOf d 16 4 + 3) = false) ∧ ((s.outOf (bitsOf d 16 4 + 3)).spilled (bitsOf
      d 20 3) = false) ∧ (37 + Tbl.get 0 (bitsOf d 16 4 + 3) s.slath.ded ≤ s.dedCells (bitsOf d 16 4 + 3))) ∧
    (∃ s : State, ∃ src : Src, ∃ tol : Word, ∃ d : Nat, (s.takesFields src [(F.NC_FTXD3_TOL, tol.toNat)] = true) ∧ (d = (Tbl.get 0 0x600
      s.mg.ftx).toNat) ∧ (bitsOf d 25 1 = 1) ∧ (freeLti s.tm.launch (s.tm.launch.length + 1) 1 = none)) :=
  ⟨⟨{ up [(F.TL_STORE_PRESENT, 1)] with mg := { MgSt.init with nextSeq := 3, tally := [tent 2, tent 1] } }, .mc0, 5, ar 2 0 256 0,
     by decide +kernel⟩,
   ⟨up [], .mc0, 5, ar 2 0 256 0, by decide +kernel⟩,
   ⟨{ up [] with mg := { MgSt.init with nextSeq := 3, tally := [tent 2, tent 1] } }, .mc0, by decide +kernel⟩,
   ⟨{ up [(F.SW_PCFGn_ENABLE 3, 1)] with weave := some { weaveOf [] [] with pool := [⟨0, 3, 0, 0, 40⟩] } }, .mc0, 0, 0, by decide +kernel⟩,
   ⟨{ up [] with mg := { MgSt.init with ftx := [(0x600, 0x2000000)] }, tm := { TimeSt.init with launch := fullTable 4095 1 } }, .mc0, 0,
     0x2000000, ⟨by decide +kernel, by decide +kernel, by decide +kernel, fullTable_busy _ 1 (Nat.le_refl 1)⟩⟩⟩

theorem test_witness_FirmwareAndCores :
    (∃ s : State, ∃ src : Src, ∃ tag : BitVec 16, ∃ x : Args, s.starts src 0x20 tag x = true) ∧
    (∃ s : State, ∃ src : Src, ∃ tag : BitVec 16, ∃ x : Args, ∃ off : Nat, ∃ len : Nat, (s.starts src 0x21 tag x = true) ∧ (off = leAt
      s.blkBytes 0 4) ∧ (len = leAt s.blkBytes 4 2) ∧ (s.fw.holder = some src) ∧ (leAt s.blkBytes 6 1 = s.fw.stComp) ∧ (leAt s.blkBytes 12 4
      = s.rd F.FW_SESSION_SESSION) ∧ (off % 4096 = 0) ∧ (1 ≤ len) ∧ (len ≤ 4096) ∧ (off + len ≤ s.fw.stTotal) ∧ ((len = 4096 ∨ off + len =
      s.fw.stTotal)) ∧ ((crc32c (slice s.blkBytes 16 len)).toNat = leAt s.blkBytes 8 4) ∧ (Tbl.get [] (off / 4096) s.fw.staging = [])) ∧
    (∃ s : State, ∃ src : Src, ∃ tag : BitVec 16, ∃ x : Args, (s.starts src 0x22 tag x = true) ∧ (s.fw.holder = none)) ∧
    (∃ s : State, ∃ src : Src, ∃ tag : BitVec 16, ∃ x : Args, (s.starts src 0x22 tag x = true) ∧ (s.fw.holder.isSome = true) ∧
      (s.stagedWhole = true) ∧ (leAt s.stagedImage (if s.fw.stComp = 5 then 0x28 else 0x10) 4 = s.fw.stTotal) ∧ (s.imageError s.fw.stComp
      s.stagedImage = none)) ∧
    (∃ s : State, ∃ src : Src, ∃ tag : BitVec 16, ∃ x : Args, (s.starts src 0x22 tag x = true) ∧ (s.fw.holder.isSome = true) ∧
      (s.stagedWhole = false)) ∧
    (∃ s : State, ∃ src : Src, ∃ tag : BitVec 16, ∃ x : Args, ∃ e : Nat, (s.starts src 0x22 tag x = true) ∧ (s.fw.holder.isSome = true) ∧
      (s.stagedWhole = true) ∧ (leAt s.stagedImage (if s.fw.stComp = 5 then 0x28 else 0x10) 4 = s.fw.stTotal) ∧ (s.imageError s.fw.stComp
      s.stagedImage = some e)) ∧
    (∃ s : State, ∃ src : Src, ∃ tag : BitVec 16, ∃ x : Args, s.starts src 0x21 tag x = true) ∧
    (∃ s : State, ∃ src : Src, ∃ tag : BitVec 16, ∃ x : Args, (s.starts src 0x23 tag x = true) ∧ (x.a2.toNat = 0) ∧ ((s.fw.verified = false
      ∨ s.fw.stComp ≠ x.a1.toNat))) ∧
    (∃ s : State, ∃ src : Src, ∃ tag : BitVec 16, ∃ x : Args, (s.starts src 0x23 tag x = true) ∧ (x.a1.toNat = 1) ∧ (x.a2.toNat = 0) ∧
      (s.fw.verified = true) ∧ (s.fw.stComp = 1) ∧ (s.compat 1 s.stagedImage = none)) ∧
    (∃ s : State, ∃ src : Src, ∃ tag : BitVec 16, ∃ x : Args, s.serves src 0x24 tag x 0 = true) ∧
    (∃ s : State, (s.coreRuns = true) ∧ (s.sup.mcUp = false) ∧ (s.sup.held = 0) ∧ (s.sup.locking = false) ∧ (s.fw.trial = false) ∧
      (s.imageError 1 (Tbl.get [] s.fw.curMfw s.fw.slots) = none)) ∧
    (∃ s : State, (s.coreRuns = true) ∧ (s.sup.mcUp = false) ∧ (s.sup.held = 0) ∧ (s.sup.locking = false) ∧ (s.fw.trial = false) ∧
      ((s.imageError 1 (Tbl.get [] s.fw.curMfw s.fw.slots)).isSome = true) ∧ ((s.imageError 1 (Tbl.get [] (1 - s.fw.curMfw)
      s.fw.slots)).isSome = true)) ∧
    (∃ s : State, (s.fw.trial = true) ∧ (s.sup.mcUp = true)) ∧
    (∃ s : State, ∃ p : Fin 3, (s.fw.sdm = [p.val]) ∧ (s.isUp p.val = true)) ∧
    (∃ s : State, s.fw.sdm.contains 3 = true) ∧
    (∃ s : State, ∃ c : Fin 5, ∃ r : List Byte, (s.isActive = true) ∧ (s.owner = true) ∧ (s.store.fitted = true) ∧ (s.runningOf (c.val + 1)
      = some r)) ∧
    (∃ s : State, (s.sup.mcUp = true) ∧ (s.mt.run = 0)) ∧
    (∃ s : State, (s.sup.mcUp = true) ∧ (s.mt.run = 0)) ∧
    (∃ s : State, (s.sup.mcUp = true) ∧ (s.on F.MT_STAT_MATEPRES = true)) ∧
    (∃ s : State, ∃ src : Src, ∃ tag : BitVec 16, ∃ x : Args, (s.starts src 0x22 tag x = true) ∧ (s.fw.holder.isSome = true) ∧
      (s.stagedWhole = true) ∧ (leAt s.stagedImage (if s.fw.stComp = 5 then 0x28 else 0x10) 4 ≠ s.fw.stTotal)) ∧
    (∃ s : State, ∃ src : Src, ∃ tag : BitVec 16, ∃ x : Args, (s.starts src 0x23 tag x = true) ∧ (x.a1.toNat = 1) ∧ (x.a2.toNat = 0) ∧
      (s.fw.verified = true) ∧ (s.fw.stComp = 1) ∧ (s.compat 1 s.stagedImage = none)) ∧
    (∃ s : State, ∃ src : Src, ∃ tag : BitVec 16, ∃ x : Args, ∃ e : Nat × Nat × Nat, (s.starts src 0x23 tag x = true) ∧ (x.a2.toNat = 0) ∧
      (s.fw.verified = true) ∧ (s.fw.stComp = x.a1.toNat) ∧ (s.compat x.a1.toNat s.stagedImage = some e)) :=
  ⟨⟨up [], .s, 5, ar 1 4194304 0 0, by decide +kernel⟩,
   ⟨withFw { FwSt.init with holder := some .s, stComp := 1, stTotal := 2, blk := [(1, 0x00010002), (2, crc32c [1, 2]), (3, 9), (4, 0x0201)] } (up [(F.FW_SESSION_SESSION,
     9)]), .s, 5, ar 0 0 0 0, 0, 2, by decide +kernel⟩,
   ⟨up [], .s, 5, ar 0 0 0 0, by decide +kernel⟩,
   ⟨keyed (withFw { FwSt.init with holder := some .s, stComp := 1, stTotal := 260, staging := [(0, mfw)] } (up [])), .s, 5, ar 0 0 0 0,
     by decide +kernel⟩,
   ⟨withFw { FwSt.init with holder := some .s, stComp := 1, stTotal := 260 } (up []), .s, 5, ar 0 0 0 0, by decide +kernel⟩,
   ⟨withFw { FwSt.init with holder := some .s, stComp := 1, stTotal := 260, staging := [(0, List.replicate 16 0 ++ [4, 1] ++ List.replicate 242 0)] } (up []),
     .s, 5, ar 0 0 0 0, 1, by decide +kernel⟩,
   ⟨withFw { FwSt.init with holder := some .s, stComp := 1, stTotal := 2, verified := true } (up []), .s, 5, ar 0 0 0 0, by decide +kernel⟩,
   ⟨up [], .s, 5, ar 1 0 0 0, by decide +kernel⟩,
   ⟨withFw { FwSt.init with holder := some .s, stComp := 1, stTotal := 260, staging := [(0, mfw)], verified := true, running := [(2, mfw), (3, mfw), (4, mfw)] } (up []),
     .s, 5, ar 1 0 0 0, by decide +kernel⟩,
   ⟨withFw { FwSt.init with holder := some .s, stComp := 1, stTotal := 260, staging := [(0, mfw)], verified := true } (up []), .s, 5,
     ar 0 0 0 0, by decide +kernel⟩,
   ⟨keyed (cold { FwSt.init with slots := [(0, mfw)] } []), by decide +kernel⟩,
   ⟨cold FwSt.init [], by decide +kernel⟩,
   ⟨withFw { FwSt.init with trial := true, curMfw := 1 } (up [(F.FW_STAT_TRIAL, 1)]), by decide +kernel⟩,
   ⟨withFw { FwSt.init with sdm := [2] } (up [(F.RGp_LSTAT_STATE 2, 4)]), 2, by decide +kernel⟩,
   ⟨withFw { FwSt.init with sdm := [3] } (up []), by decide +kernel⟩,
   ⟨withFw { FwSt.init with running := [(4, mfw)] } (active []), 3, mfw, by decide +kernel⟩,
   ⟨up [(F.US_FPn_STAT_STATE 3, 2)], by decide +kernel⟩,
   ⟨up [(F.US_FPn_STAT_STATE 3, 2)], by decide +kernel⟩,
   ⟨active [(F.MT_STAT_MATEPRES, 1)], by decide +kernel⟩,
   ⟨withFw { FwSt.init with holder := some .s, stComp := 1, stTotal := 2, staging := [(0, [1, 2])] } (up []), .s, 5, ar 0 0 0 0,
     by decide +kernel⟩,
   ⟨withFw { FwSt.init with holder := some .s, stComp := 1, stTotal := 260, staging := [(0, mfw)], verified := true, running := [(2, mfw), (3, mfw), (4, mfw)] } (up []),
     .s, 5, ar 1 0 0 0, by decide +kernel⟩,
   ⟨withFw { FwSt.init with holder := some .s, stComp := 1, stTotal := 260, verified := true, staging := [(0, List.replicate 16 0 ++ [4, 1] ++ List.replicate 242 0)] } (up []),
     .s, 5, ar 1 0 0 0, (0, 0, 0), by decide +kernel⟩⟩

theorem test_witness_RegisterAccesses :
    (∃ s : State, ∃ src : Src, ∃ cls : Nat, ∃ off : Nat, ∃ v : Word, s.takesWrite src cls off v.toNat = true) ∧
    (∃ s : State, ∃ src : Src, ∃ v : Word, s.takesFields src [(F.TM_SETS_SEC, v.toNat)] = true) ∧
    (∃ s : State, ∃ src : Src, ∃ v : Word, s.takesWrite src (F.PW_RSTCAUSE_PIN.key / 0x100000) (F.PW_RSTCAUSE_PIN.key % 0x100000) v.toNat =
      true) ∧
    (∃ s : State, ∃ src : Src, ∃ cls : Nat, ∃ off : Nat, ∃ v : Word, ∃ f : Fam, ∃ is : List Nat, (s.reaches src = true) ∧ (cls ≤ 0x0D) ∧
      (off % 4 = 0) ∧ (s.hiddenNow src cls off = false) ∧ ((cls = 5 → rxAt off = none)) ∧ (regAt cls off = some (f, is)) ∧ ((src.isRing &&
      ringHidden f.id) = false) ∧ (s.mayWrite src f.id = true) ∧ ((f.id = .RGp_I2C → s.on (F.RGp_I2C_BUSY (ix is 0)) = false)) ∧
      ((s.beforeWrite f.id is).untouchedBy (keyOf cls off) f is v.toNat = false)) ∧
    (∃ s : State, ∃ src : Src, ∃ cls : Nat, ∃ off : Nat, ∃ f : Fam, ∃ is : List Nat, (s.takesRead src cls off = true) ∧ (regAt cls off =
      some (f, is))) ∧
    (∃ s : State, ∃ src : Src, s.takesField src F.EQ_PUSHREF_COUNT = true) :=
  ⟨⟨up [], .mc0, 2, F.TM_SETS_SEC.key % 0x100000, 5, by decide +kernel⟩,
   ⟨up [], .mc0, 0xFFFFFFFF, by decide +kernel⟩,
   ⟨up [(F.PW_RSTCAUSE_PIN, 1)], .mc0, 1, by decide +kernel⟩,
   ⟨up [], .mc0, 0, 0x420, 7, ⟨.NC_RSTREQ, 0x420, [], [⟨0, 32, .wo, .plain, 0, []⟩]⟩, [], by decide +kernel⟩,
   ⟨up [(F.EQ_PUSHREF_COUNT, 9)], .mc0, F.EQ_PUSHREF_COUNT.key / 0x100000, F.EQ_PUSHREF_COUNT.key % 0x100000,
     ((regAt (F.EQ_PUSHREF_COUNT.key / 0x100000) (F.EQ_PUSHREF_COUNT.key % 0x100000)).getD (⟨.NC_RSTREQ, 0x420, [], []⟩, [])).1, [],
     by decide +kernel⟩,
   ⟨up [(F.EQ_PUSHREF_COUNT, 9)], .mc0, by decide +kernel⟩⟩

theorem test_witness_WeaveLoads :
    (∃ s : State, ∃ i : Image, (s.bootDue = true) ∧ (s.fw.curWeave = 0) ∧ (s.errClear.loadSlot 0 false = .inr i)) ∧
    (∃ s : State, s.bootDue = true) ∧
    (∃ s : State, ∃ l : LiveLoad, ∃ i : Image, (s.we.live = some l) ∧ (s.rd F.WE_STATUS_STAGE = 3) ∧ (parseImage l.image = .inr i) ∧
      (s.quiet i = true)) ∧
    (∃ s : State, (s.we.live = none) ∧ (s.we.quietLost = true)) ∧
    (∃ s : State, ∃ l : LiveLoad, (s.we.live = some l) ∧ (s.rd F.WE_STATUS_STAGE = 3)) ∧
    (∃ s : State, ∃ l : LiveLoad, ∃ i : Image, (s.we.live = some l) ∧ (s.rd F.WE_STATUS_STAGE = 3) ∧ (parseImage l.image = .inr i) ∧
      (s.quiet i = false)) :=
  ⟨⟨keyed (withFw { FwSt.init with slots := [(5, wv)] } (up [])),
     (match parseImage wv with | .inr i => i | .inl _ => { raw := [], sp := [], pins := [], presets := [], pool := [], claims := [] }),
     by decide +kernel⟩,
   ⟨up [], by decide +kernel⟩,
   ⟨{ up [(F.WE_STATUS_STAGE, 3)] with we := { LoaderSt.init with live := some { image := wv, slot := 1 } } }, { image := wv, slot := 1 },
     (match parseImage wv with | .inr i => i | .inl _ => { raw := [], sp := [], pins := [], presets := [], pool := [], claims := [] }),
     by decide +kernel⟩,
   ⟨{ up [] with we := { LoaderSt.init with quietLost := true } }, by decide +kernel⟩,
   ⟨{ up [(F.WE_STATUS_STAGE, 3)] with we := { LoaderSt.init with live := some { image := wv, slot := 1 } } }, { image := wv, slot := 1 },
     by decide +kernel⟩,
   ⟨{ canWith { CanSt.init with inFrame := true } [(F.WE_STATUS_STAGE, 3)] with we := { LoaderSt.init with live := some { image := wv, slot := 1 } } },
     { image := wv, slot := 1 },
     (match parseImage wv with | .inr i => i | .inl _ => { raw := [], sp := [], pins := [], presets := [], pool := [], claims := [] }),
     by decide +kernel⟩⟩

theorem test_witness_TestAccessPort :
    (∃ s : State, s.jtagDebug = false) ∧
    (∃ s : State, s.jtagDebug = true) ∧
    (∃ s : State, (s.sup.aon = true) ∧ (s.testLow = false) ∧ (s.roleHigh = false)) ∧
    (∃ s : State, s.testLow = true) :=
  ⟨⟨{ st [] with otp := { (st []).otp with jtagLock := true } }, by decide +kernel⟩,
   ⟨st [(F.NC_DEBUG_UNLOCKED, 1)], by decide +kernel⟩,
   ⟨withSup { SupSt.init with aon := true } (st []), by decide +kernel⟩,
   ⟨withSup { SupSt.init with aon := true, held := 2 } (up []), by decide +kernel⟩⟩

theorem test_witness_LinkAndMembershipFrames :
    (∃ t, exec (.clockLock 2) base = .next t) ∧
    (∃ t, exec (.acqTimeout 2) base = .next t) ∧
    (∃ t, exec (.blockLock 0) base = .next t) ∧
    (∃ t, exec (.lockTimeout 0) base = .next t) ∧
    (∃ t, exec (.holdoffEnd 0) base = .next t) ∧
    (∃ t, exec (.helloSend 1) base = .next t) ∧
    (∃ t, exec (.pulseSend 1) base = .next t) ∧
    (∃ t, exec (.pulse 2) base = .next t) ∧
    (∃ t, exec (.opticsPoll 1 (some ([1, 2, 3, 4, 5, 6, 7, 8, 9, 10]))) base = .next t) ∧
    (∃ t, exec (.i2cTransferDone 0 true (0x5A)) base = .next t) ∧
    (∃ t, exec (.i2cStretchTimeout 1) base = .next t) ∧
    (∃ t, exec (.unwrapHoldEnd 0) base = .next t) ∧
    (∃ t, exec (.roundStart) base = .next t) ∧
    (∃ t, exec (.enumTimeout) base = .next t) ∧
    (∃ t, exec (.postableWindowTimeout) base = .next t) ∧
    (∃ t, exec (.dupcheck ({ z with sring := 1, snode := 5, payload := [0, 0, 0, 0, 0, 0, 0, 5] })) base = .next t) ∧
    (∃ t, exec (.enumerateReturn ({ z with hops := 4, payload := [0, 7] ++ List.replicate 14 0 })) base = .next t) ∧
    (∃ t, exec (.uplinkCell ({ z with dring := 1, dnode := 5, hops := 3 })) base = .next t) ∧
    (∃ t, exec (.eventCell z) base = .next t) :=
  ⟨next_of (by decide +kernel),
   next_of (by decide +kernel),
   next_of (by decide +kernel),
   next_of (by decide +kernel),
   next_of (by decide +kernel),
   next_of (by decide +kernel),
   next_of (by decide +kernel),
   next_of (by decide +kernel),
   next_of (by decide +kernel),
   next_of (by decide +kernel),
   next_of (by decide +kernel),
   next_of (by decide +kernel),
   next_of (by decide +kernel),
   next_of (by decide +kernel),
   next_of (by decide +kernel),
   next_of (by decide +kernel),
   next_of (by decide +kernel),
   next_of (by decide +kernel),
   next_of (by decide +kernel)⟩

theorem test_witness_TimeAndSwitchFrames :
    (∃ t, exec (.captureEdge 3 true 0) base = .next t) ∧
    (∃ t, exec (.ppsPulse 1) base = .next t) ∧
    (∃ t, exec (.ppsWidthEnd 1) base = .next t) ∧
    (∃ t, exec (.compareFire 0) base = .next t) ∧
    (∃ t, exec (.pdreqSend 1) base = .next t) ∧
    (∃ t, exec (.pdreq 1 ({ z with payload := [0, 7] }) (0x100) (0x200)) base = .next t) ∧
    (∃ t, exec (.pdresp 0 ({ z with payload := [0, 7] }) (0x10000000)) base = .next t) ∧
    (∃ t, exec (.syncTimeout) base = .next t) ∧
    (∃ t, exec (.announceTimeout) base = .next t) ∧
    (∃ t, exec (.launchTime 0 2) base = .next t) ∧
    (∃ t, exec (.shaperRelease 3 0) base = .next t) ∧
    (∃ t, exec (.pause 15 3) base = .next t) ∧
    (∃ t, exec (.priorityPause 15 3 ([1, 0, 0, 0, 0, 0, 0, 0])) base = .next t) ∧
    (∃ t, exec (.pauseExpiry 0 none) base = .next t) ∧
    (∃ t, exec (.edgeLinkUp 16 2 true) base = .next t) ∧
    (∃ t, exec (.gateEntry 2) base = .next t) ∧
    (∃ t, exec (.gateSwap 2) base = .next t) ∧
    (∃ t, exec (.overflowTraining true) base = .next t) ∧
    (∃ t, exec (.ddrRefresh) base = .next t) ∧
    (∃ t, exec (.flowForceTimer) base = .next t) ∧
    (∃ t, exec (.hashWindow) base = .next t) ∧
    (∃ t, exec (.fdbAge 7 9) base = .next t) ∧
    (∃ t, exec (.edgeFrame 15 zf) base = .next t) :=
  ⟨next_of (by decide +kernel),
   next_of (by decide +kernel),
   next_of (by decide +kernel),
   next_of (by decide +kernel),
   next_of (by decide +kernel),
   next_of (by decide +kernel),
   next_of (by decide +kernel),
   next_of (by decide +kernel),
   next_of (by decide +kernel),
   next_of (by decide +kernel),
   next_of (by decide +kernel),
   next_of (by decide +kernel),
   next_of (by decide +kernel),
   next_of (by decide +kernel),
   next_of (by decide +kernel),
   next_of (by decide +kernel),
   next_of (by decide +kernel),
   next_of (by decide +kernel),
   next_of (by decide +kernel),
   next_of (by decide +kernel),
   next_of (by decide +kernel),
   next_of (by decide +kernel),
   next_of (by decide +kernel)⟩

theorem test_witness_WeaverAndCanFrames :
    (∃ t, exec (.halt 127 true) base = .next t) ∧
    (∃ t, exec (.sho 127 true) base = .next t) ∧
    (∃ t, exec (.shi 127 true ([1, 0])) base = .next t) ∧
    (∃ t, exec (.wpin 127 true 0) base = .next t) ∧
    (∃ t, exec (.wflg 127 true) base = .next t) ∧
    (∃ t, exec (.wirq 127 true) base = .next t) ∧
    (∃ t, exec (.wtim 127 true) base = .next t) ∧
    (∃ t, exec (.drv 127 true) base = .next t) ∧
    (∃ t, exec (.take 127 true) base = .next t) ∧
    (∃ t, exec (.give 127 true) base = .next t) ∧
    (∃ t, exec (.stamp 127 true) base = .next t) ∧
    (∃ t, exec (.cnt 127 true []) base = .next t) ∧
    (∃ t, exec (.loop 127 true) base = .next t) ∧
    (∃ t, exec (.br 127 true 0) base = .next t) ∧
    (∃ t, exec (.syncInstruction 127 true) base = .next t) ∧
    (∃ t, exec (.set 127 true) base = .next t) ∧
    (∃ t, exec (.wpinPass 127) base = .next t) ∧
    (∃ t, exec (.wtimPass 127) base = .next t) ∧
    (∃ t, exec (.stallEnd 127) base = .next t) ∧
    (∃ t, exec (.cntPass 127 []) base = .next t) ∧
    (∃ t, exec (.backlogMove 127) base = .next t) ∧
    (∃ t, exec (.weaverAggregatorDrain 127) base = .next t) ∧
    (∃ t, exec (.actFire 127) base = .next t) ∧
    (∃ t, exec (.wflgPass 15) base = .next t) ∧
    (∃ t, exec (.wirqPass 15) base = .next t) ∧
    (∃ t, exec (.syncInstructionPass 15) base = .next t) ∧
    (∃ t, exec (.vioChange 9) base = .next t) ∧
    (∃ t, exec (.autostart) base = .next t) ∧
    (∃ t, exec (.globalStartTime) base = .next t) ∧
    (∃ t, exec (.canIntegrationDone 7) base = .next t) ∧
    (∃ t, exec (.canCommit 7) base = .next t) ∧
    (∃ t, exec (.canLaunchTime 7 2) base = .next t) ∧
    (∃ t, exec (.canLaunchDeadline 7 2) base = .next t) ∧
    (∃ t, exec (.canFrameReceived 7 cf) base = .next t) ∧
    (∃ t, exec (.canError 7 .bit1 true true) base = .next t) ∧
    (∃ t, exec (.canRecoveryDone 7) base = .next t) :=
  ⟨next_of (by decide +kernel),
   next_of (by decide +kernel),
   next_of (by decide +kernel),
   next_of (by decide +kernel),
   next_of (by decide +kernel),
   next_of (by decide +kernel),
   next_of (by decide +kernel),
   next_of (by decide +kernel),
   next_of (by decide +kernel),
   next_of (by decide +kernel),
   next_of (by decide +kernel),
   next_of (by decide +kernel),
   next_of (by decide +kernel),
   next_of (by decide +kernel),
   next_of (by decide +kernel),
   next_of (by decide +kernel),
   next_of (by decide +kernel),
   next_of (by decide +kernel),
   next_of (by decide +kernel),
   next_of (by decide +kernel),
   next_of (by decide +kernel),
   next_of (by decide +kernel),
   next_of (by decide +kernel),
   next_of (by decide +kernel),
   next_of (by decide +kernel),
   next_of (by decide +kernel),
   next_of (by decide +kernel),
   next_of (by decide +kernel),
   next_of (by decide +kernel),
   next_of (by decide +kernel),
   next_of (by decide +kernel),
   next_of (by decide +kernel),
   next_of (by decide +kernel),
   next_of (by decide +kernel),
   next_of (by decide +kernel),
   next_of (by decide +kernel)⟩

theorem test_witness_UsbAndBridgeFrames :
    (∃ t, exec (.usbNotice) base = .next t) ∧
    (∃ t, exec (.usbVbusValid) base = .next t) ∧
    (∃ t, exec (.usbSof 2047) base = .next t) ∧
    (∃ t, exec (.usbSuspend) base = .next t) ∧
    (∃ t, exec (.usbHostResume) base = .next t) ∧
    (∃ t, exec (.usbWakeSource) base = .next t) ∧
    (∃ t, exec (.usbRemoteWake) base = .next t) ∧
    (∃ t, exec (.fieldPower 3 true) base = .next t) ∧
    (∃ t, exec (.fieldConnect 3 ({ vid := 0xFFFF, pid := 2, speed := 1, hub := false, listed := false, hidScanner := false, hidKeyboard := false, cdc := true })) base = .next t) ∧
    (∃ t, exec (.fieldOvercurrent 3) base = .next t) ∧
    (∃ t, exec (.fieldPowerRetry 3) base = .next t) ∧
    (∃ t, exec (.fieldDisconnect 3) base = .next t) ∧
    (∃ t, exec (.fieldData 3 ([65, 66]) false) base = .next t) ∧
    (∃ t, exec (.codeGapTimeout 3) base = .next t) ∧
    (∃ t, exec (.fieldTxDone 3 false) base = .next t) ∧
    (∃ t, exec (.delayedReadResult 3 0 ([1, 2, 3, 4])) base = .next t) ∧
    (∃ t, exec (.delayedReadDiscard 3) base = .next t) ∧
    (∃ t, exec (.lxbLateReady) base = .next t) :=
  ⟨next_of (by decide +kernel),
   next_of (by decide +kernel),
   next_of (by decide +kernel),
   next_of (by decide +kernel),
   next_of (by decide +kernel),
   next_of (by decide +kernel),
   next_of (by decide +kernel),
   next_of (by decide +kernel),
   next_of (by decide +kernel),
   next_of (by decide +kernel),
   next_of (by decide +kernel),
   next_of (by decide +kernel),
   next_of (by decide +kernel),
   next_of (by decide +kernel),
   next_of (by decide +kernel),
   next_of (by decide +kernel),
   next_of (by decide +kernel),
   next_of (by decide +kernel)⟩

theorem test_witness_PowerPathFrames :
    (∃ t, exec (.seatAssert true) base = .next t) ∧
    (∃ t, exec (.seatQualified) base = .next t) ∧
    (∃ t, exec (.seatRelease true false) base = .next t) ∧
    (∃ t, exec (.inletOv) base = .next t) ∧
    (∃ t, exec (.inletUv) base = .next t) ∧
    (∃ t, exec (.rampDone) base = .next t) ∧
    (∃ t, exec (.rampTimeout) base = .next t) ∧
    (∃ t, exec (.faultTimerExpiry) base = .next t) ∧
    (∃ t, exec (.fastTrip) base = .next t) ∧
    (∃ t, exec (.faultTimerIdle) base = .next t) ∧
    (∃ t, exec (.qualTimer) base = .next t) ∧
    (∃ t, exec (.holdupEntry) base = .next t) ∧
    (∃ t, exec (.holdupExit) base = .next t) ∧
    (∃ t, exec (.inletRetry) base = .next t) ∧
    (∃ t, exec (.inletRetryReset) base = .next t) ∧
    (∃ t, exec (.inletLimitExit true false) base = .next t) ∧
    (∃ t, exec (.inletLimitEntry true) base = .next t) ∧
    (∃ t, exec (.inletclrMessage ({ payload := [], bad := false })) base = .next t) ∧
    (∃ t, exec (.branchSample (List.replicate 11 5000)) base = .next t) ∧
    (∃ t, exec (.branchInstantTrip 7 60000) base = .next t) ∧
    (∃ t, exec (.branchStuck 7 1000) base = .next t) ∧
    (∃ t, exec (.branchRetry 7) base = .next t) ∧
    (∃ t, exec (.branchRetryReset 7) base = .next t) ∧
    (∃ t, exec (.pfwAssert) base = .next t) ∧
    (∃ t, exec (.pfwRelease) base = .next t) ∧
    (∃ t, exec (.mateTake ({ payload := [], bad := false })) base = .next t) ∧
    (∃ t, exec (.offer ({ payload := [0x40, 1, 0x80, 2, 0xC0, 3, 0x44, 0, 0, 0, 0, 0, 0x3F, 0xFF, 0x43, 0xFF], bad := false })) base = .next t) ∧
    (∃ t, exec (.branchMessage ({ payload := [7, 0x44, 9], bad := false })) base = .next t) ∧
    (∃ t, exec (.offerTimeout) base = .next t) ∧
    (∃ t, exec (.roleChange) base = .next t) :=
  ⟨next_of (by decide +kernel),
   next_of (by decide +kernel),
   next_of (by decide +kernel),
   next_of (by decide +kernel),
   next_of (by decide +kernel),
   next_of (by decide +kernel),
   next_of (by decide +kernel),
   next_of (by decide +kernel),
   next_of (by decide +kernel),
   next_of (by decide +kernel),
   next_of (by decide +kernel),
   next_of (by decide +kernel),
   next_of (by decide +kernel),
   next_of (by decide +kernel),
   next_of (by decide +kernel),
   next_of (by decide +kernel),
   next_of (by decide +kernel),
   next_of (by decide +kernel),
   next_of (by decide +kernel),
   next_of (by decide +kernel),
   next_of (by decide +kernel),
   next_of (by decide +kernel),
   next_of (by decide +kernel),
   next_of (by decide +kernel),
   next_of (by decide +kernel),
   next_of (by decide +kernel),
   next_of (by decide +kernel),
   next_of (by decide +kernel),
   next_of (by decide +kernel),
   next_of (by decide +kernel)⟩

theorem test_witness_PairAndSupplyFrames :
    (∃ t, exec (.unitResetDone) base = .next t) ∧
    (∃ t, exec (.watchdogRefresh) base = .next t) ∧
    (∃ t, exec (.refclkReturn) base = .next t) ∧
    (∃ t, exec (.railPgLoss) base = .next t) ∧
    (∃ t, exec (.pllRelock 5) base = .next t) ∧
    (∃ t, exec (.paceWindow 1100 7) base = .next t) ∧
    (∃ t, exec (.avsLoop true) base = .next t) ∧
    (∃ t, exec (.avsRetry true) base = .next t) ∧
    (∃ t, exec (.thermalFallback 1300) base = .next t) ∧
    (∃ t, exec (.thermalReturn 1000) base = .next t) ∧
    (∃ t, exec (.mateListenEnd) base = .next t) ∧
    (∃ t, exec (.storeAcquire) base = .next t) ∧
    (∃ t, exec (.ownershipLines false true) base = .next t) ∧
    (∃ t, exec (.storeCheck) base = .next t) ∧
    (∃ t, exec (.heartbeatSend) base = .next t) ∧
    (∃ t, exec (.beaconSend) base = .next t) ∧
    (∃ t, exec (.heartbeat ({ payload := [0, 0, 0, 9, 1, 1, 0, 0], bad := false })) base = .next t) ∧
    (∃ t, exec (.beacon ({ payload := [2, 1, 64, 0, 0, 0, 0, 0], bad := false })) base = .next t) ∧
    (∃ t, exec (.surrender ({ payload := [0, 0, 0, 1], bad := false })) base = .next t) ∧
    (∃ t, exec (.lent ({ payload := [1, 0], bad := false })) base = .next t) ∧
    (∃ t, exec (.heartbeatTimeout) base = .next t) ∧
    (∃ t, exec (.mateTimeout) base = .next t) ∧
    (∃ t, exec (.checkpointIncremental) base = .next t) ∧
    (∃ t, exec (.checkpointFull) base = .next t) ∧
    (∃ t, exec (.lend ({ payload := [], bad := false })) base = .next t) ∧
    (∃ t, exec (.back ({ payload := [], bad := false })) base = .next t) ∧
    (∃ t, exec (.lendWindowEnd) base = .next t) ∧
    (∃ t, exec (.provingRun none (some 5)) base = .next t) ∧
    (∃ t, exec (.verifyingRun (some { StoreSt.init with fitted := true }) (some 63)) base = .next t) ∧
    (∃ t, exec (.tallyStoreWrite true) base = .next t) ∧
    (∃ t, exec (.quietTimeout) base = .next t) ∧
    (∃ t, exec (.trialEnd) base = .next t) ∧
    (∃ t, exec (.shelfWrite 3 true) base = .next t) ∧
    (∃ t, exec (.debugTimeout) base = .next t) ∧
    (∃ t, exec (.jtagInstruction .bypass) base = .next t) :=
  ⟨next_of (by decide +kernel),
   next_of (by decide +kernel),
   next_of (by decide +kernel),
   next_of (by decide +kernel),
   next_of (by decide +kernel),
   next_of (by decide +kernel),
   next_of (by decide +kernel),
   next_of (by decide +kernel),
   next_of (by decide +kernel),
   next_of (by decide +kernel),
   next_of (by decide +kernel),
   next_of (by decide +kernel),
   next_of (by decide +kernel),
   next_of (by decide +kernel),
   next_of (by decide +kernel),
   next_of (by decide +kernel),
   next_of (by decide +kernel),
   next_of (by decide +kernel),
   next_of (by decide +kernel),
   next_of (by decide +kernel),
   next_of (by decide +kernel),
   next_of (by decide +kernel),
   next_of (by decide +kernel),
   next_of (by decide +kernel),
   next_of (by decide +kernel),
   next_of (by decide +kernel),
   next_of (by decide +kernel),
   next_of (by decide +kernel),
   next_of (by decide +kernel),
   next_of (by decide +kernel),
   next_of (by decide +kernel),
   next_of (by decide +kernel),
   next_of (by decide +kernel),
   next_of (by decide +kernel),
   next_of (by decide +kernel)⟩

theorem test_witness_RegisterRowFrames :
    (∃ t, exec (.enumStart (.mc0)) base = .next t) ∧
    (∃ t, exec (.reportPop (.mc0)) base = .next t) ∧
    (∃ t, exec (.tallyHeadRead (.mc0)) base = .next t) ∧
    (∃ t, exec (.timeReadLatch (.mc0) true) base = .next t) ∧
    (∃ t, exec (.snap (.mc0)) base = .next t) ∧
    (∃ t, exec (.i2cTransfer (.mc0) 0 (0x7F) true true 3) base = .next t) ∧
    (∃ t, exec (.hashSwitch (.mc0) 2) base = .next t) ∧
    (∃ t, exec (.fdbAddStatic (.mc0)) base = .next t) ∧
    (∃ t, exec (.fdbDelete (.mc0)) base = .next t) ∧
    (∃ t, exec (.fdbLookup (.mc0)) base = .next t) ∧
    (∃ t, exec (.fdbFlushDynamic (.mc0)) base = .next t) ∧
    (∃ t, exec (.fdbFlushAll (.mc0)) base = .next t) ∧
    (∃ t, exec (.gateArm (.mc0) 2 true) base = .next t) ∧
    (∃ t, exec (.gateDisarm (.mc0) 2) base = .next t) ∧
    (∃ t, exec (.gateOff (.mc0) 2) base = .next t) ∧
    (∃ t, exec (.txStampPop (.mc0) 2) base = .next t) ∧
    (∃ t, exec (.capturePop (.mc0) 3) base = .next t) ∧
    (∃ t, exec (.compareArm (.mc0) 31) base = .next t) ∧
    (∃ t, exec (.compareDisarm (.mc0) 31) base = .next t) ∧
    (∃ t, exec (.weaverStart (.mc0) 127) base = .next t) ∧
    (∃ t, exec (.weaverStop (.mc0) 127) base = .next t) ∧
    (∃ t, exec (.txPush (.mc0) 127 (0xFFFFFFFF)) base = .next t) ∧
    (∃ t, exec (.rxPop (.mc0) 127) base = .next t) ∧
    (∃ t, exec (.basketStart (.mc0) 15 (0x81)) base = .next t) ∧
    (∃ t, exec (.basketStop (.mc0) 15 (0x81)) base = .next t) ∧
    (∃ t, exec (.clockRestart (.mc0) 15 (0x80)) base = .next t) ∧
    (∃ t, exec (.flagSet (.mc0) 15 (0x8000)) base = .next t) ∧
    (∃ t, exec (.flagClear (.mc0) 15 (0x8000)) base = .next t) ∧
    (∃ t, exec (.irqRaise (.mc0) 15 8) base = .next t) ∧
    (∃ t, exec (.globalGo (.mc0)) base = .next t) ∧
    (∃ t, exec (.globalArm (.mc0)) base = .next t) ∧
    (∃ t, exec (.globalDisarm (.mc0)) base = .next t) ∧
    (∃ t, exec (.globalStop (.mc0)) base = .next t) ∧
    (∃ t, exec (.canInit (.mc0) 7) base = .next t) ∧
    (∃ t, exec (.canInitRelease (.mc0) 7) base = .next t) ∧
    (∃ t, exec (.canRecover (.mc0) 7) base = .next t) ∧
    (∃ t, exec (.canRxAck (.mc0) 7 64) base = .next t) ∧
    (∃ t, exec (.canTxRequest (.mc0) 7 5) base = .next t) ∧
    (∃ t, exec (.canTxCancel (.mc0) 7 5) base = .next t) ∧
    (∃ t, exec (.eventPush (.mc0) (0xFFFFFFFF)) base = .next t) ∧
    (∃ t, exec (.eventPop (.s) true) base = .next t) ∧
    (∃ t, exec (.eqMarksWrite (.mc0) 8 2) base = .next t) ∧
    (∃ t, exec (.branchOn (.mc0) 7 true) base = .next t) ∧
    (∃ t, exec (.loadcurve (.mc0) 7) base = .next t) ∧
    (∃ t, exec (.portDisable (.mc0) 3) base = .next t) ∧
    (∃ t, exec (.speedModeWrite (.mc0) 0) base = .next t) ∧
    (∃ t, exec (.frameSubmit (.mc0) 0) base = .next t) ∧
    (∃ t, exec (.lineCodingWrite (.mc0) 3 9600 1) base = .next t) ∧
    (∃ t, exec (.fieldTxGo (.mc0) 3 64) base = .next t) :=
  ⟨next_of (by decide +kernel),
   next_of (by decide +kernel),
   next_of (by decide +kernel),
   next_of (by decide +kernel),
   next_of (by decide +kernel),
   next_of (by decide +kernel),
   next_of (by decide +kernel),
   next_of (by decide +kernel),
   next_of (by decide +kernel),
   next_of (by decide +kernel),
   next_of (by decide +kernel),
   next_of (by decide +kernel),
   next_of (by decide +kernel),
   next_of (by decide +kernel),
   next_of (by decide +kernel),
   next_of (by decide +kernel),
   next_of (by decide +kernel),
   next_of (by decide +kernel),
   next_of (by decide +kernel),
   next_of (by decide +kernel),
   next_of (by decide +kernel),
   next_of (by decide +kernel),
   next_of (by decide +kernel),
   next_of (by decide +kernel),
   next_of (by decide +kernel),
   next_of (by decide +kernel),
   next_of (by decide +kernel),
   next_of (by decide +kernel),
   next_of (by decide +kernel),
   next_of (by decide +kernel),
   next_of (by decide +kernel),
   next_of (by decide +kernel),
   next_of (by decide +kernel),
   next_of (by decide +kernel),
   next_of (by decide +kernel),
   next_of (by decide +kernel),
   next_of (by decide +kernel),
   next_of (by decide +kernel),
   next_of (by decide +kernel),
   next_of (by decide +kernel),
   next_of (by decide +kernel),
   next_of (by decide +kernel),
   next_of (by decide +kernel),
   next_of (by decide +kernel),
   next_of (by decide +kernel),
   next_of (by decide +kernel),
   next_of (by decide +kernel),
   next_of (by decide +kernel),
   next_of (by decide +kernel)⟩

theorem test_witness_CellAndFrameFrames :
    (∃ t, exec (.greetTimeout 1) base = .next t) ∧
    (∃ t, exec (.keepaliveTimeout 1) base = .next t) ∧
    (∃ t, exec (.linkFaultDetected 2 (.highBer)) base = .next t) ∧
    (∃ t, exec (.linkdown 0) base = .next t) ∧
    (∃ t, exec (.hello 0 ({ z with payload := [BitVec.ofNat 8 (facing 0), 2] ++ List.replicate 10 7 })) base = .next t) ∧
    (∃ t, exec (.cellHeader (0 : Fin 2).castSucc (0x36000000) 0 0 0 0 ((cellOfWords 0x36000000 0 0 0 0 0).hec.zeroExtend 32)) base = .next t) ∧
    (∃ t, exec (.cellTrailer 1 ([7, 8]) (({ z with len := 2, payload := [7, 8] } : Cell).trailer) false 3 1) base = .next t) ∧
    (∃ t, exec (.tunnelledFrame 0 ({ z with payload := [2, 0, 0, 0, 0, 1, 2, 0, 0, 0, 0, 2, 0x81, 0, 0, 7, 8, 0, 1, 2] })) base = .next t) ∧
    (∃ t, exec (.moduleSignal 0 true true false) base = .next t) ∧
    (∃ t, exec (.cellBoundary 0 .good) base = .next t) ∧
    (∃ t, exec (.enumPeriod) base = .next t) ∧
    (∃ t, exec (.postable 1 ({ z with len := 10, payload := [0, 7, 0, 0, 0, 1, 0, 3, 0, 5] })) base = .next t) ∧
    (∃ t, exec (.enumerate 1 ({ z with sring := 3, payload := [0, 7, 0, 9] })) base = .next t) ∧
    (∃ t, exec (.report ({ z with payload := [1] })) base = .next t) ∧
    (∃ t, exec (.assigned ({ z with payload := [0, 0, 0, 0, 0, 0, 0, 5, 0, 0, 0, 33] })) base = .next t) ∧
    (∃ t, exec (.postableTimer) base = .next t) ∧
    (∃ t, exec (.slathBeat 26 1 ([1]) true) base = .next t) ∧
    (∃ t, exec (.edgeFrameEnd 0 (List.replicate 60 0) true false false) base = .next t) ∧
    (∃ t, exec (.pauseRepeat 0) base = .next t) ∧
    (∃ t, exec (.overflowReadback 4 2 false) base = .next t) ∧
    (∃ t, exec (.hashSwitchComplete 0) base = .next t) ∧
    (∃ t, exec (.edgeLinkDown 1) base = .next t) ∧
    (∃ t, exec (.portHoldTimeout 16) base = .next t) ∧
    (∃ t, exec (.unsendableTimeout 1 7) base = .next t) ∧
    (∃ t, exec (.egressFrameBoundary 1 false) base = .next t) ∧
    (∃ t, exec (.frameSent 1 false) base = .next t) ∧
    (∃ t, exec (.launchDeadline 0 2) base = .next t) ∧
    (∃ t, exec (.gateListBootStart) base = .next t) ∧
    (∃ t, exec (.syncSend) base = .next t) ∧
    (∃ t, exec (.act ({ z with sring := 1, snode := 9, len := 20, payload := [0, 0, 0, 5, 0, 0, 0, 7, 0, 1, 0, 0, 127, 1, 3, 3, 9, 8, 0, 0] })) base = .next t) ∧
    (∃ t, exec (.cancel ({ z with sring := 1, snode := 9, len := 4, payload := [127, 0, 0, 78] })) base = .next t) ∧
    (∃ t, exec (.canAttemptEnd 7 (.error) none) base = .next t) ∧
    (∃ t, exec (.rdata ({ z with sring := 1, snode := 9, seq := 7 })) base = .next t) ∧
    (∃ t, exec (.wdone ({ z with sring := 1, snode := 9, seq := 7, op := 1 })) base = .next t) ∧
    (∃ t, exec (.ack ({ z with sring := 1, snode := 9, seq := 7, op := 2 })) base = .next t) ∧
    (∃ t, exec (.atomic ({ z with sring := 1, snode := 9, seq := 7, op := 3 })) base = .next t) ∧
    (∃ t, exec (.skipped ({ z with sring := 1, snode := 9, seq := 7, op := 10 })) base = .next t) ∧
    (∃ t, exec (.synced ({ z with sring := 1, snode := 9, seq := 4 })) base = .next t) ∧
    (∃ t, exec (.nosync ({ z with sring := 1, snode := 9, seq := 4 })) base = .next t) ∧
    (∃ t, exec (.responseTimeout 0) base = .next t) :=
  ⟨next_of (by decide +kernel),
   next_of (by decide +kernel),
   next_of (by decide +kernel),
   next_of (by decide +kernel),
   next_of (by decide +kernel),
   next_of (by decide +kernel),
   next_of (by decide +kernel),
   next_of (by decide +kernel),
   next_of (by decide +kernel),
   next_of (by decide +kernel),
   next_of (by decide +kernel),
   next_of (by decide +kernel),
   next_of (by decide +kernel),
   next_of (by decide +kernel),
   next_of (by decide +kernel),
   next_of (by decide +kernel),
   next_of (by decide +kernel),
   next_of (by decide +kernel),
   next_of (by decide +kernel),
   next_of (by decide +kernel),
   next_of (by decide +kernel),
   next_of (by decide +kernel),
   next_of (by decide +kernel),
   next_of (by decide +kernel),
   next_of (by decide +kernel),
   next_of (by decide +kernel),
   next_of (by decide +kernel),
   next_of (by decide +kernel),
   next_of (by decide +kernel),
   next_of (by decide +kernel),
   next_of (by decide +kernel),
   next_of (by decide +kernel),
   next_of (by decide +kernel),
   next_of (by decide +kernel),
   next_of (by decide +kernel),
   next_of (by decide +kernel),
   next_of (by decide +kernel),
   next_of (by decide +kernel),
   next_of (by decide +kernel),
   next_of (by decide +kernel)⟩

theorem test_witness_ResetAndCommandFrames :
    (∃ t, exec (.resetN) base = .next t) ∧
    (∃ t, exec (.testN true) base = .next t) ∧
    (∃ t, exec (.refclkLoss) base = .next t) ∧
    (∃ t, exec (.coreStop) base = .next t) ∧
    (∃ t, exec (.railPg 2) base = .next t) ∧
    (∃ t, exec (.watchdogExpiry) base = .next t) ∧
    (∃ t, exec (.sramParity true) base = .next t) ∧
    (∃ t, exec (.ringReset (.mc0) (0x57525354)) base = .next t) ∧
    (∃ t, exec (.checkpointWritten true) base = .next t) ∧
    (∃ t, exec (.coreStart) base = .next t) ∧
    (∃ t, exec (.seqRetry) base = .next t) ∧
    (∃ t, exec (.seqTimeout) base = .next t) ∧
    (∃ t, exec (.pllsLocked) base = .next t) ∧
    (∃ t, exec (.pllLoss 1) base = .next t) ∧
    (∃ t, exec (.canReset (.mc0) (0x81)) base = .next t) ∧
    (∃ t, exec (.fieldhubReset (.mc0)) base = .next t) ∧
    (∃ t, exec (.svcReset (.mc0)) base = .next t) ∧
    (∃ t, exec (.bridgeReset (.mc0)) base = .next t) ∧
    (∃ t, exec (.timeReset (.mc0)) base = .next t) ∧
    (∃ t, exec (.uplinkReset (.mc0)) base = .next t) ∧
    (∃ t, exec (.basketReset (.mc0) (0x8001)) base = .next t) ∧
    (∃ t, exec (.edgeReset (.mc0) (0x8001)) base = .next t) ∧
    (∃ t, exec (.timeStep (.mc0)) base = .next t) ∧
    (∃ t, exec (.timeSync 0 ({ z with sring := 1, payload := List.replicate 32 0 }) 0 0) base = .next t) ∧
    (∃ t, exec (.gmOffset 0 (0x100)) base = .next t) ∧
    (∃ t, exec (.portEnable (.mc0) 0 true) base = .next t) ∧
    (∃ t, exec (.retrain (.mc0) 1) base = .next t) ∧
    (∃ t, exec (.finalCheckpointDone true) base = .next t) ∧
    (∃ t, exec (.mfwBoot) base = .next t) ∧
    (∃ t, exec (.mc1Watchdog) base = .next t) ∧
    (∃ t, exec (.udsReconnect) base = .next t) ∧
    (∃ t, exec (.sdmNextLink) base = .next t) ∧
    (∃ t, exec (.usbVbusLoss) base = .next t) ∧
    (∃ t, exec (.usbBusReset true none) base = .next t) ∧
    (∃ t, exec (.nop (.mc0) 5 (ar 0 0 0 0)) base = .next t) ∧
    (∃ t, exec (.mark (.s) 5 (ar 0x1234ABCD 1 0 0)) base = .next t) ∧
    (∃ t, exec (.inletclr (.mc0) 5 (ar 0 0 0 0)) base = .next t) ∧
    (∃ t, exec (.revokekey (.mc0) 5 (ar 1 0 0 0)) base = .next t) ∧
    (∃ t, exec (.debugunlock (.mc0) 5 (ar 1440 0 0 0)) base = .next t) ∧
    (∃ t, exec (.debuglock (.mc0) 5 (ar 0 0 0 0)) base = .next t) ∧
    (∃ t, exec (.tlfetch (.mc0) 5 (ar 2 0 256 0)) base = .next t) ∧
    (∃ t, exec (.checkpoint (.mc0) 5 (ar 0 0 0 0)) base = .next t) ∧
    (∃ t, exec (.yield (.mc0) 5 (ar 0 0 0 0)) base = .next t) ∧
    (∃ t, exec (.fwbegin (.s) 5 (ar 1 4194304 0 0)) base = .next t) ∧
    (∃ t, exec (.fwblock (.s) 5 (ar 0 0 0 0) true) base = .next t) ∧
    (∃ t, exec (.fwverify (.s) 5 (ar 0 0 0 0)) base = .next t) ∧
    (∃ t, exec (.fwabort (.s) 5 (ar 0 0 0 0)) base = .next t) :=
  ⟨next_of (by decide +kernel),
   next_of (by decide +kernel),
   next_of (by decide +kernel),
   next_of (by decide +kernel),
   next_of (by decide +kernel),
   next_of (by decide +kernel),
   next_of (by decide +kernel),
   next_of (by decide +kernel),
   next_of (by decide +kernel),
   next_of (by decide +kernel),
   next_of (by decide +kernel),
   next_of (by decide +kernel),
   next_of (by decide +kernel),
   next_of (by decide +kernel),
   next_of (by decide +kernel),
   next_of (by decide +kernel),
   next_of (by decide +kernel),
   next_of (by decide +kernel),
   next_of (by decide +kernel),
   next_of (by decide +kernel),
   next_of (by decide +kernel),
   next_of (by decide +kernel),
   next_of (by decide +kernel),
   next_of (by decide +kernel),
   next_of (by decide +kernel),
   next_of (by decide +kernel),
   next_of (by decide +kernel),
   next_of (by decide +kernel),
   next_of (by decide +kernel),
   next_of (by decide +kernel),
   next_of (by decide +kernel),
   next_of (by decide +kernel),
   next_of (by decide +kernel),
   next_of (by decide +kernel),
   next_of (by decide +kernel),
   next_of (by decide +kernel),
   next_of (by decide +kernel),
   next_of (by decide +kernel),
   next_of (by decide +kernel),
   next_of (by decide +kernel),
   next_of (by decide +kernel),
   next_of (by decide +kernel),
   next_of (by decide +kernel),
   next_of (by decide +kernel),
   next_of (by decide +kernel),
   next_of (by decide +kernel),
   next_of (by decide +kernel)⟩

end Sys2Proof.Tests
end

section
/-! SUPPORT. What the actions behind the registers keep: the commands that wait, the answers among what has left, and soundness. One lemma for
each operation, in the order in which the model builds them; a chain of operations is the chain of their lemmas. -/

set_option autoImplicit false

namespace Sys2Proof.Machine

/-! ### The relation -/

/-- An answer to a source of accesses. -/
def Out.isAnswer : Out → Bool
  | .answer .. => true
  | _ => false

/-- From s to t: the same commands wait, the outputs that `A` names are the same, and soundness is kept. With every output named, nothing has
left; with answers named, outputs of other kinds may have. -/
structure Keeps (A : Out → Bool) (s t : State) : Prop where
  pending : t.pending = s.pending
  outputs : t.out.filter A = s.out.filter A
  sound : s.Sound → t.Sound

section Generic

variable {A : Out → Bool} {s t u : State}

theorem Keeps.refl (s : State) : Keeps A s s := ⟨rfl, rfl, id⟩

theorem Keeps.trans (h : Keeps A s t) (g : Keeps A t u) : Keeps A s u :=
  ⟨g.pending.trans h.pending, g.outputs.trans h.outputs, fun w => g.sound (h.sound w)⟩

theorem Keeps.ite {c : Prop} [Decidable c] (h : Keeps A s t) (g : Keeps A s u) : Keeps A s (if c then t else u) := by
  split
  · exact h
  · exact g

/-- A step that may be left out. -/
theorem Keeps.may {c : Prop} [Decidable c] (h : Keeps A s t) (g : Keeps A t u) : Keeps A s (if c then u else t) := (h.trans g).ite h

/-- Where every output is named, nothing has left. -/
theorem Keeps.out (h : Keeps (fun _ => true) s t) : t.out = s.out := by
  have whole (os : List Out) : os.filter (fun _ => true) = os := List.filter_eq_self.mpr fun _ _ => rfl
  have e := h.outputs
  rwa [whole, whole] at e

/-- Where answers are named, none is lost. -/
theorem Keeps.answer_mem (h : Keeps Out.isAnswer s t) {src : Src} {st : Status} {d : List Byte} (m : .answer src st d ∈ s.out) :
    .answer src st d ∈ t.out := by
  have e : Out.answer src st d ∈ t.out.filter Out.isAnswer := h.outputs ▸ List.mem_filter.mpr ⟨m, rfl⟩
  exact (List.mem_filter.mp e).1

/-! ### Registers, ticks, walks -/

/-- A new register table in the canonical form. -/
theorem Keeps.regs (h : Keeps A s t) {r : Tbl Word} (w : Tbl.wf regReset t.regs = true → Tbl.wf regReset r = true) :
    Keeps A s { t with regs := r } :=
  h.trans ⟨rfl, rfl, fun hs => ⟨w hs.1, hs.2⟩⟩

theorem Keeps.setReg (h : Keeps A s t) {k : Nat} {v : Word} : Keeps A s (t.setReg k v) := h.regs (t.setReg_wf k v)

theorem Keeps.wr (h : Keeps A s t) {f : Fld} {v : Nat} : Keeps A s (t.wr f v) := h.setReg

theorem Keeps.bumpBy (h : Keeps A s t) {f : Fld} {n : Nat} : Keeps A s (t.bumpBy f n) := h.wr

theorem Keeps.bump (h : Keeps A s t) {f : Fld} : Keeps A s (t.bump f) := h.bumpBy

theorem Keeps.peak (h : Keeps A s t) {f : Fld} {v : Nat} : Keeps A s (t.peak f v) := h.wr.ite h

theorem Keeps.used (h : Keeps A s t) : Keeps A s t.used := h.trans ⟨rfl, rfl, id⟩

theorem Keeps.ticks (h : Keeps A s t) {n : Nat} : Keeps A s (t.ticks n) := h.trans ⟨rfl, rfl, id⟩

theorem Keeps.setLink (h : Keeps A s t) {p : Nat} {l : LinkSt} : Keeps A s (t.setLink p l) := h.trans ⟨rfl, rfl, id⟩

theorem Keeps.setOut (h : Keeps A s t) {n : Nat} {x : OutSt} : Keeps A s (t.setOut n x) := h.trans ⟨rfl, rfl, id⟩

theorem Keeps.setWv (h : Keeps A s t) {n : Nat} {w : WvSt} : Keeps A s (t.setWv n w) := h.trans ⟨rfl, rfl, id⟩

theorem Keeps.setCan (h : Keeps A s t) {k : Nat} {c : CanSt} : Keeps A s (t.setCan k c) := h.trans ⟨rfl, rfl, id⟩

theorem Keeps.setField (h : Keeps A s t) {n : Nat} {f : FieldSt} : Keeps A s (t.setField n f) := h.trans ⟨rfl, rfl, id⟩

theorem Keeps.when (h : Keeps A s t) {b : Bool} {f : State → State} (hf : Keeps A t (f t)) : Keeps A s (t.when b f) := (h.trans hf).ite h

theorem Keeps.eachUnit (h : Keeps A s t) {f : State → Nat → State} (hf : ∀ t k, Keeps A t (f t k)) {ks : List Nat} :
    Keeps A s (t.eachUnit f ks) := by
  induction ks generalizing t with
  | nil => exact h
  | cons k ks ih => exact ih (h.trans (hf t k))

theorem Keeps.eachLane (h : Keeps A s t) {f : State → Nat → State} (hf : ∀ t k, Keeps A t (f t k)) {ks : List Nat} :
    Keeps A s (t.eachLane f ks) := by
  induction ks generalizing t with
  | nil => exact h
  | cons k ks ih => exact ih (h.trans (hf t k))

theorem Keeps.eachTb (h : Keeps A s t) {f : State → Nat → State} (hf : ∀ t k, Keeps A t (f t k)) {m : Nat} {ks : List Nat} :
    Keeps A s (t.eachTb f m ks) := by
  induction ks generalizing t with
  | nil => exact h
  | cons k ks ih => exact ih ((h.trans (hf t k)).ite h)

theorem Keeps.foldl (h : Keeps A s t) {f : State → Nat → State} (hf : ∀ t k, Keeps A t (f t k)) {ks : List Nat} :
    Keeps A s (ks.foldl f t) := by
  induction ks generalizing t with
  | nil => exact h
  | cons k ks ih => exact ih (h.trans (hf t k))

/-! ### Events, notices, the tally (R324, R342, R348, R440) -/

theorem Keeps.eqSync (h : Keeps A s t) : Keeps A s t.eqSync := h.wr.wr.wr.wr.peak

/-- The event queue takes other contents within its bound. -/
theorem Keeps.setEq (h : Keeps A s t) {e : EqSt} (b : t.Sound → e.entries.length ≤ 4096) : Keeps A s { t with eq := e } :=
  h.trans ⟨rfl, rfl, fun hs => ⟨hs.1, b hs, hs.2.2⟩⟩

/-- An entry joins where there is room. -/
theorem Keeps.eqPut (h : Keeps A s t) {src : Nat} {w0 w2 w3 : Word} (room : t.eq.entries.length < 4096) :
    Keeps A s (t.eqPut src w0 w2 w3) := by
  obtain ⟨r, e, hre⟩ := t.eqPut_only src w0 w2 w3
  have len := t.eqPut_length src w0 w2 w3
  have wf : Tbl.wf regReset t.regs = true → Tbl.wf regReset (t.eqPut src w0 w2 w3).regs = true := fun w =>
    State.eqSync_wf _ ((State.regs_with_eq _ _).symm ▸ t.bumpIf_wf _ _ w)
  rw [hre] at len wf ⊢
  exact h.trans ⟨rfl, rfl, fun ⟨hw, _, hn⟩ => ⟨wf hw, by simp only [len]; omega, hn⟩⟩

theorem Keeps.admitEntry (h : Keeps A s t) {pri src code detail w2 w3 : Nat} : Keeps A s (t.admitEntry pri src code detail w2 w3) := by
  unfold State.admitEntry
  split
  next room => exact h.eqPut room
  next => exact h.bump.wr

theorem Keeps.event (h : Keeps A s t) {src code detail w2 w3 : Nat} : Keeps A s (t.event src code detail w2 w3) := h.admitEntry

theorem Keeps.ringEvent (h : Keeps A s t) {code detail w2 w3 : Nat} : Keeps A s (t.ringEvent code detail w2 w3) := h.event

theorem Keeps.timeEvent (h : Keeps A s t) {code detail w2 w3 : Nat} : Keeps A s (t.timeEvent code detail w2 w3) := h.event

theorem Keeps.poolEvent (h : Keeps A s t) {code detail w2 w3 : Nat} : Keeps A s (t.poolEvent code detail w2 w3) := h.event

theorem Keeps.mgmtEvent (h : Keeps A s t) {code detail w2 w3 : Nat} : Keeps A s (t.mgmtEvent code detail w2 w3) := h.event

/-- Other notices wait, within their bound. -/
theorem Keeps.setNotices (h : Keeps A s t) {x : UsbSt} (b : t.Sound → x.notices.length ≤ 32) : Keeps A s { t with usb := x } :=
  h.trans ⟨rfl, rfl, fun hs => ⟨hs.1, hs.2.1, b hs, hs.2.2.2⟩⟩

theorem Keeps.notice (h : Keeps A s t) {kind num : Nat} : Keeps A s (t.notice kind num) := by
  unfold State.notice
  have hw : Keeps A s (if t.rd F.US_SSTAT_STATE = 5 && (kind == 1 || kind == 2) then t.wr F.US_WAKE_PEND 1 else t) := h.wr.ite h
  revert hw
  generalize (if t.rd F.US_SSTAT_STATE = 5 && (kind == 1 || kind == 2) then t.wr F.US_WAKE_PEND 1 else t) = x
  intro hw
  dsimp only
  split
  · split
    next room => exact hw.setNotices fun _ => by simp only [List.length_append, List.length_cons, List.length_nil]; omega
    next => exact hw.bump
  · exact hw

theorem Keeps.reserveSeq (h : Keeps A s t) : Keeps A s t.reserveSeq := Keeps.ite (h.trans ⟨rfl, rfl, id⟩) h

/-- Management takes another state, with the tally within its bound. -/
theorem Keeps.setMg (h : Keeps A s t) {m : MgSt} (b : t.Sound → m.tally.length ≤ 1024) : Keeps A s { t with mg := m } :=
  h.trans ⟨rfl, rfl, fun hs => ⟨hs.1, hs.2.1, hs.2.2.1, b hs⟩⟩

theorem Keeps.tallyAdd (h : Keeps A s t) {src : Src} {code result flags digest detail : Nat} :
    Keeps A s (t.tallyAdd src code result flags digest detail) := by
  unfold State.tallyAdd
  refine h.ite ?_
  dsimp only
  exact ((h.reserveSeq.setMg fun _ => List.length_take_le _ _).mgmtEvent.notice).ite (h.reserveSeq.setMg fun _ => List.length_take_le _ _)

theorem Keeps.tallyInternal (h : Keeps A s t) {src : Src} {code result : Nat} {urgent : Bool} {digest detail : Nat} :
    Keeps A s (t.tallyInternal src code result urgent digest detail) := h.tallyAdd

end Generic

end Sys2Proof.Machine
end

section
/-! SUPPORT. Settling a weaver: what a paced instruction has done by now takes place (R263, R286, R293). -/

set_option autoImplicit false

namespace Sys2Proof.Machine

/-- t is s but for the weavers' own state and, in canonical form, for WVn_SHIFT and WVn_SHCNT of weaver n. -/
structure WvMoves (n : Nat) (s t : State) : Prop where
  only : ∃ r w, t = { s with regs := r, wv := w }
  reg : ∀ k, k ≠ (F.WVn_SHIFT_SH n).key → k ≠ (F.WVn_SHCNT_COUNT n).key → t.reg k = s.reg k
  wf : Tbl.wf regReset s.regs = true → Tbl.wf regReset t.regs = true

section Moves

variable {n : Nat} {s t u : State}

theorem WvMoves.refl (n : Nat) (s : State) : WvMoves n s s := ⟨⟨s.regs, s.wv, rfl⟩, fun _ _ _ => rfl, id⟩

theorem WvMoves.trans (h : WvMoves n s t) (g : WvMoves n t u) : WvMoves n s u := by
  obtain ⟨⟨r, w, rfl⟩, hr, hw⟩ := h
  obtain ⟨⟨r', w', rfl⟩, gr, gw⟩ := g
  exact ⟨⟨r', w', rfl⟩, fun k h1 h2 => (gr k h1 h2).trans (hr k h1 h2), fun x => gw (hw x)⟩

theorem WvMoves.ite {c : Prop} [Decidable c] (h : WvMoves n s t) (g : WvMoves n s u) : WvMoves n s (if c then t else u) := by
  split
  · exact h
  · exact g

/-- A step that may be left out. -/
theorem WvMoves.may {c : Prop} [Decidable c] (h : WvMoves n s t) (g : WvMoves n t u) : WvMoves n s (if c then u else t) :=
  (h.trans g).ite h

theorem WvMoves.keeps {A : Out → Bool} (h : WvMoves n s t) : Keeps A s t := by
  obtain ⟨⟨r, w, rfl⟩, -, hw⟩ := h
  exact ⟨rfl, rfl, fun hs => ⟨hw hs.1, hs.2⟩⟩

theorem WvMoves.setWv (h : WvMoves n s t) {m : Nat} {w : WvSt} : WvMoves n s (t.setWv m w) :=
  h.trans ⟨⟨_, _, rfl⟩, fun _ _ _ => rfl, id⟩

/-- A group leaves or enters: the shift register and its count change. -/
theorem WvMoves.shift (h : WvMoves n s t) {a b : Nat} : WvMoves n s ((t.wr (F.WVn_SHIFT_SH n) a).wr (F.WVn_SHCNT_COUNT n) b) :=
  h.trans ⟨⟨_, _, rfl⟩, fun _ h1 h2 => (State.reg_wr_other _ _ _ h2).trans (State.reg_wr_other _ _ _ h1),
    fun w => State.wr_wf _ _ _ (State.wr_wf _ _ _ w)⟩

theorem WvMoves.laneTo (h : WvMoves n s t) {m l tick : Nat} {en lvl ever : Bool} : WvMoves n s (t.laneTo m l tick en lvl ever) := h.setWv

theorem WvMoves.lanePut (h : WvMoves n s t) {l tick : Nat} {v : Bool} : WvMoves n s (t.lanePut n l tick v) := h.laneTo.ite h

theorem WvMoves.laneEnable (h : WvMoves n s t) {l tick : Nat} : WvMoves n s (t.laneEnable n l tick) := h.laneTo.ite h

theorem WvMoves.laneFloat (h : WvMoves n s t) {l tick : Nat} : WvMoves n s (t.laneFloat n l tick) := h.laneTo.ite h

theorem WvMoves.drvLane (h : WvMoves n s t) {value oe tick l : Nat} : WvMoves n s (t.drvLane n value oe tick l) :=
  h.lanePut.ite h.laneFloat

/-- A walk over lanes moves what its steps move. -/
theorem WvMoves.eachLane (h : WvMoves n s t) {f : State → Nat → State} (hf : ∀ t l, WvMoves n t (f t l)) {ls : List Nat} :
    WvMoves n s (t.eachLane f ls) := by
  induction ls generalizing t with
  | nil => exact h
  | cons l ls ih => exact ih (h.trans (hf t l))

theorem WvMoves.driveGroup (h : WvMoves n s t) {g tick : Nat} {ls : List Nat} {k : Nat} : WvMoves n s (t.driveGroup n g tick ls k) := by
  induction ls generalizing t k with
  | nil => exact h
  | cons l ls ih => exact ih h.lanePut

theorem WvMoves.shoGroup (h : WvMoves n s t) {word tick : Nat} : WvMoves n s (t.shoGroup n word tick) := h.driveGroup.shift

theorem WvMoves.shiGroup (h : WvMoves n s t) {word j balls : Nat} : WvMoves n s (t.shiGroup n word j balls) := h.shift

theorem WvMoves.sampleNext (h : WvMoves n s t) : WvMoves n s (t.sampleNext n) := by
  unfold State.sampleNext
  split
  · exact h
  · exact h.shiGroup.setWv.ite h

theorem WvMoves.clockRise (h : WvMoves n s t) {x : Nat} : WvMoves n s (t.clockRise n x) := by
  unfold State.clockRise
  split
  · exact h
  · exact (h.eachLane fun t l => (WvMoves.refl n t).lanePut).setWv.sampleNext.ite h

theorem WvMoves.bitBegin (h : WvMoves n s t) {i tick : Nat} : WvMoves n s (t.bitBegin n i tick) := by
  unfold State.bitBegin
  split
  · exact h
  · have low := fun (t : State) l => (WvMoves.refl n t).lanePut (l := l) (tick := tick) (v := false)
    have enabled := fun (t : State) l => (WvMoves.refl n t).laneEnable (l := l) (tick := tick)
    exact (((h.clockRise.driveGroup.eachLane low).eachLane enabled).may (WvMoves.refl n _).shoGroup).setWv.ite h

theorem WvMoves.bitsBegin (h : WvMoves n s t) {b : WvBusy} {k i : Nat} : WvMoves n s (t.bitsBegin n b k i) := by
  induction k generalizing t i with
  | zero => exact h
  | succ k ih => exact ih h.bitBegin

theorem WvMoves.wvSettleTo (h : WvMoves n s t) {x : Nat} : WvMoves n s (t.wvSettleTo n x) := by
  refine WvMoves.clockRise ?_
  split
  · exact h
  · dsimp only
    split
    · exact (h.eachLane fun t l => (WvMoves.refl n t).drvLane).setWv.ite h
    · exact h.bitsBegin
    · exact h.bitsBegin
    · exact h

theorem WvMoves.wvSettle (h : WvMoves n s t) : WvMoves n s (t.wvSettle n) := h.wvSettleTo

end Moves

end Sys2Proof.Machine
end

section
/-! SUPPORT. The pool, the outputs and the launch table (chapters 06, 07). Pauses that leave are no answers. -/

set_option autoImplicit false

namespace Sys2Proof.Machine

section Generic

variable {A : Out → Bool} {s t : State}

theorem Keeps.setSlath (h : Keeps A s t) {x : SlathSt} : Keeps A s { t with slath := x } := h.trans ⟨rfl, rfl, id⟩

theorem Keeps.setLaunch (h : Keeps A s t) {lti : Nat} {e : LaunchE} : Keeps A s (t.setLaunch lti e) := by
  have hl : Keeps A s { t with tm := { t.tm with launch := Tbl.put LaunchE.free lti e t.tm.launch } } := h.trans ⟨rfl, rfl, id⟩
  exact hl.wr.peak

theorem Keeps.launchRef (h : Keeps A s t) {lti : Nat} {d : Int} : Keeps A s (t.launchRef lti d) := h.ite h.setLaunch

theorem Keeps.launchTake (h : Keeps A s t) {sec ns frac tol : Nat} : Keeps A s (t.launchTake sec ns frac tol).1 := by
  unfold State.launchTake
  split
  · exact h.bump
  · exact h.setLaunch

theorem Keeps.sharedSync (h : Keeps A s t) : Keeps A s t.sharedSync := h.wr.peak.wr

theorem Keeps.poolSync (h : Keeps A s t) {n : Nat} : Keeps A s (t.poolSync n) := h.wr.peak.sharedSync

theorem Keeps.spillBlocks {n q : Nat} {cells : List (List Byte)} {r : State × List (Nat × Nat)} (h : Keeps A s r.1) :
    Keeps A s (State.spillBlocks n q cells r).1 := by
  induction cells generalizing r with
  | nil => exact h
  | cons cell cells ih => exact ih h.setSlath.used

/-- Whether cells are found or not. -/
theorem Keeps.takeCells (h : Keeps A s t) {n : Nat} {i : EItem} : Keeps A s ((t.takeCells n i).elim id Prod.fst) := by
  unfold State.takeCells
  dsimp only
  split
  · split
    · exact h.spillBlocks
    · exact h.bump
  · split
    · exact h.setSlath
    · split
      · split
        · exact h.setSlath.spillBlocks
        · exact h.bump
      · exact h.bump

end Generic

variable {s t : State}

theorem Keeps.emit (h : Keeps Out.isAnswer s t) {o : Out} (ho : o.isAnswer = false) : Keeps Out.isAnswer s (t.emit o) := by
  refine h.trans ⟨rfl, ?_, id⟩
  rw [State.emit_out, List.filter_append]
  split <;> simp [ho]

theorem Keeps.sendPause (h : Keeps Out.isAnswer s t) {n quanta : Nat} : Keeps Out.isAnswer s (t.sendPause n quanta) := h.emit rfl

theorem Keeps.pauseCheck (h : Keeps Out.isAnswer s t) {n : Nat} : Keeps Out.isAnswer s (t.pauseCheck n) :=
  (h.wr.sendPause.ite (h.wr.sendPause.ite h)).ite h

theorem Keeps.holdFor (h : Keeps Out.isAnswer s t) {src : Nat} {k : Int} : Keeps Out.isAnswer s (t.holdFor src k) := h.setSlath.pauseCheck

theorem Keeps.freeItem (h : Keeps Out.isAnswer s t) {n : Nat} {i : EItem} : Keeps Out.isAnswer s (t.freeItem n i) :=
  h.launchRef.setSlath.poolSync.holdFor.ite (h.launchRef.setSlath.sharedSync.holdFor.ite h.launchRef.setSlath)

theorem Keeps.dropItems (h : Keeps Out.isAnswer s t) {n : Nat} {count : Fld} {is : List EItem} :
    Keeps Out.isAnswer s (t.dropItems n count is) := by
  induction is generalizing t with
  | nil => exact h
  | cons i is ih => exact ih h.bump.freeItem

theorem Keeps.flushOut (h : Keeps Out.isAnswer s t) {n : Nat} : Keeps Out.isAnswer s (t.flushOut n) := h.setOut.dropItems

theorem Keeps.linkLost (h : Keeps Out.isAnswer s t) {n : Nat} : Keeps Out.isAnswer s (t.linkLost n) := by
  unfold State.linkLost
  refine Keeps.ite ?_ h
  dsimp only
  cases ((t.wr (F.SW_PSTATn_LINK n) 0).outOf n).sending with
  | none => exact h.wr.wr.wr.flushOut.ite h.wr.setOut
  | some x => exact h.wr.bump.setOut.freeItem.wr.wr.flushOut.ite h.wr.bump.setOut.freeItem.setOut

theorem Keeps.join (h : Keeps Out.isAnswer s t) {n : Nat} {i : EItem} : Keeps Out.isAnswer s (t.join n i) := h.bump.freeItem.ite h.setOut

theorem Keeps.enqueue (h : Keeps Out.isAnswer s t) {n : Nat} {i : EItem} : Keeps Out.isAnswer s (t.enqueue n i) := by
  unfold State.enqueue
  refine h.bump.launchRef.ite ?_
  have taken : Keeps Out.isAnswer s ((t.takeCells n i).elim id Prod.fst) := h.takeCells
  cases e : t.takeCells n i with
  | inl u => rw [e] at taken; exact taken.launchRef
  | inr u => rw [e] at taken; exact taken.poolSync.holdFor.join

theorem Keeps.frameSubmit (h : Keeps Out.isAnswer s t) {tol : Nat} : Keeps Out.isAnswer s (t.frameSubmit tol) := by
  unfold State.frameSubmit
  dsimp only
  refine Keeps.ite ?_ h.enqueue
  split
  next u i e => exact Keeps.enqueue (e ▸ h.launchTake : Keeps Out.isAnswer s (u, some i).1)
  next u e => exact Keeps.wr (e ▸ h.launchTake : Keeps Out.isAnswer s (u, (none : Option Nat)).1)

theorem Keeps.expire (h : Keeps Out.isAnswer s t) {n lti : Nat} : Keeps Out.isAnswer s (t.expire n lti) := h.setOut.wr.dropItems

theorem Keeps.portOff (h : Keeps Out.isAnswer s t) {n : Nat} : Keeps Out.isAnswer s (t.portOff n) :=
  (h.ite h.linkLost).setOut.wr.wr.flushOut

end Sys2Proof.Machine
end

section
/-! SUPPORT. Links, wrap, and the sending of an ENUMERATE (chapters 03, 04). Cells that leave are no answers. -/

set_option autoImplicit false

namespace Sys2Proof.Machine

section Generic

variable {A : Out → Bool} {s t : State}

theorem Keeps.setWrapped (h : Keeps A s t) {p v : Nat} : Keeps A s (t.setWrapped p v) := h.wr.ite h.wr

theorem Keeps.setLinkState (h : Keeps A s t) {p st : Nat} : Keeps A s (t.setLinkState p st) := h.wr.ringEvent.ite h.wr

theorem Keeps.toAcquire (h : Keeps A s t) {p : Nat} : Keeps A s (t.toAcquire p) := by
  unfold State.toAcquire
  exact h.wr.wr.wr.wr.setLinkState

theorem Keeps.clockUpdate (h : Keeps A s t) : Keeps A s t.clockUpdate := h.trans ⟨rfl, rfl, id⟩

theorem Keeps.setMem (h : Keeps A s t) {m : MemSt} : Keeps A s { t with mem := m } := h.trans ⟨rfl, rfl, id⟩

theorem Keeps.transitShow (h : Keeps A s t) {p : Nat} : Keeps A s (t.transitShow p) := h.wr.peak

theorem Keeps.transitAdd (h : Keeps A s t) {p : Nat} {c : TCell} : Keeps A s (t.transitAdd p c) :=
  h.bump.ite (h.bump.ringEvent.ite h.setLink.transitShow)

theorem Keeps.moveTransit (h : Keeps A s t) {q : Nat} {cs : List TCell} : Keeps A s (t.moveTransit q cs) := by
  induction cs generalizing t with
  | nil => exact h
  | cons c cs ih => exact ih (h.bump.ite h.transitAdd)

theorem Keeps.withFlow (h : Keeps A s t) {c : Cell} : Keeps A s (t.withFlow c).1 := by
  unfold State.withFlow
  split
  · exact (h.may (Keeps.refl t).bump).setSlath
  · exact h

end Generic

variable {s t : State}

theorem Keeps.abandonRx (h : Keeps Out.isAnswer s t) {p q : Nat} : Keeps Out.isAnswer s (t.abandonRx p q) := by
  unfold State.abandonRx
  dsimp only
  split
  · exact (h.setLink.bump.emit rfl).ite h.setLink.transitShow
  · exact h.setLink.transitShow

theorem Keeps.moveLocal (h : Keeps Out.isAnswer s t) {p q : Nat} {is : List EItem} : Keeps Out.isAnswer s (t.moveLocal p q is) := by
  induction is generalizing t with
  | nil => exact h
  | cons i is ih => exact ih (h.bump.freeItem.ite h.setSlath.setSlath.poolSync.poolSync.setOut)

theorem Keeps.wrapAt (h : Keeps Out.isAnswer s t) {p : Nat} : Keeps Out.isAnswer s (t.wrapAt p) := by
  unfold State.wrapAt
  refine Keeps.ite (Keeps.moveLocal (Keeps.moveTransit (Keeps.setLink ?_))) (Keeps.dropItems (Keeps.bumpBy ?_))
  all_goals
    refine Keeps.setOut (Keeps.transitShow (Keeps.setLink (Keeps.may ?_ (Keeps.refl _).abandonRx)))
    exact h.bumpBy.ite h.bumpBy.setWrapped.bump.ringEvent

theorem Keeps.leaveUp (h : Keeps Out.isAnswer s t) {p : Nat} : Keeps Out.isAnswer s (t.leaveUp p) :=
  (h.setLink.linkLost.ite (h.may (Keeps.refl t).wr).wrapAt).ite h

theorem Keeps.toDown (h : Keeps Out.isAnswer s t) {p : Nat} : Keeps Out.isAnswer s (t.toDown p) :=
  (((h.wr.emit rfl).ite h).leaveUp).setLinkState.clockUpdate

theorem Keeps.linkEnable (h : Keeps Out.isAnswer s t) {was : Bool} {p : Nat} : Keeps Out.isAnswer s (t.linkEnable was p) :=
  (h.toAcquire.ite h).ite (h.ite h.toDown)

theorem Keeps.linkRetrain (h : Keeps Out.isAnswer s t) {p : Nat} : Keeps Out.isAnswer s (t.linkRetrain p) := h.toDown.toAcquire.ite h

theorem Keeps.i2cStart (h : Keeps Out.isAnswer s t) {p : Nat} : Keeps Out.isAnswer s (t.i2cStart p) := h.wr.emit rfl

theorem Keeps.ringJoin (h : Keeps Out.isAnswer s t) {p : Nat} {i : EItem} : Keeps Out.isAnswer s (t.ringJoin p i) :=
  h.bump.launchRef.ite ((h.bump.launchRef.ite (h.enqueue.ite h.enqueue)).ite h.enqueue)

theorem Keeps.insertOn (h : Keeps Out.isAnswer s t) {c : Cell} {ringB byFlow : Bool} {src : Nat} :
    Keeps Out.isAnswer s (t.insertOn c ringB byFlow src) := h.ringJoin

theorem Keeps.enumSend (h : Keeps Out.isAnswer s t) : Keeps Out.isAnswer s t.enumSend := h.setMem.wr.withFlow.insertOn

theorem Keeps.enumStart (h : Keeps Out.isAnswer s t) : Keeps Out.isAnswer s t.enumStart := h.enumSend.ite h

theorem Keeps.sayDown (h : Keeps Out.isAnswer s t) {p : Nat} : Keeps Out.isAnswer s (t.sayDown p) := (h.emit rfl).ite h

end Sys2Proof.Machine
end

section
/-! SUPPORT. Weavers, time, CAN, field ports and the event queue's producers (chapters 08, 09, 11, 12, 13). -/

set_option autoImplicit false

namespace Sys2Proof.Machine

variable {A : Out → Bool} {s t : State}

/-! ### Weavers (R258 to R278, R288) -/

theorem Keeps.wvSettle (h : Keeps A s t) {n : Nat} : Keeps A s (t.wvSettle n) := h.trans (WvMoves.refl n t).wvSettle.keeps

theorem Keeps.wvSettleTo (h : Keeps A s t) {n x : Nat} : Keeps A s (t.wvSettleTo n x) := h.trans (WvMoves.refl n t).wvSettleTo.keeps

theorem Keeps.wvSettleAll (h : Keeps A s t) : Keeps A s t.wvSettleAll := h.eachLane fun t _ => (Keeps.refl t).wvSettle

theorem Keeps.laneTo (h : Keeps A s t) {n l tick : Nat} {en lvl ever : Bool} : Keeps A s (t.laneTo n l tick en lvl ever) := h.setWv

theorem Keeps.lanePark (h : Keeps A s t) {n l tick : Nat} : Keeps A s (t.lanePark n l tick) := by
  unfold State.lanePark
  refine Keeps.ite ?_ h.laneTo
  split
  · exact h.laneTo
  · exact h.laneTo
  · exact h.laneTo
  · exact h.laneTo

theorem Keeps.wvPark (h : Keeps A s t) {n tick : Nat} : Keeps A s (t.wvPark n tick) := h.eachLane fun t _ => (Keeps.refl t).lanePark

theorem Keeps.rebase (h : Keeps A s t) {n x div : Nat} : Keeps A s (t.rebase n x div) := h.wvSettle.setWv

theorem Keeps.divChange (h : Keeps A s t) {n : Nat} : Keeps A s (t.divChange n) := h.ite (h.setWv.ite h.rebase)

theorem Keeps.saRecord (h : Keeps A s t) {n actid outcome : Nat} {report stepped : Bool} :
    Keeps A s (t.saRecord n actid outcome report stepped) := h.wr.wr.wr.timeEvent.ite h.wr.wr.wr

theorem Keeps.actsCancel (h : Keeps A s t) {n : Nat} {count : Fld} {as : List WvAct} : Keeps A s (t.actsCancel n count as) := by
  induction as generalizing t with
  | nil => exact h
  | cons a as ih => exact ih h.bump.saRecord

theorem Keeps.wvEnd (h : Keeps A s t) {n tick : Nat} : Keeps A s (t.wvEnd n tick) :=
  ((h.wvSettle.wr.ite h.wvSettle).setWv.wr.wr.wvPark.actsCancel).ite h

theorem Keeps.wvStop (h : Keeps A s t) {n : Nat} : Keeps A s (t.wvStop n) := h.wvEnd

theorem Keeps.wvStopAll (h : Keeps A s t) {ns : List Nat} : Keeps A s (t.wvStopAll ns) := by
  induction ns generalizing t with
  | nil => exact h
  | cons n ns ih => exact ih h.wvStop

theorem Keeps.wvStart (h : Keeps A s t) {tick n : Nat} : Keeps A s (t.wvStart tick n) := h.wr.ite h.wr.wr.wr.wr.wr.wr.setWv

theorem Keeps.wvStartAll (h : Keeps A s t) {tick : Nat} {ns : List Nat} : Keeps A s (t.wvStartAll tick ns) := by
  induction ns generalizing t with
  | nil => exact h
  | cons n ns ih => exact ih h.wvStart

theorem Keeps.sampleNext (h : Keeps A s t) {n : Nat} : Keeps A s (t.sampleNext n) := h.trans (WvMoves.refl n t).sampleNext.keeps

theorem Keeps.clkRestartOne (h : Keeps A s t) {n : Nat} : Keeps A s (t.clkRestartOne n) :=
  h.ite (h.rebase.setWv.sampleNext.ite h.rebase)

theorem Keeps.clkRestart (h : Keeps A s t) {ns : List Nat} : Keeps A s (t.clkRestart ns) := by
  induction ns generalizing t with
  | nil => exact h
  | cons n ns ih => exact ih h.clkRestartOne

theorem Keeps.globalFire (h : Keeps A s t) : Keeps A s t.globalFire := h.wr.wr.wvStartAll

theorem Keeps.globalArmSet (h : Keeps A s t) : Keeps A s t.globalArmSet := h.ite (h.wr.wr.bump.ticks.globalFire.ite h.wr.wr)

theorem Keeps.globalDisarmSet (h : Keeps A s t) : Keeps A s t.globalDisarmSet := h.wr.wr.ite (h.bump.ite h)

theorem Keeps.txPush (h : Keeps A s t) {n data : Nat} : Keeps A s (t.txPush n data) :=
  h.setWv.setWv.ite (h.setWv.setWv.ite h.setWv.wr.bump)

theorem Keeps.rxPop (h : Keeps A s t) {n : Nat} : Keeps A s (t.rxPop n) := h.ite h.setWv

theorem Keeps.wvPassAll (h : Keeps A s t) {ns : List Nat} : Keeps A s (t.wvPassAll ns) := by
  induction ns generalizing t with
  | nil => exact h
  | cons n ns ih => exact ih h.setWv

theorem Keeps.setLines (h : Keeps A s t) {m v : Nat} : Keeps A s (t.setLines m v) := h.trans ⟨rfl, rfl, id⟩

theorem Keeps.basketPass (h : Keeps A s t) {m k : Nat} : Keeps A s (t.basketPass m k) := by
  induction k generalizing t with
  | zero => exact h
  | succ k ih => exact h.ite (ih h.wvPassAll.wr.setLines)

theorem Keeps.flagsSet (h : Keeps A s t) {m v : Nat} : Keeps A s (t.flagsSet m v) := h.wr.basketPass

theorem Keeps.flagsClear (h : Keeps A s t) {m v : Nat} : Keeps A s (t.flagsClear m v) := h.wr.basketPass

theorem Keeps.linesRaise (h : Keeps A s t) {m v : Nat} : Keeps A s (t.linesRaise m v) := h.setLines.basketPass

/-! ### Timed actions and compares (R229, R230, R244, R251 to R254) -/

theorem Keeps.laneAct (h : Keeps A s t) {n l tick : Nat} {v : Bool} : Keeps A s (t.laneAct n l tick v) := Keeps.ite h.setWv h

theorem Keeps.actDrive (h : Keeps A s t) {n value enable : Nat} : Keeps A s (t.actDrive n value enable) :=
  h.wvSettleTo.eachLane fun t _ => (Keeps.refl t).laneAct.ite (Keeps.refl t)

theorem Keeps.actFire (h : Keeps A s t) {n : Nat} {stepped : Bool} : Keeps A s (t.actFire n stepped) := by
  unfold State.actFire
  split
  · exact h
  · exact h.setWv.actDrive.saRecord

theorem Keeps.timPass (h : Keeps A s t) {n word : Nat} : Keeps A s (t.timPass n word) := (Keeps.rebase h.setWv).ite h.setWv

theorem Keeps.setTm (h : Keeps A s t) {x : TimeSt} : Keeps A s { t with tm := x } := h.trans ⟨rfl, rfl, id⟩

theorem Keeps.timeLatch (h : Keeps A s t) : Keeps A s t.timeLatch := h.wr.wr.wr.wr

theorem Keeps.cmpFire (h : Keeps A s t) {k : Nat} {stepped : Bool} : Keeps A s (t.cmpFire k stepped) := by
  refine Keeps.ite (Keeps.wr ?_) (Keeps.wr (Keeps.wr ?_))
  all_goals exact h.wr.wr.setTm.may (Keeps.refl _).timeEvent

theorem Keeps.cmpDisarm (h : Keeps A s t) {k : Nat} : Keeps A s (t.cmpDisarm k) := (h.wr.bump.ite h.wr.wr).ite (h.bump.ite h)

theorem Keeps.cmpArm (h : Keeps A s t) {k : Nat} : Keeps A s (t.cmpArm k) :=
  h.ite (h.setTm.wr.wr.bump.ticks.cmpFire.ite h.setTm.wr.wr)

/-! ### CAN (R303 to R309, R342) -/

theorem Keeps.canEvent (h : Keeps A s t) {key code detail w2 w3 : Nat} : Keeps A s (t.canEvent key code detail w2 w3) := by
  unfold State.canEvent
  refine Keeps.ite ?_ h.event
  exact (h.bump.ite h).setEq fun hs => hs.2.1

theorem Keeps.tbEnd (h : Keeps A s t) {k b status : Nat} : Keeps A s (t.tbEnd k b status) := h.wr.wr.setCan.canEvent.ite h.wr.wr.setCan

theorem Keeps.canExpire (h : Keeps A s t) {k b : Nat} : Keeps A s (t.canExpire k b) := h.wr.bump.tbEnd

theorem Keeps.canStop (h : Keeps A s t) {k : Nat} : Keeps A s (t.canStop k) := h.wr.setCan.ite h.wr.wr

theorem Keeps.canJoin (h : Keeps A s t) {k : Nat} : Keeps A s (t.canJoin k) := h.wr.setCan

theorem Keeps.canRecoverNow (h : Keeps A s t) {k : Nat} : Keeps A s (t.canRecoverNow k) := h.wr.ite h

theorem Keeps.canRequest (h : Keeps A s t) {k b : Nat} : Keeps A s (t.canRequest k b) := h.ite (h.wr.wr.bump.tbEnd.ite h.wr.wr)

theorem Keeps.canCancel (h : Keeps A s t) {k b : Nat} : Keeps A s (t.canCancel k b) := h.ite (h.wr.bump.setCan.ite h.wr.tbEnd)

theorem Keeps.canAck (h : Keeps A s t) {k n : Nat} : Keeps A s (t.canAck k n) := h.wr.wr

/-! ### The service port and the field ports (R317, R333 to R336) -/

theorem Keeps.usbAttach (h : Keeps A s t) : Keeps A s t.usbAttach := h.wr.ite h

theorem Keeps.usbReset (h : Keeps A s t) {host : Option Bool} {inFlight : Option Nat} : Keeps A s (t.usbReset host inFlight) := by
  unfold State.usbReset
  dsimp only
  refine Keeps.wr (Keeps.wr (Keeps.wr (Keeps.wr (Keeps.wr (Keeps.setNotices (Keeps.bumpBy (Keeps.bump ?_)) fun _ => Nat.zero_le _)))))
  split
  · exact h
  · exact h.wr.tallyInternal.bump.ite h.wr

theorem Keeps.usbDetach (h : Keeps A s t) : Keeps A s t.usbDetach := h.ite h.usbReset

theorem Keeps.fieldOn (h : Keeps A s t) {n : Nat} : Keeps A s (t.fieldOn n) := h.wr.setField.ite h

theorem Keeps.txFail (h : Keeps A s t) {n : Nat} : Keeps A s (t.txFail n) := h.wr.wr.wr.bump

theorem Keeps.fieldOff (h : Keeps A s t) {n : Nat} : Keeps A s (t.fieldOff n) := (h.txFail.ite h).wr.wr.wr.wr.wr.setField

theorem Keeps.fieldCtl (h : Keeps A s t) {n : Nat} : Keeps A s (t.fieldCtl n) := h.fieldOn.ite (h.ite h.fieldOff)

/-! ### The event queue (R342, R343) -/

theorem Keeps.eqPush (h : Keeps A s t) {w3 : Word} : Keeps A s (t.eqPush w3) := by
  unfold State.eqPush
  split
  next room => exact h.eqPut (by omega)
  next => exact h.bump.wr

theorem Keeps.waitsFlush (h : Keeps A s t) {ws : List (Nat × Nat × Nat × Nat × Nat × Nat)} : Keeps A s (t.waitsFlush ws) := by
  induction ws generalizing t with
  | nil => exact h.setEq fun hs => hs.2.1
  | cons w ws ih => exact Keeps.ite (h.setEq fun hs => hs.2.1) (ih h.admitEntry)

theorem Keeps.canFlush (h : Keeps A s t) {ws : List (Nat × (Word × Word × Word))} : Keeps A s (t.canFlush ws) := by
  induction ws generalizing t with
  | nil => exact h.setEq fun hs => hs.2.1
  | cons w ws ih =>
    refine Keeps.ite (h.setEq fun hs => hs.2.1) (ih ?_)
    split
    next room => exact h.eqPut room
    next => exact h.bump.wr

theorem Keeps.codeParts (h : Keeps A s t) {port : Nat} {trunc : Bool} {fuel part : Nat} {bs : List Byte} :
    Keeps A s (t.codeParts port trunc fuel part bs) := by
  induction fuel generalizing t part bs with
  | zero => exact h
  | succ fuel ih => exact h.admitEntry.ite (ih h.admitEntry)

theorem Keeps.codesOut (h : Keeps A s t) {port : Nat} {cs : List (List Byte × Bool)} : Keeps A s (t.codesOut port cs) := by
  induction cs generalizing t with
  | nil => exact h.setField
  | cons c cs ih => exact h.setField.ite (ih h.codeParts)

theorem Keeps.eqAfter (h : Keeps A s t) : Keeps A s t.eqAfter :=
  h.eqSync.ite (h.eqSync.waitsFlush.canFlush.foldl fun t _ => (Keeps.refl t).codesOut)

end Sys2Proof.Machine
end

section
/-! SUPPORT. Steps of time, the hashes, the forwarding database, gate lists, branches, speed and the resets (chapters 06, 07, 08, 14, 15). -/

set_option autoImplicit false

namespace Sys2Proof.Machine

section Generic

variable {A : Out → Bool} {s t : State}

/-! ### Hash switches and the forwarding database (R192, R198) -/

theorem Keeps.switchBegin (h : Keeps A s t) {k : Nat} : Keeps A s (t.switchBegin k) := (h.wr.wr.setSlath.ite h.wr.wr).poolEvent

theorem Keeps.setFdb (h : Keeps A s t) {l : List FdbEntry} : Keeps A s (t.setFdb l) := h.setSlath.wr.wr

theorem Keeps.showDst (h : Keeps A s t) {e : FdbEntry} : Keeps A s (t.showDst e) := by
  unfold State.showDst
  dsimp only
  split
  · exact h.wr.wr.wr
  · exact h.wr.wr.wr.wr
  · exact h.wr.wr

theorem Keeps.fdbRun (h : Keeps A s t) : Keeps A s t.fdbRun := by
  unfold State.fdbRun
  dsimp only
  split
  · split
    · exact h.setSlath.setFdb.wr.wr
    · split
      · exact h.setSlath.setFdb.wr.wr
      · exact h.setSlath.wr.wr
  · split
    · exact h.setSlath.setFdb.wr.wr
    · exact h.setSlath.wr.wr
  · split
    · exact h.setSlath.showDst.wr.wr
    · exact h.setSlath.wr.wr
  · exact h.setSlath.setFdb.wr.wr
  · exact h.setSlath.setFdb.wr.wr
  · exact h.setSlath.wr.wr

theorem Keeps.fdbGo (h : Keeps A s t) : Keeps A s t.fdbGo := h.wr.setSlath.ite h.wr.fdbRun

/-! ### Gate lists (R212 to R217) -/

theorem Keeps.gateShow (h : Keeps A s t) {n : Nat} : Keeps A s (t.gateShow n) := by
  unfold State.gateShow
  split
  · exact h.wr.wr
  · exact h.wr.wr

theorem Keeps.gateMaxima (h : Keeps A s t) {n : Nat} {qs : List Nat} : Keeps A s (t.gateMaxima n qs) := by
  induction qs generalizing t with
  | nil => exact h
  | cons q qs ih => exact ih h.wr

theorem Keeps.gateActivate (h : Keeps A s t) {n start : Nat} {l : Option Nat} : Keeps A s (t.gateActivate n l start) :=
  h.setOut.wr.wr.setOut.gateMaxima.gateShow

theorem Keeps.gateUnarm (h : Keeps A s t) {n : Nat} : Keeps A s (t.gateUnarm n) := h.setOut.wr.wr

theorem Keeps.gateOff (h : Keeps A s t) {n : Nat} : Keeps A s (t.gateOff n) := (h.gateUnarm.wr.ite h).gateActivate

theorem Keeps.gateDisarm (h : Keeps A s t) {n : Nat} : Keeps A s (t.gateDisarm n) := h.gateUnarm.wr.ite (h.bump.ite h)

theorem Keeps.gateSwapNow (h : Keeps A s t) {n start : Nat} : Keeps A s (t.gateSwapNow n start) := by
  unfold State.gateSwapNow
  split
  · exact h
  · exact h.gateUnarm.wr.gateActivate

theorem Keeps.gateArm (h : Keeps A s t) {n l : Nat} : Keeps A s (t.gateArm n l) :=
  h.setOut.wr.wr.wr.bump.ticks.gateSwapNow.ite h.setOut.wr.wr.wr

/-! ### Speed and policy (R396, R444) -/

theorem Keeps.speedSet (h : Keeps A s t) {m : Nat} : Keeps A s (t.speedSet m) := h.wr.wr.wr.mgmtEvent.ite (h.wr.wr.ite h.wr.wr)

theorem Keeps.speedWritten (h : Keeps A s t) : Keeps A s t.speedWritten := h.wr.speedSet

theorem Keeps.directedNow (h : Keeps A s t) : Keeps A s t.directedNow :=
  (h.eachUnit fun t _ => (Keeps.refl t).wr.wr.ite (Keeps.refl t)).eachUnit fun t _ => Keeps.ite (Keeps.setField (Keeps.refl t).wr) (Keeps.refl t)

/-! ### Registers back to their reset values (R390) -/

theorem Tbl.wfFrom_filter {α : Type} [DecidableEq α] (d : Nat → α) (p : Nat × α → Bool) (l : Tbl α) (lo : Nat)
    (w : Tbl.wfFrom d lo l = true) : Tbl.wfFrom d lo (l.filter p) = true := by
  induction l generalizing lo with
  | nil => rfl
  | cons x l ih =>
    simp only [Tbl.wfFrom, Bool.and_eq_true, decide_eq_true_eq] at w
    rw [List.filter_cons]
    split
    · simp only [Tbl.wfFrom, Bool.and_eq_true, decide_eq_true_eq]
      exact ⟨w.1, ih _ w.2⟩
    · exact Tbl.wfFrom_mono d (by omega) _ (ih _ w.2)

theorem Keeps.toImage (h : Keeps A s t) {ks : List Nat} : Keeps A s (t.toImage ks) := by
  induction ks generalizing t with
  | nil => exact h
  | cons k ks ih => exact ih h.setReg

theorem Keeps.resetRegs (h : Keeps A s t) {p : Nat → Bool} : Keeps A s (t.resetRegs p) :=
  Keeps.toImage (h.regs (Tbl.wfFrom_filter regReset _ t.regs 0))

theorem Keeps.canUnitReset (h : Keeps A s t) {k : Nat} : Keeps A s (t.canUnitReset k) := h.setCan.resetRegs

theorem Keeps.fieldUnitReset (h : Keeps A s t) : Keeps A s t.fieldUnitReset := h.resetRegs.trans ⟨rfl, rfl, id⟩

theorem Keeps.svcUnitReset (h : Keeps A s t) : Keeps A s t.svcUnitReset := h.resetRegs.setNotices fun _ => Nat.zero_le _

theorem Keeps.bridgeUnitReset (h : Keeps A s t) : Keeps A s t.bridgeUnitReset := by
  refine Keeps.bumpBy ?_
  exact (h.resetRegs (p := inRange 7 0 0x10000)).trans ⟨rfl, rfl, id⟩

theorem Keeps.timeUnitReset (h : Keeps A s t) : Keeps A s t.timeUnitReset := h.resetRegs.setTm

theorem Keeps.weaverUnitReset (h : Keeps A s t) {n : Nat} : Keeps A s (t.weaverUnitReset n) :=
  h.wvStop.resetRegs.resetRegs.bumpBy.setWv.wvPark

theorem Keeps.basketUnitReset (h : Keeps A s t) {m : Nat} : Keeps A s (t.basketUnitReset m) :=
  h.eachUnit fun t _ => (Keeps.refl t).weaverUnitReset

theorem Keeps.wrst (h : Keeps A s t) {v : Nat} : Keeps A s (t.wrst v) := h.eachUnit fun t _ => (Keeps.refl t).basketUnitReset

/-! ### The core's reset (R388 to R391, R413) -/

theorem Keeps.tear (h : Keeps A s t) {p : Option CkPart} : Keeps A s (t.tear p) := by
  unfold State.tear
  split
  · exact h.trans ⟨rfl, rfl, id⟩
  · exact h

theorem Keeps.tearAll (h : Keeps A s t) : Keeps A s t.tearAll := h.tear.tear.trans ⟨rfl, rfl, id⟩

theorem Keeps.memTake (h : Keeps A s t) {m : MemRec} : Keeps A s (t.memTake m) := h.wr.wr.wr.wr.wr.setMem.wr.wr.wr

/-- Whatever the core's reset leaves in the parts that it sets anew: the queue of events, the notices and, but for a warm reset's tally, the
tally are empty. -/
theorem Keeps.coreReset (h : Keeps A s t) {warm : Bool} : Keeps A s (t.coreReset warm) := by
  have bounded (hs : t.tearAll.Sound) : (if warm then t.tearAll.mg.tally else []).length ≤ 1024 := by
    split
    · exact hs.2.2.2
    · exact Nat.zero_le _
  unfold State.coreReset
  dsimp only
  split
  · refine Keeps.clockUpdate (Keeps.wr (Keeps.memTake ?_))
    refine h.tearAll.trans ?_
    refine ⟨rfl, rfl, fun hs => ?_⟩
    refine ⟨?_, Nat.zero_le _, Nat.zero_le _, bounded hs⟩
    exact Tbl.wfFrom_filter regReset _ _ 0 hs.1
  · refine Keeps.clockUpdate ?_
    refine h.tearAll.trans ?_
    refine ⟨rfl, rfl, fun hs => ?_⟩
    refine ⟨?_, Nat.zero_le _, Nat.zero_le _, bounded hs⟩
    exact Tbl.wfFrom_filter regReset _ _ 0 hs.1

theorem Keeps.setSup (h : Keeps A s t) {x : SupSt} : Keeps A s { t with sup := x } := h.trans ⟨rfl, rfl, id⟩

theorem Keeps.fuseRegs (h : Keeps A s t) : Keeps A s t.fuseRegs := h.wr.wr.wr.wr.wr

/-- A core-power event, where the core is powered. -/
theorem Keeps.powEvent (h : Keeps A s t) {code detail w2 w3 : Nat} : Keeps A s (t.powEvent code detail w2 w3) := h.event.ite h

theorem Keeps.curveCommit (h : Keeps A s t) {b : Nat} : Keeps A s (t.curveCommit b) := h.trans ⟨rfl, rfl, id⟩

end Generic

variable {s t : State}

/-! ### A step of local time (R229, R230) -/

theorem Keeps.dueRun (h : Keeps Out.isAnswer s t) {d : Due} : Keeps Out.isAnswer s (t.dueRun d) := by
  cases d with
  | cmp k => exact h.cmpFire
  | act n => exact h.actFire
  | wtim n word => exact h.timPass
  | start => exact h.globalFire
  | launch n l => exact h.expire
  | canDeadline k b => exact h.canExpire

theorem Keeps.dueAll (h : Keeps Out.isAnswer s t) {ds : List (Int × Due)} : Keeps Out.isAnswer s (t.dueAll ds) := by
  induction ds generalizing t with
  | nil => exact h
  | cons d ds ih => exact ih h.dueRun

theorem Keeps.setClock (h : Keeps Out.isAnswer s t) {c : ClockSt} : Keeps Out.isAnswer s { t with clock := c } := h.trans ⟨rfl, rfl, id⟩

theorem Keeps.stepTime (h : Keeps Out.isAnswer s t) {site : Nat} : Keeps Out.isAnswer s (t.stepTime site) :=
  (Keeps.dueAll (Keeps.timeEvent h.ticks.setClock.bump.wr)).ite (Keeps.timeEvent h.ticks.setClock.bump.wr)

theorem Keeps.stepWritten (h : Keeps Out.isAnswer s t) : Keeps Out.isAnswer s t.stepWritten := h.stepTime

/-! ### Outputs of units that leave no answers: field ports, branches -/

theorem Keeps.fieldLine (h : Keeps Out.isAnswer s t) {n : Nat} : Keeps Out.isAnswer s (t.fieldLine n) := (h.emit rfl).ite h

theorem Keeps.fieldGo (h : Keeps Out.isAnswer s t) {n : Nat} : Keeps Out.isAnswer s (t.fieldGo n) := (h.wr.wr.emit rfl).ite h.txFail

theorem Keeps.branchSet (h : Keeps Out.isAnswer s t) {b st : Nat} : Keeps Out.isAnswer s (t.branchSet b st) := by
  have told {u : State} (g : Keeps Out.isAnswer s u) : Keeps Out.isAnswer s (u.branchTell b) := (g.emit rfl).ite g
  exact told (h.wr.wr.ite h.wr).powEvent

theorem Keeps.branchWritten (h : Keeps Out.isAnswer s t) {b : Nat} {on : Bool} : Keeps Out.isAnswer s (t.branchWritten b on) := by
  have kept {p : PowSt} : Keeps Out.isAnswer s { t with pow := p } := h.trans ⟨rfl, rfl, id⟩
  exact (kept.ite ((kept.wr.ite kept).branchSet)).ite (kept.ite kept.branchSet)

/-! ### Resets that speak: the outputs, the uplink, the ring reset (R202, R389, R390) -/

theorem Keeps.outUnitReset (h : Keeps Out.isAnswer s t) {n : Nat} : Keeps Out.isAnswer s (t.outUnitReset n) := by
  unfold State.outUnitReset
  dsimp only
  cases (t.outOf n).sending with
  | none => exact h.resetRegs.flushOut.setOut.setSlath
  | some x => exact h.resetRegs.bump.setOut.freeItem.flushOut.setOut.setSlath

theorem Keeps.erst (h : Keeps Out.isAnswer s t) {v : Nat} : Keeps Out.isAnswer s (t.erst v) :=
  h.eachUnit fun t _ => (Keeps.refl t).outUnitReset

theorem Keeps.uplinkUnitReset (h : Keeps Out.isAnswer s t) : Keeps Out.isAnswer s t.uplinkUnitReset :=
  h.toDown.outUnitReset.resetRegs.setLink.linkEnable

theorem Keeps.urst (h : Keeps Out.isAnswer s t) {v : Nat} : Keeps Out.isAnswer s (t.urst v) := by
  have can : Keeps Out.isAnswer s (t.eachUnit State.canUnitReset (masked 0 v 8)) := h.eachUnit fun t _ => (Keeps.refl t).canUnitReset
  exact ((((can.may (Keeps.refl _).fieldUnitReset).may (Keeps.refl _).svcUnitReset).may (Keeps.refl _).bridgeUnitReset).may
    (Keeps.refl _).timeUnitReset).may (Keeps.refl _).uplinkUnitReset

theorem Keeps.coreUp (h : Keeps Out.isAnswer s t) : Keeps Out.isAnswer s t.coreUp := by
  refine Keeps.eachUnit ?_ fun t _ => (Keeps.refl t).linkEnable
  exact Keeps.ite (h.wr.wr.wr.wr.setSup.fuseRegs.setWrapped.setWrapped) (Keeps.setClock h.wr.wr.wr.wr.setSup.fuseRegs.setWrapped.setWrapped)

theorem Keeps.warmReset (h : Keeps Out.isAnswer s t) : Keeps Out.isAnswer s t.warmReset := by
  unfold State.warmReset
  exact h.sayDown.sayDown.coreReset.coreUp

/-- A ring reset takes back no answer that has left. -/
theorem Keeps.ringNow (h : Keeps Out.isAnswer s t) {ring node : Nat} : Keeps Out.isAnswer s (t.ringNow ring node) :=
  h.setSup.wr.warmReset

end Sys2Proof.Machine
end

section
/-! SUPPORT. What a write that is taken does besides leaving its bits (R41), and what a read does besides showing a word (R8). -/

set_option autoImplicit false

namespace Sys2Proof.Machine

section Generic

variable {A : Out → Bool} {s t : State}

theorem Keeps.beforeWrite (h : Keeps A s t) {id : RegId} {is : List Nat} : Keeps A s (t.beforeWrite id is) := by
  unfold State.beforeWrite
  split
  · exact h.wvSettle
  · exact h.wvSettle
  · exact h.wvSettle
  · exact h

theorem replaceFirst_length_le (f : EqEntry → Bool) (g : EqEntry → Option EqEntry) (es : List EqEntry) :
    (replaceFirst f g es).length ≤ es.length := by
  induction es with
  | nil => exact Nat.le_refl _
  | cons e es ih =>
    unfold replaceFirst
    split
    · split
      · exact Nat.le_refl _
      · exact Nat.le_succ _
    · exact Nat.succ_le_succ ih

theorem Keeps.eqPop (h : Keeps A s t) {c : Nat} {ok : Bool} : Keeps A s (t.eqPop c ok) := by
  unfold State.eqPop
  dsimp only
  split
  · exact h.setEq fun hs => hs.2.1
  · refine Keeps.eqAfter (Keeps.setEq (h.ite h.bump) fun hs => ?_)
    refine Nat.le_trans (replaceFirst_length_le _ _ _) ?_
    split at hs
    · exact hs.2.1
    · exact hs.2.1

theorem Keeps.beforeRead (h : Keeps A s t) {src : Src} {id : RegId} {is : List Nat} : Keeps A s (t.beforeRead src id is) := by
  unfold State.beforeRead
  split
  · exact h.wvSettle
  · exact h.wvSettle
  · exact h.wvSettle
  · exact h.wvSettleAll
  · exact h.gateShow
  · split
    · exact h.eqPop
    · exact h
  · exact h

theorem Keeps.afterRead (h : Keeps A s t) {id : RegId} {is : List Nat} : Keeps A s (t.afterRead id is) := by
  unfold State.afterRead
  split
  · exact h.timeLatch
  · exact h.timeLatch
  · exact h.setMem
  · exact h.setTm
  · exact h.setTm
  · exact h.rxPop
  · exact h.used
  · exact h.setMg fun hs => hs.2.2.2
  · exact h

theorem Keeps.readAt (h : Keeps A s t) {src : Src} {key : Nat} {f : Fam} {is : List Nat} : Keeps A s (t.readAt src key f is).1 :=
  (h.beforeRead.ite h.beforeRead.setReg).afterRead

end Generic

variable {s t : State}

/-- The action of a write takes back no answer that has left. -/
theorem Keeps.afterWrite (h : Keeps Out.isAnswer s t) {src : Src} {id : RegId} {is : List Nat} {old v : Nat} :
    Keeps Out.isAnswer s (t.afterWrite src id is old v) := by
  have now {u : State} : Keeps Out.isAnswer u u := Keeps.refl u
  unfold State.afterWrite
  dsimp only
  split
  · exact (h.when now.directedNow).speedWritten
  · split <;> exact h.ringNow
  · exact h.urst
  · exact h.wrst
  · exact h.erst
  · exact h.setMg fun hs => hs.2.2.2
  · exact h.setMg fun hs => hs.2.2.2
  · exact h.setMg fun hs => hs.2.2.2
  · exact h.setMg fun hs => hs.2.2.2
  · exact h.frameSubmit
  · exact h.linkEnable.when now.linkRetrain
  · exact h.when now.i2cStart
  · exact h.when now.enumStart
  · exact (h.when now.timeLatch).when now.stepWritten
  · exact (h.when now.cmpDisarm).when now.cmpArm
  · exact h.foldl fun t _ => (Keeps.refl t).when now.switchBegin
  · exact h.when now.fdbGo
  · exact h.when now.portOff
  · exact ((h.when now.gateOff).when now.gateDisarm).when (now.ite now.gateArm)
  · exact (h.when now.wvStop).when now.wvStart
  · exact h.when now.divChange
  · exact h.when now.divChange
  · exact h.txPush
  · exact h.lanePark
  · exact h.wvStartAll
  · exact h.wvStopAll
  · exact h.clkRestart
  · exact h.flagsClear
  · exact h.flagsSet
  · exact h.linesRaise
  · exact (((h.when now.wvStopAll).when now.wvStartAll).when now.globalDisarmSet).when now.globalArmSet
  · refine Keeps.when (h.when ?_) now.canRecoverNow
    exact Keeps.ite now.canStop now.canJoin
  · exact h.eachTb fun t _ => (Keeps.refl t).canRequest
  · exact h.eachTb fun t _ => (Keeps.refl t).canCancel
  · exact h.canAck
  · exact h.usbAttach.ite h.usbDetach
  · exact h.fieldCtl
  · exact h.fieldLine
  · exact h.when now.fieldGo
  · exact Keeps.ite h.eqPush (h.setEq fun hs => hs.2.1)
  · exact h.eqAfter
  · exact (h.when now.curveCommit).when now.branchWritten
  · exact h.trans ⟨rfl, rfl, id⟩
  · exact h

end Sys2Proof.Machine
end

section
/-! SUPPORT. What the register map says of a register that is found, and the bits of its fields (R7, R8, R26). -/

set_option autoImplicit false

namespace Sys2Proof.Machine

/-! ### Places in the map -/

/-- How far above its first element an array's last one lies. -/
def dimSpan : List (Nat × Nat × Nat) → Nat
  | [] => 0
  | (first, count, stride) :: ds => (first + count - 1) * stride + dimSpan ds

theorem dimIdx_le_span {ds : List (Nat × Nat × Nat)} {r : Nat} {is : List Nat} (h : dimIdx ds r = some is) : r ≤ dimSpan ds := by
  induction ds generalizing r is with
  | nil =>
    simp only [dimIdx] at h
    split at h
    next zero => exact Nat.le_of_eq zero
    next => cases h
  | cons d ds ih =>
    obtain ⟨first, count, stride⟩ := d
    simp only [dimIdx] at h
    split at h
    next => cases h
    next =>
      obtain ⟨js, hj, -⟩ := Option.map_eq_some_iff.mp h
      have rest := ih hj
      have low : min (r / stride) (first + count - 1) * stride ≤ (first + count - 1) * stride := Nat.mul_le_mul_right _ (Nat.min_le_right _ _)
      simp only [dimSpan]
      omega

theorem findFam_some {fs : List Fam} {off : Nat} {f : Fam} {is : List Nat} (h : findFam fs off = some (f, is)) :
    f ∈ fs ∧ f.base ≤ off ∧ dimIdx f.dims (off - f.base) = some is := by
  induction fs with
  | nil => cases h
  | cons g fs ih =>
    simp only [findFam] at h
    split at h
    next hb =>
      split at h
      next js hj =>
        obtain ⟨rfl, rfl⟩ : g = f ∧ js = is := by simpa using h
        exact ⟨List.mem_cons_self, hb, hj⟩
      next => exact ⟨List.mem_cons_of_mem _ (ih h).1, (ih h).2⟩
    next => exact ⟨List.mem_cons_of_mem _ (ih h).1, (ih h).2⟩

/-- Every register of the classes 0x00 to 0x0D (R26). -/
def allFams : List Fam := (List.range 14).flatMap classMap

theorem classMap_mem_allFams {cls : Nat} {f : Fam} (h : f ∈ classMap cls) : cls < 14 ∧ f ∈ allFams := by
  have low : cls < 14 := by
    refine Nat.lt_of_not_le fun hc => ?_
    obtain ⟨n, rfl⟩ := Nat.exists_eq_add_of_le' hc
    exact List.not_mem_nil (a := f) h
  exact ⟨low, List.mem_flatMap.mpr ⟨cls, List.mem_range.mpr low, h⟩⟩

/-- What a check of the whole map says of a register that is found. -/
theorem regAt_of_allFams {P : Fam → Prop} (all : ∀ f ∈ allFams, P f) {cls off : Nat} {f : Fam} {is : List Nat}
    (h : regAt cls off = some (f, is)) : P f :=
  all f (classMap_mem_allFams (findFam_some h).1).2

/-- A register's class is one of the fourteen, and its offset has 20 bits (R6). -/
theorem regAt_bound {cls off : Nat} {f : Fam} {is : List Nat} (h : regAt cls off = some (f, is)) : cls < 14 ∧ off < 2 ^ 20 := by
  have span : f.base + dimSpan f.dims < 2 ^ 20 :=
    regAt_of_allFams (P := fun f => f.base + dimSpan f.dims < 2 ^ 20) (by decide +kernel) h
  obtain ⟨mem, base, idx⟩ := findFam_some h
  have le := dimIdx_le_span idx
  exact ⟨(classMap_mem_allFams mem).1, by omega⟩

/-- A register of weavers that is settled before it is written is an array over the 128 weavers. -/
theorem regAt_weaver {cls off : Nat} {f : Fam} {is : List Nat} (h : regAt cls off = some (f, is))
    (hid : f.id ∈ [RegId.WVn_STAT, .WVn_DIV0, .WVn_DIV1]) : ix is 0 < 128 := by
  have dims : f.dims = [(0, 128, 0x400)] :=
    regAt_of_allFams (P := fun f => f.id ∈ [RegId.WVn_STAT, .WVn_DIV0, .WVn_DIV1] → f.dims = [(0, 128, 0x400)]) (by decide +kernel) h hid
  have idx := (findFam_some h).2.2
  rw [dims] at idx
  simp only [dimIdx, Nat.not_lt_zero, if_false] at idx
  split at idx
  next =>
    obtain rfl : [min ((off - f.base) / 0x400) 127] = is := by simpa using idx
    exact Nat.lt_of_le_of_lt (Nat.min_le_right _ _) (by decide)
  next => cases idx

/-- A register whose read latches time has no field that a read clears. -/
theorem regAt_latching {cls off : Nat} {f : Fam} {is : List Nat} (h : regAt cls off = some (f, is))
    (hid : f.id = .TM_SEC ∨ f.id = .TM_SEC48L) : maskOf (fun x => x.acc == .rc) f.fields = 0 :=
  regAt_of_allFams (P := fun f => f.id = .TM_SEC ∨ f.id = .TM_SEC48L → maskOf (fun x => x.acc == .rc) f.fields = 0)
    (by decide +kernel) h hid

/-! ### Bits -/

/-- Clearing the bits of a mask leaves none of them. -/
theorem cleared_and_mask (x : Word) (m : Nat) : (BitVec.ofNat 32 (x.toNat &&& (0xFFFFFFFF ^^^ m))).toNat &&& m = 0 := by
  have small : x.toNat &&& (0xFFFFFFFF ^^^ m) < 2 ^ 32 := Nat.lt_of_le_of_lt Nat.and_le_left x.isLt
  rw [BitVec.toNat_ofNat, Nat.mod_eq_of_lt small]
  apply Nat.eq_of_testBit_eq
  intro i
  have ones : Nat.testBit 0xFFFFFFFF i = decide (i < 32) := Nat.testBit_two_pow_sub_one (n := 32) (i := i)
  by_cases hi : i < 32
  · cases hm : m.testBit i <;> simp [ones, hi, hm]
  · have high : x.toNat.testBit i = false := Nat.testBit_lt_two_pow (Nat.lt_of_lt_of_le x.isLt (Nat.pow_le_pow_right (by decide) (by omega)))
    simp [high]

end Sys2Proof.Machine
end

section
/-! SUPPORT. One access of one word, from its row to its answer (R6, R41, R42, R153): what a write that is taken, a write that is refused and a
read do. -/

set_option autoImplicit false

namespace Sys2Proof.Machine

/-! ### A place that a source may write -/

/-- Register `f` at indices `is` stands at a place where a source sees it and may write it, and no byte transfer of a module holds it. -/
structure State.Addresses (s : State) (src : Src) (cls off : Nat) (f : Fam) (is : List Nat) : Prop where
  aligned : off % 4 = 0
  visible : s.hiddenNow src cls off = false
  noEntry : cls = 5 → rxAt off = none
  found : regAt cls off = some (f, is)
  shown : (src.isRing && ringHidden f.id) = false
  right : s.mayWrite src f.id = true
  free : f.id = .RGp_I2C → s.on (F.RGp_I2C_BUSY (ix is 0)) = false

variable {s t : State} {src : Src} {cls off : Nat} {f : Fam} {is : List Nat} {v : Word}

theorem State.addresses_of_takesWrite (h : s.takesWrite src cls off v.toNat = true) : s.reaches src = true ∧
    ∃ f is, s.Addresses src cls off f is ∧ (s.beforeWrite f.id is).untouchedBy (keyOf cls off) f is v.toNat = true := by
  simp only [State.takesWrite, Bool.and_eq_true, beq_iff_eq, Bool.not_eq_true', decide_eq_true_eq] at h
  obtain ⟨⟨⟨⟨⟨reach, -⟩, aligned⟩, visible⟩, entry⟩, place⟩ := h
  split at place
  next f is found =>
    simp only [Bool.and_eq_true, Bool.not_eq_true'] at place
    obtain ⟨⟨⟨shown, right⟩, idle⟩, untouched⟩ := place
    refine ⟨reach, f, is, ⟨aligned, visible, fun c => ?_, found, shown, right, fun c => ?_⟩, untouched⟩
    · simpa [c] using entry
    · simpa [c] using idle
  next => cases place

theorem State.Addresses.writeReg (h : s.Addresses src cls off f is) {x : Nat} {next : Option Nat} :
    s.writeReg src cls off x next = s.writeAt src cls off f is x next := by
  have entry : (cls == 5 && (rxAt off).isSome) = false := by
    by_cases c : cls = 5
    · simp [h.noEntry c]
    · simp [c]
  have idle : (f.id = .RGp_I2C && s.on (F.RGp_I2C_BUSY (ix is 0))) = false := by
    by_cases c : f.id = .RGp_I2C
    · simp [h.free c]
    · simp [c]
  simp only [State.writeReg, h.aligned, h.visible, entry, h.found, h.shown, h.right, idle]
  rfl

/-! ### The bytes of one word -/

theorem leAt_bytesOf_word (v : Word) : leAt (bytesOf [v]) 0 4 = v.toNat := by
  have four : bytesOf [v] = leBytes v.toNat 4 := List.append_nil _
  simp only [four, leAt, slice, leBytes, List.drop_zero, List.take_succ_cons, List.take_zero, leNat, BitVec.toNat_ofNat]
  have := v.isLt
  omega

theorem wordsOf_bytesOf_word (v : Word) : wordsOf (bytesOf [v]) 1 = [v] := by
  simp only [wordsOf, leAt_bytesOf_word, BitVec.ofNat_toNat, BitVec.setWidth_eq]

/-- A word is no command of the mailbox. -/
theorem State.unitWrite_word (s : State) (src : Src) (cls off : Nat) (v : Word) :
    s.unitWrite src cls off (bytesOf [v]) =
      if !s.mayWriteAt src cls off then (s.bump F.WE_MGRREF_COUNT, .refused)
      else if cls ≤ 0x0D && off % 4 == 0 && s.wordsExist src cls off 1 then s.writeAll src cls off [v]
      else (s, .addrErr) := by
  have four : (bytesOf [v]).length = 4 := rfl
  have one : s.mayWriteAll src cls off 1 = s.mayWriteAt src cls off := rfl
  simp [State.unitWrite, four, one, wordsOf_bytesOf_word]

theorem State.Addresses.unitWrite (h : s.Addresses src cls off f is) :
    s.unitWrite src cls off (bytesOf [v]) = s.writeAll src cls off [v] := by
  have low : cls ≤ 0x0D := by have := (regAt_bound h.found).1; omega
  have may : s.mayWriteAt src cls off = true := by simp only [State.mayWriteAt, h.found, h.right]
  have exist : s.wordsExist src cls off 1 = true := by simp only [State.wordsExist, h.visible, h.found, h.shown]; rfl
  rw [State.unitWrite_word, may, exist]
  simp [low, h.aligned]

theorem State.writeAll_ok (h : s.writeReg src cls off v.toNat none = (t, .ok)) : s.writeAll src cls off [v] = (t, .ok) := by
  simp only [State.writeAll, State.writeWords, List.head?_nil, Option.map_none, h]

theorem State.writeAll_failed {st : Status} (h : s.writeReg src cls off v.toNat none = (t, st)) (hst : st ≠ .ok) :
    s.writeAll src cls off [v] = ((s.refusalOnly t).progrefFrom t (if cls = 4 then [off / 0x400] else []), st) := by
  cases st with
  | ok => exact absurd rfl hst
  | _ => simp only [State.writeAll, State.writeWords, List.head?_nil, Option.map_none, h]

/-! ### A write that is taken, one that is refused -/

theorem State.writeAt_taken {b : State} (hb : s.beforeWrite f.id is = b) (h : b.untouchedBy (keyOf cls off) f is v.toNat = true) :
    s.writeAt src cls off f is v.toNat none =
      ((b.setReg (keyOf cls off) (BitVec.ofNat 32 (merged f (b.reg (keyOf cls off)).toNat v.toNat))).afterWrite src f.id is
        (b.reg (keyOf cls off)).toNat v.toNat, .ok) := by
  simp only [State.untouchedBy, Bool.and_eq_true, Bool.not_eq_true'] at h
  obtain ⟨⟨⟨⟨claim, prog⟩, closed⟩, range⟩, lock⟩ := h
  simp only [State.writeAt, hb, claim, prog, closed, range, lock]
  rfl

/-- A refusal sets PROGREF where a program stands in the way (R273), and counts (R42). -/
theorem State.writeAt_refused {b : State} (hb : s.beforeWrite f.id is = b) (h : b.untouchedBy (keyOf cls off) f is v.toNat = false) :
    ∃ claim prog : Bool, s.writeAt src cls off f is v.toNat none =
      ((if prog then b.wr (F.WVn_STAT_PROGREF (ix is 0)) 1 else b).refuse src cls off claim, if claim then .claimed else .locked) := by
  refine ⟨b.claimHit f.id is (b.reg (keyOf cls off)).toNat v.toNat (merged f (b.reg (keyOf cls off)).toNat v.toNat),
    b.progHit f.id is (b.reg (keyOf cls off)).toNat v.toNat, ?_⟩
  simp only [State.untouchedBy, ← Bool.not_or, Bool.not_eq_false'] at h
  simp only [State.writeAt, hb, h, if_true]

end Sys2Proof.Machine
end

section
/-! SUPPORT. What a refused write leaves (R42), what a write without an action leaves (R41), what a read leaves (R8). -/

set_option autoImplicit false

namespace Sys2Proof.Machine

/-! ### No write takes back an answer -/

section Answers

variable {A : Out → Bool} {s t : State} {src : Src} {cls off : Nat}

theorem Keeps.refuse (h : Keeps A s t) {claim : Bool} : Keeps A s (t.refuse src cls off claim) := by
  unfold State.refuse
  dsimp only
  exact Keeps.ite (h.bump.ite h.bump) (Keeps.setReg (Keeps.setReg (h.bump.ite h.bump)))

theorem Keeps.refusalOnly (h : Keeps A s t) {u : State} : Keeps A s (t.refusalOnly u) := h.foldl fun t _ => (Keeps.refl t).setReg

theorem Keeps.progrefFrom (h : Keeps A s t) {u : State} {ns : List Nat} : Keeps A s (t.progrefFrom u ns) := by
  induction ns generalizing t with
  | nil => exact h
  | cons n ns ih => exact ih (h.wr.ite h)

theorem Keeps.writeAt (h : Keeps Out.isAnswer s t) {f : Fam} {is : List Nat} {v : Nat} {next : Option Nat} :
    Keeps Out.isAnswer s (t.writeAt src cls off f is v next).1 := by
  unfold State.writeAt
  dsimp only
  split
  · exact (h.beforeWrite.wr.ite h.beforeWrite).refuse
  · exact h.beforeWrite.setReg.afterWrite

theorem Keeps.writeReg (h : Keeps Out.isAnswer s t) {v : Nat} {next : Option Nat} :
    Keeps Out.isAnswer s (t.writeReg src cls off v next).1 := by
  unfold State.writeReg
  split
  · exact h
  · split
    · exact h
    · split
      · exact h
      · split
        · exact h
        · split
          · exact h.bump
          · split
            · exact h
            · exact h.writeAt

theorem Keeps.writeAll_word (h : Keeps Out.isAnswer s t) {v : Word} : Keeps Out.isAnswer s (t.writeAll src cls off [v]).1 := by
  obtain ⟨u, st, e⟩ : ∃ u st, t.writeReg src cls off v.toNat none = (u, st) := ⟨_, _, rfl⟩
  by_cases ok : st = .ok
  · subst ok
    rw [State.writeAll_ok e]
    exact (e ▸ h.writeReg : Keeps Out.isAnswer s (u, Status.ok).1)
  · rw [State.writeAll_failed e ok]
    exact h.refusalOnly.progrefFrom

/-- A write of one word, wherever it goes, takes back no answer that has left. -/
theorem Keeps.unitWrite_word (h : Keeps Out.isAnswer s t) {v : Word} : Keeps Out.isAnswer s (t.unitWrite src cls off (bytesOf [v])).1 := by
  rw [State.unitWrite_word]
  split
  · exact h.bump
  · split
    · exact h.writeAll_word
    · exact h

end Answers

variable {s t : State} {src : Src} {cls off : Nat} {f : Fam} {is : List Nat} {v : Word}

/-! ### A refusal's counts and capture (R42) -/

theorem State.rd_bump_same (s : State) (f : Fld) (h : f.lo + f.width ≤ 32) : (s.bump f).rd f = min (s.rd f + 1) (2 ^ f.width - 1) := by
  have top : 0 < 2 ^ f.width := Nat.two_pow_pos _
  exact (s.rd_wr_same f _ h).trans (Nat.mod_eq_of_lt (by omega))

theorem State.rd_setReg_other (s : State) {k : Nat} {f : Fld} (h : f.key ≠ k) (x : Word) : (s.setReg k x).rd f = s.rd f := by
  simp only [State.rd, s.reg_setReg_other h]

theorem State.rd_bump_other (s : State) {f g : Fld} (h : g.key ≠ f.key) : (s.bump f).rd g = s.rd g := s.rd_wr_other f g _ h

/-- The capture touches neither count. -/
theorem State.rd_refuse_count (s : State) {claim : Bool} {g : Fld} (hadr : g.key ≠ F.WE_REFADR_VALID.key) (hsrc : g.key ≠ F.WE_REFSRC_NODE.key) :
    (s.refuse src cls off claim).rd g = (if claim then s.bump F.WE_CLAIMREF_COUNT else s.bump F.WE_LOCKREF_COUNT).rd g := by
  unfold State.refuse
  dsimp only
  generalize (if claim then s.bump F.WE_CLAIMREF_COUNT else s.bump F.WE_LOCKREF_COUNT) = u
  split
  next => rfl
  next => rw [State.rd_setReg_other _ hsrc, State.rd_setReg_other _ hadr]

theorem State.rd_refuse_lockref (s : State) {claim : Bool} : (s.refuse src cls off claim).rd F.WE_LOCKREF_COUNT =
    if claim then s.rd F.WE_LOCKREF_COUNT else min (s.rd F.WE_LOCKREF_COUNT + 1) (2 ^ (F.WE_LOCKREF_COUNT).width - 1) := by
  rw [State.rd_refuse_count s (by decide) (by decide)]
  cases claim with
  | true => exact s.rd_bump_other (by decide)
  | false => exact s.rd_bump_same _ (by decide)

theorem State.rd_refuse_claimref (s : State) {claim : Bool} : (s.refuse src cls off claim).rd F.WE_CLAIMREF_COUNT =
    if claim then min (s.rd F.WE_CLAIMREF_COUNT + 1) (2 ^ (F.WE_CLAIMREF_COUNT).width - 1) else s.rd F.WE_CLAIMREF_COUNT := by
  rw [State.rd_refuse_count s (by decide) (by decide)]
  cases claim with
  | true => exact s.rd_bump_same _ (by decide)
  | false => exact s.rd_bump_other (by decide)

/-- VALID stands after a refusal: it stood already, or the capture sets it. -/
theorem State.on_refuse_valid (s : State) {claim : Bool} (hc : cls < 14) (ho : off < 2 ^ 20) :
    (s.refuse src cls off claim).on F.WE_REFADR_VALID = true := by
  unfold State.refuse
  dsimp only
  generalize (if claim then s.bump F.WE_CLAIMREF_COUNT else s.bump F.WE_LOCKREF_COUNT) = u
  split
  next on => exact on
  next =>
    have bit : b2n claim ≤ 1 := by cases claim <;> decide
    have captured : bitsOf (BitVec.ofNat 32 (off + cls * 2 ^ 20 + b2n claim * 2 ^ 28 + 2 ^ 31)).toNat 31 1 = 1 := by
      rw [BitVec.toNat_ofNat, bitsOf]
      omega
    rw [State.on, State.rd_setReg_other _ (by decide), State.rd, State.reg_setReg_same]
    exact beq_iff_eq.mpr captured

/-! ### What a refused access leaves (R42, R153, R273) -/

theorem State.refusalOnly_only (s t : State) : ∃ r, s.refusalOnly t = { s with regs := r } := by
  suffices ∀ (ks : List Nat) (u : State), (∃ r, u = { s with regs := r }) →
      ∃ r, ks.foldl (fun (r : State) k => r.setReg k (t.reg k)) u = { s with regs := r } from this refusalKeys s ⟨s.regs, rfl⟩
  intro ks
  induction ks with
  | nil => exact fun u h => h
  | cons k ks ih =>
    rintro u ⟨r, rfl⟩
    exact ih _ ⟨_, rfl⟩

theorem State.progrefFrom_only (s t : State) (ns : List Nat) : ∃ r, s.progrefFrom t ns = { s with regs := r } := by
  induction ns generalizing s with
  | nil => exact ⟨s.regs, rfl⟩
  | cons n ns ih =>
    obtain ⟨r, hr⟩ := s.wrIf_only (t.on (F.WVn_STAT_PROGREF n) && !s.on (F.WVn_STAT_PROGREF n)) (F.WVn_STAT_PROGREF n) 1
    obtain ⟨r', hr'⟩ := ih { s with regs := r }
    refine ⟨r', ?_⟩
    rw [State.progrefFrom, hr, hr']

theorem State.reg_refusalOnly (s t : State) (k : Nat) : (s.refusalOnly t).reg k = if k ∈ refusalKeys then t.reg k else s.reg k := by
  suffices ∀ (ks : List Nat) (u : State), (ks.foldl (fun (r : State) k => r.setReg k (t.reg k)) u).reg k =
      if k ∈ ks then t.reg k else u.reg k from this refusalKeys s
  intro ks
  induction ks with
  | nil => exact fun u => rfl
  | cons j ks ih =>
    intro u
    rw [List.foldl_cons, ih]
    by_cases hj : k = j
    · simp [hj]
    · simp [hj, State.reg_setReg_other]

theorem State.reg_progrefFrom_other (s t : State) {ns : List Nat} {k : Nat} (h : ∀ n ∈ ns, k ≠ (F.WVn_STAT_PROGREF n).key) :
    (s.progrefFrom t ns).reg k = s.reg k := by
  induction ns generalizing s with
  | nil => rfl
  | cons n ns ih =>
    rw [State.progrefFrom, ih _ fun m hm => h m (List.mem_cons_of_mem _ hm)]
    split
    · exact State.reg_wr_other _ _ _ (h n List.mem_cons_self)
    · rfl

/-- The registers of a refusal lie in class 0x0D, between no weaver's own. -/
theorem refusalKeys_range {k : Nat} (h : k ∈ refusalKeys) : 0xD00020 ≤ k ∧ k ≤ 0xD00030 ∧ k % 4 = 0 := by
  revert k
  decide

theorem refusalKeys_ne_progref {k : Nat} (h : k ∈ refusalKeys) (n : Nat) : k ≠ (F.WVn_STAT_PROGREF n).key := by
  have := refusalKeys_range h
  simp only [F.WVn_STAT_PROGREF]
  omega

/-- Settling a weaver before a write touches no register of a refusal. -/
theorem State.reg_beforeWrite_refusal {k : Nat} (h : regAt cls off = some (f, is)) (hk : k ∈ refusalKeys) :
    (s.beforeWrite f.id is).reg k = s.reg k := by
  have settled (hid : f.id ∈ [RegId.WVn_STAT, .WVn_DIV0, .WVn_DIV1]) : (s.wvSettle (ix is 0)).reg k = s.reg k := by
    have low := regAt_weaver h hid
    have range := refusalKeys_range hk
    refine (WvMoves.refl (ix is 0) s).wvSettle.reg k ?_ ?_
    · simp only [F.WVn_SHIFT_SH]
      omega
    · simp only [F.WVn_SHCNT_COUNT]
      omega
  unfold State.beforeWrite
  split
  next e => exact settled (by simp [e])
  next e => exact settled (by simp [e])
  next e => exact settled (by simp [e])
  next => rfl

end Sys2Proof.Machine
end

section
/-! SUPPORT. Register accesses as rows: refused writes, plain writes, reads (R8, R41, R42). -/

set_option autoImplicit false

namespace Sys2Proof.Machine

variable {s t : State} {src : Src} {cls off : Nat} {f : Fam} {is : List Nat} {v : Word}

/-! ### The row of a write -/

/-- The answer of a write leaves with it, whatever the write sets off. -/
theorem State.rowWrite_answer {st : Status} (hr : s.reaches src = true) (hw : s.unitWrite src cls off (bytesOf [v]) = (t, st)) :
    .answer src st [] ∈ (s.rowWrite src cls off [v]).out := by
  unfold State.rowWrite
  rw [if_pos hr, hw]
  dsimp only
  split
  · exact (Keeps.refl _).unitWrite_word.answer_mem (by simp)
  · simp

theorem State.rowWrite_of_sup {st : Status} (hr : s.reaches src = true) (hw : s.unitWrite src cls off (bytesOf [v]) = (t, st))
    (sup : t.sup = s.sup) : s.rowWrite src cls off [v] = t.emit (.answer src st []) := by
  unfold State.rowWrite
  rw [if_pos hr, hw]
  simp [sup]

/-! ### A refused write -/

/-- What a refused write of one word leaves: registers alone have changed; of those, outside WVn_STAT of a weaver in the way, only the counts and
the capture, which are the refusal's. -/
structure State.RefusedTo (s t : State) (cls off : Nat) (claim : Bool) : Prop where
  only : ∃ r, t = { s with regs := r }
  reg : ∀ k, k ∉ refusalKeys → (cls = 4 → k ≠ (F.WVn_STAT_PROGREF (off / 0x400)).key) → t.reg k = s.reg k
  lockref : t.rd F.WE_LOCKREF_COUNT =
    if claim then s.rd F.WE_LOCKREF_COUNT else min (s.rd F.WE_LOCKREF_COUNT + 1) (2 ^ (F.WE_LOCKREF_COUNT).width - 1)
  claimref : t.rd F.WE_CLAIMREF_COUNT =
    if claim then min (s.rd F.WE_CLAIMREF_COUNT + 1) (2 ^ (F.WE_CLAIMREF_COUNT).width - 1) else s.rd F.WE_CLAIMREF_COUNT
  valid : t.on F.WE_REFADR_VALID = true

/-- The part of a refused access that is kept: everything else stands as before the access (R153). -/
theorem State.refusedTo_of_refuse {b : State} (hb : ∀ k ∈ refusalKeys, b.reg k = s.reg k) (hc : cls < 14) (ho : off < 2 ^ 20) (claim : Bool) :
    s.RefusedTo ((s.refusalOnly (b.refuse src cls off claim)).progrefFrom (b.refuse src cls off claim)
      (if cls = 4 then [off / 0x400] else [])) cls off claim := by
  generalize hu : b.refuse src cls off claim = u
  have kept {k : Nat} (hk : k ∈ refusalKeys) :
      ((s.refusalOnly u).progrefFrom u (if cls = 4 then [off / 0x400] else [])).reg k = u.reg k := by
    rw [State.reg_progrefFrom_other _ _ fun n _ => refusalKeys_ne_progref hk n, State.reg_refusalOnly, if_pos hk]
  have lock : b.rd F.WE_LOCKREF_COUNT = s.rd F.WE_LOCKREF_COUNT := by simp only [State.rd, hb _ (by decide : F.WE_LOCKREF_COUNT.key ∈ refusalKeys)]
  have claimed : b.rd F.WE_CLAIMREF_COUNT = s.rd F.WE_CLAIMREF_COUNT := by
    simp only [State.rd, hb _ (by decide : F.WE_CLAIMREF_COUNT.key ∈ refusalKeys)]
  refine ⟨?_, fun k hk hp => ?_, ?_, ?_, ?_⟩
  · obtain ⟨r, hr⟩ := s.refusalOnly_only u
    obtain ⟨r', hr'⟩ := (s.refusalOnly u).progrefFrom_only u (if cls = 4 then [off / 0x400] else [])
    exact ⟨r', by rw [hr', hr]⟩
  · rw [State.reg_progrefFrom_other, State.reg_refusalOnly, if_neg hk]
    intro n hn
    split at hn
    next c => exact List.mem_singleton.mp hn ▸ hp c
    next => cases hn
  · rw [State.rd, kept (by decide), ← State.rd, ← hu, State.rd_refuse_lockref, lock]
  · rw [State.rd, kept (by decide), ← State.rd, ← hu, State.rd_refuse_claimref, claimed]
  · rw [State.on, State.rd, kept (by decide), ← State.rd, ← State.on]
    exact hu ▸ b.on_refuse_valid hc ho

/-- A write that a refusal of R41 meets is answered with it, and leaves its count and capture alone. -/
theorem State.rowWrite_refused (hr : s.reaches src = true) (h : s.Addresses src cls off f is)
    (hu : (s.beforeWrite f.id is).untouchedBy (keyOf cls off) f is v.toNat = false) :
    ∃ claim t, s.RefusedTo t cls off claim ∧
      s.rowWrite src cls off [v] = t.emit (.answer src (if claim then .claimed else .locked) []) := by
  obtain ⟨claim, prog, hw⟩ := State.writeAt_refused (src := src) rfl hu
  obtain ⟨hc, ho⟩ := regAt_bound h.found
  have stands : ∀ k ∈ refusalKeys,
      (if prog then (s.beforeWrite f.id is).wr (F.WVn_STAT_PROGREF (ix is 0)) 1 else s.beforeWrite f.id is).reg k = s.reg k := by
    intro k hk
    have settled := State.reg_beforeWrite_refusal (s := s) h.found hk
    split
    · exact (State.reg_wr_other _ _ _ (refusalKeys_ne_progref hk _)).trans settled
    · exact settled
  have refused := State.refusedTo_of_refuse (src := src) stands hc ho claim
  refine ⟨claim, _, refused, State.rowWrite_of_sup hr ?_ ?_⟩
  · rw [h.unitWrite]
    exact State.writeAll_failed (h.writeReg.trans hw) (by cases claim <;> decide)
  · obtain ⟨r, hr⟩ := refused.only
    rw [hr]

/-! ### A write that is taken -/

/-- Every write that is taken is answered with OK. -/
theorem State.rowWrite_taken (h : s.takesWrite src cls off v.toNat = true) : .answer src .ok [] ∈ (s.rowWrite src cls off [v]).out := by
  obtain ⟨reach, f, is, place, untouched⟩ := State.addresses_of_takesWrite h
  have written := State.writeAll_ok (place.writeReg.trans (State.writeAt_taken rfl untouched))
  exact State.rowWrite_answer reach (place.unitWrite.trans written)

theorem State.beforeWrite_plain {id : RegId} (h : id ∉ acting) : s.beforeWrite id is = s := by
  unfold State.beforeWrite
  split
  · exact absurd (by decide) h
  · exact absurd (by decide) h
  · exact absurd (by decide) h
  · rfl

theorem State.afterWrite_plain {id : RegId} {old x : Nat} (h : id ∉ acting) : s.afterWrite src id is old x = s := by
  unfold State.afterWrite
  dsimp only
  split
  case h_44 => rfl
  all_goals exact absurd (by simp [acting]) h

/-- A write to a register that acts on nothing leaves its bits and its answer. -/
theorem State.rowWrite_plain (h : s.takesWrite src cls off v.toNat = true) (hf : regAt cls off = some (f, is)) (hid : f.id ∉ acting) :
    s.rowWrite src cls off [v] =
      (s.setReg (keyOf cls off) (BitVec.ofNat 32 (merged f (s.reg (keyOf cls off)).toNat v.toNat))).emit (.answer src .ok []) := by
  obtain ⟨reach, f', is', place, untouched⟩ := State.addresses_of_takesWrite h
  obtain ⟨rfl, rfl⟩ : f' = f ∧ is' = is := by simpa using place.found.symm.trans hf
  have plain : s.beforeWrite f'.id is' = s := State.beforeWrite_plain hid
  rw [plain] at untouched
  have taken := State.writeAt_taken (src := src) plain untouched
  rw [State.afterWrite_plain hid] at taken
  exact State.rowWrite_of_sup reach (place.unitWrite.trans (State.writeAll_ok (place.writeReg.trans taken))) (s.setReg_sup _ _)

/-! ### A read -/

theorem State.addresses_of_takesRead (h : s.takesRead src cls off = true) (hf : regAt cls off = some (f, is)) :
    s.reaches src = true ∧ s.unitRead src cls off 4 false =
      ((s.readAt src (keyOf cls off) f is).1, .ok, bytesOf [(s.readAt src (keyOf cls off) f is).2]) := by
  simp only [State.takesRead, hf, Bool.and_eq_true, beq_iff_eq, Bool.not_eq_true', decide_eq_true_eq] at h
  obtain ⟨⟨⟨⟨⟨⟨reach, right⟩, low⟩, aligned⟩, visible⟩, entry⟩, shown⟩ := h
  have noEntry : (if cls = 5 then rxAt off else none) = none := by
    split
    next c => simpa [c] using entry
    next => rfl
  have read : s.readReg src cls off = some (s.readAt src (keyOf cls off) f is) := by
    simp only [State.readReg, aligned, visible, noEntry, hf, shown]
    rfl
  refine ⟨reach, ?_⟩
  simp [State.unitRead, right, low, aligned, State.readWords, read]

theorem State.rowRead_taken (h : s.takesRead src cls off = true) (hf : regAt cls off = some (f, is)) :
    s.rowRead src cls off 1 =
      (s.readAt src (keyOf cls off) f is).1.emit (.answer src .ok (bytesOf [(s.readAt src (keyOf cls off) f is).2])) := by
  obtain ⟨reach, read⟩ := State.addresses_of_takesRead h hf
  unfold State.rowRead
  rw [if_pos reach, Nat.mul_one, read]

theorem State.reg_afterRead {id : RegId} (hsec : id ≠ .TM_SEC) (hsec48 : id ≠ .TM_SEC48L) (k : Nat) : (s.afterRead id is).reg k = s.reg k := by
  unfold State.afterRead
  split
  · exact absurd rfl hsec
  · exact absurd rfl hsec48
  · rfl
  · rfl
  · rfl
  · unfold State.rxPop
    split
    · rfl
    · rfl
  · rfl
  · rfl
  · rfl

/-- After a read of a register, the fields that a read clears are 0 (R8). -/
theorem State.readAt_clears (h : regAt cls off = some (f, is)) :
    ((s.readAt src (keyOf cls off) f is).1.reg (keyOf cls off)).toNat &&& maskOf (fun x => x.acc == .rc) f.fields = 0 := by
  by_cases zero : maskOf (fun x => x.acc == .rc) f.fields = 0
  · rw [zero, Nat.and_zero]
  · have hsec : f.id ≠ .TM_SEC := fun e => zero (regAt_latching h (.inl e))
    have hsec48 : f.id ≠ .TM_SEC48L := fun e => zero (regAt_latching h (.inr e))
    simp only [State.readAt, zero, if_false, State.reg_afterRead hsec hsec48, State.reg_setReg_same]
    exact cleared_and_mask _ _

end Sys2Proof.Machine
end

section
/-! The settled obligations of chapter 00, with the registers that they name. -/

set_option autoImplicit false

namespace Sys2Proof.Machine

/-! ### The registers named -/

theorem regAt_TM_SETS : regAt (F.TM_SETS_SEC.key / 0x100000) (F.TM_SETS_SEC.key % 0x100000) =
    some (⟨.TM_SETS, 0x24, [], [⟨0, 32, .rw, .plain, 0, []⟩]⟩, []) := by
  decide +kernel

theorem regAt_EQ_PUSHREF : regAt (F.EQ_PUSHREF_COUNT.key / 0x100000) (F.EQ_PUSHREF_COUNT.key % 0x100000) =
    some (⟨.EQ_PUSHREF, 0x48, [], [⟨0, 32, .rc, .plain, 0, []⟩]⟩, []) := by
  decide +kernel

/-- The eight causes of PW_RSTCAUSE are each cleared by a 1, and nothing of it is kept as written. -/
theorem regAt_PW_RSTCAUSE : ∃ f, regAt (F.PW_RSTCAUSE_PIN.key / 0x100000) (F.PW_RSTCAUSE_PIN.key % 0x100000) = some (f, []) ∧
    f.id = .PW_RSTCAUSE ∧ maskOf FieldSpec.keeps f.fields = 0 ∧ maskOf (fun x => x.acc == .w1c) f.fields = 0xFF :=
  ⟨⟨.PW_RSTCAUSE, 0x408, [], [⟨0, 1, .w1c, .aon, 1, []⟩, ⟨1, 1, .w1c, .aon, 0, []⟩, ⟨2, 1, .w1c, .aon, 0, []⟩, ⟨3, 1, .w1c, .aon, 0, []⟩,
    ⟨4, 1, .w1c, .aon, 0, []⟩, ⟨5, 1, .w1c, .aon, 0, []⟩, ⟨6, 1, .w1c, .aon, 0, []⟩, ⟨7, 1, .w1c, .aon, 0, []⟩]⟩,
    by decide +kernel, rfl, by decide, by decide⟩

variable {s : State} {src : Src} {v : Word}

theorem and_all_ones (x : Word) : x.toNat &&& 0xFFFFFFFF = x.toNat := by
  rw [show 0xFFFFFFFF = 2 ^ 32 - 1 from rfl, Nat.and_two_pow_sub_one_eq_mod, Nat.mod_eq_of_lt x.isLt]

theorem bitsOf_word (x : Word) : bitsOf x.toNat 0 32 = x.toNat := by
  rw [bitsOf, Nat.pow_zero, Nat.div_one, Nat.mod_eq_of_lt x.isLt]

/-! ### Writes -/

/-- The one field of TM_SETS fills its register: the row writes the word itself. -/
theorem State.fieldsWord_TM_SETS (s : State) (v : Word) : s.fieldsWord F.TM_SETS_SEC.key [(F.TM_SETS_SEC, v.toNat)] % 2 ^ 32 = v.toNat := by
  have mask : fieldMask F.TM_SETS_SEC = 0xFFFFFFFF := by decide
  have word : spell [(F.TM_SETS_SEC, v.toNat)] = v.toNat := by
    simp only [spell, F.TM_SETS_SEC, Nat.pow_zero, Nat.mul_one, Nat.or_zero]
    exact Nat.mod_eq_of_lt v.isLt
  simp only [State.fieldsWord, List.foldl_cons, List.foldl_nil, mask, word, Nat.zero_or, Nat.xor_self, Nat.and_zero]
  exact Nat.mod_eq_of_lt v.isLt

theorem State.write_TM_SETS (h : s.takesFields src [(F.TM_SETS_SEC, v.toNat)] = true) :
    s.rowWrite src (F.TM_SETS_SEC.key / 0x100000) (F.TM_SETS_SEC.key % 0x100000) [v] =
      (s.setReg F.TM_SETS_SEC.key v).emit (.answer src .ok []) := by
  have taken : s.takesWrite src (F.TM_SETS_SEC.key / 0x100000) (F.TM_SETS_SEC.key % 0x100000) v.toNat = true := by
    rw [State.takesFields, State.fieldsWord_TM_SETS] at h
    exact h
  have left (old : Word) : BitVec.ofNat 32 (merged ⟨.TM_SETS, 0x24, [], [⟨0, 32, .rw, .plain, 0, []⟩]⟩ old.toNat v.toNat) = v := by
    have keep : maskOf FieldSpec.keeps [⟨0, 32, .rw, .plain, 0, []⟩] = 0xFFFFFFFF := by decide
    simp only [merged, keep, Nat.xor_self, Nat.and_zero, Nat.zero_and, Nat.zero_or, and_all_ones, BitVec.ofNat_toNat, BitVec.setWidth_eq]
  rw [State.rowWrite_plain taken regAt_TM_SETS (by decide), left]
  rfl

theorem State.write_PW_RSTCAUSE
    (h : s.takesWrite src (F.PW_RSTCAUSE_PIN.key / 0x100000) (F.PW_RSTCAUSE_PIN.key % 0x100000) v.toNat = true) :
    ((s.rowWrite src (F.PW_RSTCAUSE_PIN.key / 0x100000) (F.PW_RSTCAUSE_PIN.key % 0x100000) [v]).reg F.PW_RSTCAUSE_PIN.key).toNat =
      (s.reg F.PW_RSTCAUSE_PIN.key).toNat &&& (0xFFFFFFFF ^^^ (v.toNat &&& 0xFF)) := by
  obtain ⟨f, found, hid, keep, clear⟩ := regAt_PW_RSTCAUSE
  have left (old : Word) : merged f old.toNat v.toNat = old.toNat &&& (0xFFFFFFFF ^^^ (v.toNat &&& 0xFF)) := by
    simp only [merged, keep, clear, Nat.xor_zero, Nat.zero_and, Nat.or_zero, and_all_ones, Nat.and_comm v.toNat]
  have small (old : Word) : old.toNat &&& (0xFFFFFFFF ^^^ (v.toNat &&& 0xFF)) < 2 ^ 32 := Nat.lt_of_le_of_lt Nat.and_le_left old.isLt
  have place : keyOf (F.PW_RSTCAUSE_PIN.key / 0x100000) (F.PW_RSTCAUSE_PIN.key % 0x100000) = F.PW_RSTCAUSE_PIN.key := rfl
  rw [State.rowWrite_plain h found (by rw [hid]; decide), State.reg_emit, place, State.reg_setReg_same, left, BitVec.toNat_ofNat,
    Nat.mod_eq_of_lt (small _)]

/-! ### Reads -/

theorem State.read_EQ_PUSHREF (h : s.takesField src F.EQ_PUSHREF_COUNT = true) :
    (s.rowRead src (F.EQ_PUSHREF_COUNT.key / 0x100000) (F.EQ_PUSHREF_COUNT.key % 0x100000) 1) =
      (s.setReg F.EQ_PUSHREF_COUNT.key 0).emit (.answer src .ok (bytesOf [s.reg F.EQ_PUSHREF_COUNT.key])) := by
  have mask : maskOf (fun x => x.acc == .rc) [⟨0, 32, .rc, .plain, 0, []⟩] = 0xFFFFFFFF := by decide
  have seen : maskOf (fun x => x.acc != .wo) [⟨0, 32, .rc, .plain, 0, []⟩] = 0xFFFFFFFF := by decide
  have read : s.readAt src F.EQ_PUSHREF_COUNT.key ⟨.EQ_PUSHREF, 0x48, [], [⟨0, 32, .rc, .plain, 0, []⟩]⟩ [] =
      (s.setReg F.EQ_PUSHREF_COUNT.key 0, s.reg F.EQ_PUSHREF_COUNT.key) := by
    simp [State.readAt, State.beforeRead, State.afterRead, State.shown, State.composed, mask, seen, and_all_ones]
  rw [State.rowRead_taken h regAt_EQ_PUSHREF]
  exact read ▸ rfl

/-! ### After the always-on domain has powered up -/

/-- Before anything is written, a field shows its reset value (R11). -/
theorem State.rd_reset (f : Fld) : State.reset.rd f = bitsOf (regReset f.key).toNat f.lo f.width := rfl

end Sys2Proof.Machine

namespace Sys2Proof.Scope

open Sys2Proof Sys2Proof.Machine

/-- Settles O49. A write that is taken goes through `State.rowWrite_taken` and, where the register acts on nothing, `State.rowWrite_plain`; one
that is refused through `State.rowWrite_refused`; a read through `State.rowRead_taken`. -/
theorem registerAccesses : Obligations.RegisterAccesses := by
  unfold Obligations.RegisterAccesses
  refine ⟨?_, ?_, ?_, ?_, ?_, ?_⟩
  · intro s src cls off v taken
    exact ⟨_, rfl, State.rowWrite_taken taken⟩
  · intro s src v taken
    refine ⟨_, rfl, ?_⟩
    rw [State.write_TM_SETS taken]
    refine ⟨?_, State.emit_out_answer .., fun k hk => State.reg_setReg_other _ hk _⟩
    rw [State.rd_emit, State.rd, State.reg_setReg_same]
    exact bitsOf_word v
  · intro s src v taken
    exact ⟨_, rfl, State.write_PW_RSTCAUSE taken⟩
  · intro s src cls off v f is reach _ aligned visible noEntry found shown right free refused
    obtain ⟨claim, t, left, row⟩ := State.rowWrite_refused reach ⟨aligned, visible, noEntry, found, shown, right, free⟩ refused
    refine ⟨_, rfl, if claim then .claimed else .locked, by cases claim <;> simp, ?_⟩
    rw [row]
    obtain ⟨⟨r, rfl⟩, reg, lockref, claimref, valid⟩ := left
    refine ⟨State.emit_out_answer .., reg, fun p hp => ?_, ?_, ?_, valid⟩
    · cases p with
      | out => exact absurd rfl hp
      | _ => rfl
    · cases claim <;> exact lockref
    · cases claim <;> exact claimref
  · intro s src cls off f is taken found
    refine ⟨_, rfl, ?_⟩
    rw [State.rowRead_taken taken found]
    refine ⟨State.readAt_clears found, (s.readAt src (keyOf cls off) f is).2, ?_⟩
    rw [State.emit_out_answer, (Keeps.refl s).readAt.out]
  · intro s src taken
    refine ⟨_, rfl, ?_⟩
    rw [State.read_EQ_PUSHREF taken]
    refine ⟨?_, State.emit_out_answer ..⟩
    rw [State.rd_emit, State.rd, State.reg_setReg_same]
    rfl

/-- Settles O3: nothing waits anywhere, the clocks stand at 0, and each register named shows the value of its Reset column. -/
theorem resetValues : Obligations.ResetValues := by
  unfold Obligations.ResetValues
  refine ⟨rfl, rfl, rfl, rfl, rfl, ?_⟩
  simp only [State.on, State.rd_reset]
  decide +kernel

end Sys2Proof.Scope
end

section
/-! SUPPORT. Frames on their way through the slath: beats at an input, frames at an edge port, tunnelled frames (chapters 01, 06). -/

set_option autoImplicit false

namespace Sys2Proof.Machine

/-! ### The tables of incoming frames, and the registers beside them -/

@[simp] theorem State.rd_setBeat (s : State) (p : Nat) (b : Option BeatFrame) (f : Fld) : (s.setBeat p b).rd f = s.rd f := rfl
@[simp] theorem State.rd_grant (s : State) (p : Nat) (fresh : Bool) (t : Nat) (f : Fld) : (s.grant p fresh t).rd f = s.rd f := rfl
@[simp] theorem State.rd_setInput (s : State) (n : Nat) (x : Option InFrame) (f : Fld) : (s.setInput n x).rd f = s.rd f := rfl
@[simp] theorem State.on_setInput (s : State) (n : Nat) (x : Option InFrame) (f : Fld) : (s.setInput n x).on f = s.on f := rfl

@[simp] theorem State.beats_setBeat_same (s : State) (p : Nat) (b : Option BeatFrame) : Tbl.get none p (s.setBeat p b).slath.beats = b :=
  Tbl.get_put_same _ _ _ _

@[simp] theorem State.inputs_setInput_same (s : State) (n : Nat) (x : Option InFrame) : Tbl.get none n (s.setInput n x).slath.inputs = x :=
  Tbl.get_put_same _ _ _ _

/-! ### The end of a frame that outputs have begun, and of a poisoned one (R23, R181) -/

section Counts

variable {g : Fld}

theorem State.rd_bumpIf_other (s : State) (c : Bool) {f : Fld} (h : g.key ≠ f.key) : (if c then s.bump f else s).rd g = s.rd g := by
  simp only [State.rd, s.reg_bumpIf_other c f h]

/-- The only registers that the end of a cut-through frame writes are SW_STOMPn. -/
theorem State.rd_cutEnd_other (s : State) (i : Nat) (f : Frame) (bad : Bool) (ns : List Nat)
    (h : ∀ n, g.key ≠ (F.SW_STOMPn_COUNT n).key) : (s.cutEnd i f bad ns).rd g = s.rd g := by
  induction ns generalizing s with
  | nil => rfl
  | cons n ns ih =>
    rw [State.cutEnd, ih]
    dsimp only
    split
    · split
      · exact State.rd_bumpIf_other _ bad (h n)
      · rfl
    · rfl

theorem State.rd_beatEnd_other (s : State) (b : BeatFrame) (ns : List Nat) (h : ∀ n, g.key ≠ (F.SW_STOMPn_COUNT n).key) :
    (s.beatEnd b ns).rd g = s.rd g := by
  induction ns generalizing s with
  | nil => rfl
  | cons n ns ih =>
    rw [State.beatEnd, ih]
    split
    · split
      · split
        · exact State.rd_bumpIf_other _ b.poison (h n)
        · rfl
      · rfl
    · exact s.rd_cutEnd_other _ _ _ _ h

theorem State.rd_poisonCount_other (s : State) (ns : List Nat) (h : ∀ n, g.key ≠ (F.SW_POISONn_COUNT n).key) :
    (s.poisonCount ns).rd g = s.rd g := by
  induction ns generalizing s with
  | nil => rfl
  | cons n ns ih => rw [State.poisonCount, ih, State.rd_bump_other _ (h n)]

/-- A poisoned frame reaches no queue: its end shows in SW_STOMPn and SW_POISONn alone. -/
theorem State.rd_beatOut_poisoned (s : State) {b : BeatFrame} (poisoned : b.poison = true)
    (stomp : ∀ n, g.key ≠ (F.SW_STOMPn_COUNT n).key) (poison : ∀ n, g.key ≠ (F.SW_POISONn_COUNT n).key) :
    (s.beatOut b).rd g = s.rd g := by
  rw [State.beatOut, if_pos poisoned, State.rd_poisonCount_other _ _ poison, State.rd_beatEnd_other _ _ _ stomp]

end Counts

/-! ### A beat at a slath input (R20 to R23) -/

section Beats

variable {s : State} {p : Nat}

/-- After a tag that failed, what the input holds is dead: its rest is discarded. -/
theorem State.beats_tagFailed : ∃ b, Tbl.get none p (s.tagFailed p).slath.beats = some b ∧ b.dead = true := by
  unfold State.tagFailed
  dsimp only
  split
  next b held =>
    split
    next dead => exact ⟨b, held, dead⟩
    next => exact ⟨_, State.beats_setBeat_same .., rfl⟩
  next => exact ⟨_, State.beats_setBeat_same .., rfl⟩

/-- A tag that failed is counted once: what it does to the frame in progress writes other registers. -/
theorem State.rd_tagFailed_count : (s.tagFailed p).rd (F.SW_TAGPARn_COUNT p) =
    min (s.rd (F.SW_TAGPARn_COUNT p) + 1) (2 ^ (F.SW_TAGPARn_COUNT p).width - 1) := by
  have counted := s.rd_bump_same (F.SW_TAGPARn_COUNT p) (Nat.le_refl 32)
  have stomp (n : Nat) : (F.SW_TAGPARn_COUNT p).key ≠ (F.SW_STOMPn_COUNT n).key := by
    simp only [F.SW_TAGPARn_COUNT, F.SW_STOMPn_COUNT]
    omega
  have poison (n : Nat) : (F.SW_TAGPARn_COUNT p).key ≠ (F.SW_POISONn_COUNT n).key := by
    simp only [F.SW_TAGPARn_COUNT, F.SW_POISONn_COUNT]
    omega
  unfold State.tagFailed
  dsimp only
  split
  · split
    · exact counted
    · rw [State.rd_setBeat, State.rd_beatOut_poisoned _ rfl stomp poison, State.rd_grant, counted]
  · exact counted

variable {t : Nat} {data : List Byte}

/-- A first beat opens a frame with what its tag says. -/
theorem State.beats_beatIn_first (sop : bitsOf t 62 1 = 1) (eop : bitsOf t 63 1 = 0) :
    ∃ b, Tbl.get none p (s.beatIn p t data true).slath.beats = some b ∧ b.route = bitsOf t 0 32 ∧ b.src = bitsOf t 37 5 ∧
      b.bytes = data.take (bitsOf t 57 5 + 1) ∧ b.dead = false := by
  simp [State.beatIn, sop, eop, BeatFrame.opened]

/-- A further beat of a frame that is being discarded changes nothing. -/
theorem State.beatIn_dead {ok : Bool} {b : BeatFrame} (sop : bitsOf t 62 1 = 0) (eop : bitsOf t 63 1 = 0)
    (held : Tbl.get none p s.slath.beats = some b) (dead : b.dead = true) : s.beatIn p t data ok = s := by
  simp [State.beatIn, sop, eop, held, dead]

end Beats

theorem exec_slathBeat (s : State) (p : Fin 27) (tag : BitVec 64) (data : List Byte) (ok : Bool) :
    exec (.slathBeat p tag data ok) s =
      .next (if popCount tag.toNat 64 % 2 = 1 then s.tagFailed p.val else s.beatIn p.val tag.toNat data ok) := rfl

/-! ### A frame begins at an edge port (R179, R195) -/

/-- Outputs that begin a frame leave what the inputs hold. -/
theorem State.slath_cutStart (s : State) (i : Nat) (it : EItem) (ns : List Nat) : (s.cutStart i it ns).slath = s.slath := by
  induction ns generalizing s with
  | nil => rfl
  | cons n ns ih => rw [State.cutStart, ih, State.setOut_slath]

/-- Whether or not its outputs begin it, a frame that comes in is held at its input. -/
theorem State.inputs_cutStart_setInput {c : Prop} [Decidable c] (s : State) (n : Nat) (x : Option InFrame) (it : EItem) (ns : List Nat) :
    Tbl.get none n (if c then (s.setInput n x).cutStart n it ns else s.setInput n x).slath.inputs = x := by
  split
  · rw [State.slath_cutStart, State.inputs_setInput_same]
  · exact State.inputs_setInput_same ..

/-- A frame that its VLAN lets in is held with its head, its VLAN and its route. -/
theorem completes_edgeFrame_held {s : State} {e : Fin 16} {f : Frame} {r : RouteTo} (enabled : s.on (F.SW_PCFGn_ENABLE (e.val + 3)) = true)
    (link : s.on (F.SW_PSTATn_LINK (e.val + 3)) = true) (noControl : f.etype ≠ 0x8808) (noMaster : s.on F.TM_DCFG_GMEN = false)
    (valid : s.on (F.SW_VLANv_VALID (s.vlanAt (e.val + 3) f)) = true)
    (member : bitsOf (s.rd (F.SW_VLANv_MEMBERS (s.vlanAt (e.val + 3) f))) e.val 1 = 1)
    (route : s.routeEdge (e.val + 3) (s.vlanAt (e.val + 3) f) f.dst = some r) :
    Completes (.edgeFrame e f) s fun t =>
      ∃ x, Tbl.get none (e.val + 3) t.slath.inputs = some x ∧ x.head = f ∧ x.vid = s.vlanAt (e.val + 3) f ∧ x.route = some r := by
  have control : (f.etype == 0x8808) = false := beq_eq_false_iff_ne.mpr noControl
  refine ⟨_, rfl, ?_⟩
  -- With a tag or without, `exec` asks for the VLAN as `State.vlanAt` does.
  cases tag : f.tag
  all_goals
    simp only [State.vlanAt, tag] at valid member route ⊢
    simp only [enabled, link, noMaster, control, valid, member, route, Bool.not_true, Bool.or_self, Bool.false_and, Bool.false_eq_true,
      Nat.reduceBEq, if_true, if_false]
    exact ⟨_, State.inputs_cutStart_setInput .., rfl, rfl, rfl⟩

/-! ### A stored frame ends at an edge port (R23, R181, R183) -/

section Stored

variable {s : State} {e : Fin 16} {data : List Byte} {x : InFrame}

theorem exec_edgeFrameEnd (s : State) (e : Fin 16) (data : List Byte) (good code poisoned : Bool) :
    exec (.edgeFrameEnd e data good code poisoned) s = execEdgeFrameEnd e data good code poisoned s := rfl

theorem exec_edgeFrameEnd_badFcs {code poisoned : Bool} (held : Tbl.get none (e.val + 3) s.slath.inputs = some x) (stored : x.cut = false) :
    exec (.edgeFrameEnd e data false code poisoned) s = .next ((s.setInput (e.val + 3) none).bump (F.SW_RXFCSn_COUNT (e.val + 3))) := by
  simp [exec_edgeFrameEnd, execEdgeFrameEnd, held, stored]

variable (held : Tbl.get none (e.val + 3) s.slath.inputs = some x) (stored : x.cut = false)
  (long : 64 ≤ ({ x.head with data := data } : Frame).size)
  (short : ({ x.head with data := data } : Frame).size ≤ s.rd (F.SW_PCFGn_MAXLEN (e.val + 3)))

include held stored long short

theorem exec_edgeFrameEnd_poisoned : exec (.edgeFrameEnd e data true false true) s = .next
    ((s.setInput (e.val + 3) none).poisonCount ((s.setInput (e.val + 3) none).boundFor x { x.head with data := data })) := by
  simp [exec_edgeFrameEnd, execEdgeFrameEnd, held, stored, Nat.not_lt.mpr long, Nat.not_lt.mpr short]

theorem exec_edgeFrameEnd_routed {r : RouteTo} (noPtp : x.ptp = false) (noControl : x.ctl = false) (letIn : x.barred = false)
    (route : x.route = some r) (noLearn : s.on (F.SW_PCFGn_LEARN (e.val + 3)) = false) :
    exec (.edgeFrameEnd e data true false false) s = .next
      ((s.setInput (e.val + 3) none).routeOut (e.val + 3) x { x.head with data := data } r) := by
  simp [exec_edgeFrameEnd, execEdgeFrameEnd, held, stored, Nat.not_lt.mpr long, Nat.not_lt.mpr short, noPtp, noControl, letIn, route,
    State.learnAt, noLearn]

end Stored

/-- Without a tunnel, a route is its outputs. -/
theorem State.routeOut_untunnelled (s : State) (n : Nat) (x : InFrame) (f : Frame) {r : RouteTo} (h : r.tunnel = none) :
    s.routeOut n x f r = s.enqueueMulti (r.outs.map fun k => (k, mkItem (.frame f) x.tc x.dp n 0)) := by
  simp [State.routeOut, h]

theorem State.boundFor_single (s : State) {x : InFrame} (f : Frame) {k : Nat} (noPtp : x.ptp = false)
    (route : x.route = some { outs := [k], tunnel := none }) : s.boundFor x f = [k] := by
  simp [State.boundFor, noPtp, route]

/-! ### A tunnelled frame (R197) -/

theorem exec_tunnelledFrame (s : State) (p : PortU) (c : Cell) : exec (.tunnelledFrame p c) s = execTunnelledFrame p c s := rfl

/-- A tagged frame without a launch time, for an edge port that the database knows, joins that port's queue once its source is learnt. -/
theorem exec_tunnelledFrame_edge {s : State} (p : PortU) {c : Cell} {q : Bool} {pcp : BitVec 3} {vid : BitVec 12} {e : FdbEntry} {k : Nat}
    (noLaunch : c.lt = false) (tag : (frameOf c.frameBytes).tag = some (pcp, q, vid)) (valid : s.on (F.SW_VLANv_VALID vid.toNat) = true)
    (single : isGroup (frameOf c.frameBytes).dst = false)
    (found : ((s.takeCell c).learn vid.toNat (frameOf c.frameBytes).src.toNat (.remote c.sring.toNat c.snode.toNat)).fdbFind vid.toNat
      (frameOf c.frameBytes).dst.toNat = some e) (dst : e.dst = .edge k) :
    exec (.tunnelledFrame p c) s = .next
      (let s1 := (s.takeCell c).learn vid.toNat (frameOf c.frameBytes).src.toNat (.remote c.sring.toNat c.snode.toNat)
      s1.enqueue (k + 3) (mkItem (.frame (s1.untagAt (k + 3) vid.toNat (frameOf c.frameBytes)))
        (bitsOf (s.rd F.SW_RINGPCP_MAP) (3 * pcp.toNat) 3) c.dp.toNat p.val 0)) := by
  have taken : (s.takeCell c).on (F.SW_VLANv_VALID vid.toNat) = true := valid
  have map : (s.takeCell c).rd F.SW_RINGPCP_MAP = s.rd F.SW_RINGPCP_MAP := rfl
  simp [exec_tunnelledFrame, execTunnelledFrame, noLaunch, tag, taken, map, single, found, dst, State.enqueueMulti]

end Sys2Proof.Machine

namespace Sys2Proof.Scope

open Sys2Proof Sys2Proof.Machine

/-- Settles O19. A beat goes through `exec_slathBeat`, by its tag's parity; a frame that begins at an edge port through
`completes_edgeFrame_held`; one that ends there through the lemma for its way out, `exec_edgeFrameEnd_routed`, `exec_edgeFrameEnd_badFcs` or
`exec_edgeFrameEnd_poisoned`; a tunnelled one through `exec_tunnelledFrame_edge`. -/
theorem framesAreForwarded : Obligations.FramesAreForwarded := by
  unfold Obligations.FramesAreForwarded
  refine ⟨?_, ?_, ?_, ?_, ?_, ?_, ?_, ?_, ?_⟩
  · intro s p tag data ok odd
    exact ⟨_, by rw [exec_slathBeat, if_pos odd], State.beats_tagFailed, State.rd_tagFailed_count⟩
  · intro s p tag data even sop eop
    exact ⟨_, by rw [exec_slathBeat, if_neg (by omega)], State.beats_beatIn_first sop eop⟩
  · rintro s e f r _ enabled link noControl noMaster rfl valid member route
    exact completes_edgeFrame_held enabled link noControl noMaster valid member route
  · intro s e data x k held stored long short noPtp noControl letIn route noLearn
    exact ⟨_, exec_edgeFrameEnd_routed held stored long short noPtp noControl letIn route noLearn, State.routeOut_untunnelled _ _ _ _ rfl⟩
  · intro s e data x code held stored
    exact ⟨_, exec_edgeFrameEnd_badFcs held stored, rfl, rfl, State.rd_bump_same _ _ (Nat.le_refl 32)⟩
  · intro s p c q pcp vid e k noLaunch tag valid single s1 found dst
    exact ⟨_, exec_tunnelledFrame_edge p noLaunch tag valid single found dst, rfl⟩
  · intro s p tag data ok b even sop eop held dead
    exact ⟨_, by rw [exec_slathBeat, if_neg (by omega)], State.beatIn_dead sop eop held dead⟩
  · intro s e data x r held stored long short noPtp noControl letIn route noTunnel noLearn
    exact ⟨_, exec_edgeFrameEnd_routed held stored long short noPtp noControl letIn route noLearn,
      State.routeOut_untunnelled _ _ _ _ noTunnel⟩
  · intro s e data x k held stored long short noPtp route
    refine ⟨_, exec_edgeFrameEnd_poisoned held stored long short, ?_⟩
    rw [State.boundFor_single _ _ noPtp route]
    rfl

end Sys2Proof.Scope
end
